-- ==== Sys2Proof/Word.lean ====
section
/-! DEFINITION. The word types of the TSU3 control port and memories, and their plainest arithmetic. -/
namespace Sys2Proof

/-- A byte of T0, T1 or the shelf. -/
abbrev Byte := BitVec 8
/-- A control-port register word (00 R16). -/
abbrev Word := BitVec 32
/-- A 64-bit register value (00 R16). -/
abbrev Dword := BitVec 64
/-- The five arithmetic flags in the bit order of `ENG_FLAGS`: IV, DZ, OF, UF, IX (03 R99). -/
abbrev Flags := BitVec 5

end Sys2Proof
end

