-- ==== Sys2Proof/Syntax.lean ====
section
/-! DEFINITION. The commands of the block: one constructor for each row of the table of commands, with its operands. -/
namespace Sys2Proof

/-- A cascade message: the 16-byte header and payload of 14 R450, with the link address it came from or goes to
(14 R443). -/
structure Msg where
  link : BitVec 16
  type : BitVec 8
  src : BitVec 8
  dst : BitVec 8
  attempt : BitVec 8
  len : BitVec 16
  tag : BitVec 8
  mflags : BitVec 8
  arg0 : Word
  arg1 : Word
  payload : List Byte
  deriving DecidableEq, Repr

/-- A failed self-test: the test (1 to 6), the core, the failing wave, step or row, and the word expected (16 R522, R523;
17 R541). -/
structure SelfTestFail where
  test : BitVec 3
  core : BitVec 8
  detail : Word
  expected : Word
  deriving DecidableEq, Repr

/-- The commands. A command about one taken command names its queue `q` and queue sequence number `n`; `c` is a core, `r` a
member's index in its set, `d` a page descriptor index, `lt` the local time of the event. -/
inductive Instr where
  /-- The engine controller takes the next published command of an enabled queue whenever the in-flight and completion-ring limits allow, copies it whole and advances Q_HEAD. (R401) -/
  | commandTake (q : BitVec 6)
  /-- A command held by its DEPMASK starts once every named earlier command of its queue has completed. (R406) -/
  | dependencyRelease (q : BitVec 6) (n : BitVec 16)
  /-- Matrix multiply command: tiles the output and places matrix-tile work items, with optional fused output stages, top-k and reduction. (R415) -/
  | mma (q : BitVec 6) (n : BitVec 16)
  /-- Decayed matrix multiply command over chunks with DLOG32 decay masks. (R177) -/
  | dmm (q : BitVec 6) (n : BitVec 16)
  /-- Convolution command by address generation over the input tensor. (R170) -/
  | conv (q : BitVec 6) (n : BitVec 16)
  /-- Recurrence command over whole sequences in chunked or sequential mode. (R416) -/
  | scan (q : BitVec 6) (n : BitVec 16)
  /-- Advances a set of sequences one step through a layer program, unparking members and waiting for each member to be IDLE. (R300) -/
  | stepCmd (q : BitVec 6) (n : BitVec 16)
  /-- Attention command over paged keys and values, optionally writing KV entries and advancing positions. (R335) -/
  | attn (q : BitVec 6) (n : BitVec 16)
  /-- Vector pass command that runs a pass program over whole tensors block by block. (R217) -/
  | vec (q : BitVec 6) (n : BitVec 16)
  /-- Special-function command that evaluates a function code or fused form elementwise. (R243) -/
  | sfn (q : BitVec 6) (n : BitVec 16)
  /-- Row statistic or normalisation command. (R257) -/
  | norm (q : BitVec 6) (n : BitVec 16)
  /-- Softmax command over rows of scores. (R263) -/
  | smax (q : BitVec 6) (n : BitVec 16)
  /-- Top-k selection command by value or magnitude. (R88) -/
  | topk (q : BitVec 6) (n : BitVec 16)
  /-- Copy command, converting or byte-exact, with broadcast and optional sequence binding. (R570) -/
  | copy (q : BitVec 6) (n : BitVec 16)
  /-- Fill command that converts one FP32 value once and writes it to every destination element. (R51) -/
  | fill (q : BitVec 6) (n : BitVec 16)
  /-- Admits one sequence: assigns the lowest free SID, places it, writes its initial state and maps park pages. (R279) -/
  | admitCmd (q : BitVec 6) (n : BitVec 16)
  /-- PARK operation: parks each named sequence after any step in flight for it commits. (R286) -/
  | park (q : BitVec 6) (n : BitVec 16)
  /-- UNPARK operation: unparks each named parked sequence and places it by R280. (R286) -/
  | unpark (q : BitVec 6) (n : BitVec 16)
  /-- PIN operation: sets PIN on each named sequence, in its slot or its directory entry. (R286) -/
  | pin (q : BitVec 6) (n : BitVec 16)
  /-- UNPIN operation: clears PIN on each named sequence. (R286) -/
  | unpin (q : BitVec 6) (n : BitVec 16)
  /-- Makes 1 to 64 children of a parent that share its page table, copying RESIDENT state and giving each child park pages. (R291) -/
  | fork (q : BitVec 6) (n : BitVec 16)
  /-- Retires the listed sequences, with optional cancel of steps in flight and optional subtree, and releases their pages, slots and SIDs. (R298) -/
  | retire (q : BitVec 6) (n : BitVec 16)
  /-- PAGE command with the rise operation: requests rises of the named pages without a consumer. (R373) -/
  | pageRise (q : BitVec 6) (n : BitVec 16)
  /-- PAGE command with the fall operation: requests falls of the named pages and skips the ineligible ones. (R373) -/
  | pageFall (q : BitVec 6) (n : BitVec 16)
  /-- Ordering point that holds later fetches of its scope and completes once the earlier covered writes are complete. (R382) -/
  | fence (q : BitVec 6) (n : BitVec 16)
  /-- Barrier command whose arrival is counted in a generation once every earlier command of its queue has completed. (R429) -/
  | barrier (q : BitVec 6) (n : BitVec 16)
  /-- A barrier arrives when its queue's earlier commands have completed; reaching the count releases the generation or, for a cascade barrier, sends ARRIVE. (R429) -/
  | barrierArrival (q : BitVec 6) (n : BitVec 16)
  /-- Adds to a semaphore once every earlier command of its queue has completed, then optionally writes a 64-bit value. (R428) -/
  | signal (q : BitVec 6) (n : BitVec 16)
  /-- Holds later commands of its queue until the semaphore reaches the threshold. (R428) -/
  | waitCmd (q : BitVec 6) (n : BitVec 16)
  /-- Hands a tensor to gradient reduction as a bucket. (R456) -/
  | reduce (q : BitVec 6) (n : BitVec 16)
  /-- Reloads a table domain by copying, writing and checking the shadow banks and then requesting an epoch switch. (R250) -/
  | tableCmd (q : BitVec 6) (n : BitVec 16)
  /-- A TABLE held by an earlier pending switch of its domain begins its step 1 once that switch has occurred. (R253) -/
  | tableReloadStart (q : BitVec 6) (n : BitVec 16)
  /-- Once every earlier user of the domain has ended, the shadow bank becomes active on every core, the epoch count rises and held commands are released. (R252) -/
  | epochSwitch (sfu : Bool)
  /-- No operation command. (R404) -/
  | nop (q : BitVec 6) (n : BitVec 16)
  /-- Write of a new tail index that is accepted and publishes slots when it is in range, or is ignored and logged. (R399) -/
  | qDoorbell (q : BitVec 6) (v : Word)
  /-- Write that cancels every published command of the queue through the given sequence number. (R438) -/
  | qCancel (q : BitVec 6) (v : Word)
  /-- W1C write of the sticky flags; clearing IV or OF also clears that locator and its count. (R103) -/
  | engFlags (v : Word)
  /-- ENG_CTRL.RECOVER write that enters recovery when every queue is idle. (R521) -/
  | recover 
  /-- ENG_CTRL.SERVICE write that leaves recovery when every queue is idle. (R521) -/
  | service 
  /-- Write that clears every fault record and FAULT_STATUS. (R542) -/
  | faultClear (v : Word)
  /-- Write that clears every violation-log entry and VLOG_STATUS. (R441) -/
  | vlogClear (v : Word)
  /-- IN_REARM.HALT_REL write that ends a halt. (R500) -/
  | haltRel 
  /-- IN_REARM.WAKE_REARM write that unmasks WAKE_REQ and clears its STUCK bit. (R503) -/
  | wakeRearm 
  /-- IN_REARM.THERM_REARM write that restarts units stopped by THERM_TRIP if the input is deasserted. (R501) -/
  | thermRearm 
  /-- IN_REARM.DROOP_CLR write that clears STUCK for DROOP_WARN. (R503) -/
  | droopClr 
  /-- CNT_CTRL.CLEAR write that clears every covered counter at one LT. (R562) -/
  | clearCounters (on : Bool)
  /-- CNT_CTRL.FREEZE write that holds or releases every covered counter at one LT. (R562) -/
  | freezeCounters (on : Bool)
  /-- Write of a SID that looks it up once and holds a snapshot result for later reads. (R558) -/
  | slotFind (v : Word)
  /-- Write that selects the slot shown and discards any captured record. (R559) -/
  | slotSel (v : Word)
  /-- Read of SLOT_WIN0 that captures the whole record of the selected slot for the later window reads. (R559) -/
  | slotWin0Read 
  /-- Read of a table bank word on the selected core, which adds 4 to TBL_ADDR. (R560) -/
  | tblDataRead 
  /-- Write to the selected shadow bank on every core under its write condition, which adds 4 to TBL_ADDR. (R560) -/
  | tblDataWrite (v : Word)
  /-- Read of a core's T0 word, corrected under SECDED and recording T0_UE if uncorrectable, which adds 4 to CW_ADDR. (R564) -/
  | cwDataRead (c : BitVec 8)
  /-- Write of a stopped core's T0 word with fresh check bits, which adds 4 to CW_ADDR. (R565) -/
  | cwDataWrite (c : BitVec 8) (v : Word)
  /-- Read of the low word of a 64-bit register, which captures the whole value for the next high-word read. (R16) -/
  | reg64LowRead (a : BitVec 24)
  /-- Write of the low word of a 64-bit register, which stages the word without acting. (R16) -/
  | reg64LowWrite (a : BitVec 24) (v : Word)
  /-- Write of the high word, which sets the whole 64-bit value at once from the staged low word. (R16) -/
  | reg64HighWrite (a : BitVec 24) (v : Word)
  /-- Setting CAS_CTRL.ENABLE forms or joins the cascade group. (R444) -/
  | casEnable (v : Word)
  /-- Clearing CAS_CTRL.ENABLE leaves the group, and step commands complete as after HALT. (R478) -/
  | casDisable 
  /-- Write to any other register, accepted or refused under its write condition, including the enables, semaphores, power and timing registers. (R554) -/
  | regWrite (a : BitVec 24) (v : Word)
  /-- Read-data response unit from a stream port, held until the read is complete and then released to the consumer. (R485) -/
  | streamReadData (p : BitVec 2) (id : BitVec 19) (unit : BitVec 2) (last err poison : Bool) (data : List Byte)
  /-- Write acknowledgement from a stream port that frees the write tag, or is handled as a lost write when it carries ERR. (R486) -/
  | streamWriteAck (p : BitVec 2) (id : BitVec 19) (err : Bool)
  /-- Grant of request or write-data credits on a stream port, with the excess above the limits ignored. (R484) -/
  | streamCreditGrant (p : BitVec 2) (wdata : Bool) (k : BitVec 8)
  /-- Shelf read response on the link shelf channel. (R488) -/
  | shelfReadData (id : BitVec 19) (unit : BitVec 2) (last err poison : Bool) (data : List Byte)
  /-- Shelf write acknowledgement on the link shelf channel. (R488) -/
  | shelfWriteAck (id : BitVec 19) (err : Bool)
  /-- Flit credit grant from the link die for an outgoing channel. (R489) -/
  | linkCreditGrant (shelf : Bool) (k : BitVec 8)
  /-- A read or write tag, or a tack transfer, not completed within TAG_TIMEOUT is timed out: the missing bytes land poisoned or the write is logged lost, and the tag frees. (R379) -/
  | tagTimeout (core : BitVec 8) (tag : BitVec 9) (lt : Dword)
  /-- Received JOIN, answered by the headland with WELCOME or REFUSE. (R444) -/
  | joinMsg (m : Msg)
  /-- Every 100,000 LT an engine without an answer sends JOIN again. (R444) -/
  | joinRetry (lt : Dword)
  /-- Received WELCOME accepting the join. (R444) -/
  | welcomeMsg (m : Msg)
  /-- Received START: the group is READY and credits are granted. (R444) -/
  | startMsg (m : Msg)
  /-- Received REFUSE: the engine goes HALTED, logs it and records a REFUSED fault. (R444) -/
  | refuseMsg (m : Msg)
  /-- Received cascade barrier arrival, counted by the headland per generation. (R453) -/
  | arriveMsg (m : Msg)
  /-- Received release of a cascade barrier generation, which releases the held local arrivals. (R453) -/
  | releaseMsg (m : Msg)
  /-- Received chunk travelling up the reduction tree, held under credit until the adder has all its terms. (R460) -/
  | contrib (m : Msg)
  /-- Received reduced chunk, written to the destination and forwarded to the children. (R461) -/
  | resultMsg (m : Msg)
  /-- Received chunk credits returned by the parent. (R459) -/
  | creditMsg (m : Msg)
  /-- Received refusal of a message, which is logged and ends the refused command as MALFORMED. (R452) -/
  | nak (m : Msg)
  /-- Received ABANDON of the current attempt, upon which the headland declares STEP_REPEAT at once. (R475) -/
  | abandon (m : Msg)
  /-- Received or applied COMMIT, which advances CAS_STEP, saves semaphores, resets the attempt and releases the commit barrier. (R473) -/
  | commitMsg (m : Msg)
  /-- The headland commits the step once every rank has arrived at the commit barrier and every step tag has a result. (R473) -/
  | stepCommit 
  /-- Received or applied REPEAT, which rolls back step commands and working copies and answers REPEAT_ACK. (R475) -/
  | repeatMsg (m : Msg)
  /-- The reduction deadline of the headland passes with a step tag lacking its result; the headland declares a repeat, or HALT after the maximum. (R474) -/
  | stepRepeat (lt : Dword)
  /-- Received REPEAT_ACK; after all of them the headland sends RESUME and grants fresh credits. (R475) -/
  | repeatAck (m : Msg)
  /-- Received RESUME, after which the reduction traffic of the new attempt may flow. (R475) -/
  | resumeMsg (m : Msg)
  /-- Received HALT, which rolls back as a repeat and sets the state HALTED. (R478) -/
  | cascadeHalt (m : Msg)
  /-- Received aperture write into this engine's window, or NAK when out of range. (R447) -/
  | aperWr (m : Msg)
  /-- Received aperture read of this engine's window, or NAK when out of range. (R447) -/
  | aperRd (m : Msg)
  /-- Received aperture read data for a tag of this engine. (R447) -/
  | aperData (m : Msg)
  /-- Received aperture write acknowledgement for a tag of this engine. (R447) -/
  | aperAck (m : Msg)
  /-- An idle core with an empty deque polls its peers and takes one stealable item from the fullest victim. (R35) -/
  | steal (c : BitVec 8)
  /-- After 32 LT without a cluster peer holding two or more stealable items, the thief polls the other clusters. (R35) -/
  | clusterPollTimeout (c : BitVec 8) (lt : Dword)
  /-- Between steps the controller moves a whole sequence from the fullest to the emptiest core when the gap is two or more. (R306) -/
  | sequenceBalance 
  /-- The state copy of a migrating sequence completes and the slot's core changes back to IDLE. (R38) -/
  | migrationComplete (slot : BitVec 12)
  /-- A ready item of higher priority preempts a lower-priority item at its boundary and the item saves its state to the save area. (R434) -/
  | preemption (c : BitVec 8) (q : BitVec 6) (n : BitVec 16)
  /-- A saved item of a resumed queue is restored first on its core or a thief. (R437) -/
  | itemResume (c : BitVec 8)
  /-- Once the last wave of a K-group has entered and the idle bank's load is complete, the banks swap down each K-chain. (R160) -/
  | swap (c : BitVec 8)
  /-- A K-group completes with an integer group saturated; the set restarts with a larger shift or saturates at the last shift. (R136) -/
  | saturationEvent (c : BitVec 8)
  /-- When an open set's last K-group completes, its groups drain through the output path. (R131) -/
  | openSetDrain (c : BitVec 8)
  /-- A tile, chunk or block commits its outputs, with their flags, locator captures and counts. (R98) -/
  | tileCommit (q : BitVec 6) (n : BitVec 16)
  /-- When every core has finished its two slices and the next slices have arrived, the slices hop. (R29) -/
  | hopPeriodEnd 
  /-- A weight round starts and the round phase advances by 97 modulo 256. (R30) -/
  | roundStart 
  /-- A ready message for a level-2b carry arrives, and the next span's core reads the carry and starts its level 2c. (R207) -/
  | seamCarryReady (q : BitVec 6) (n : BitVec 16) (seq : BitVec 12) (chunk : BitVec 24)
  /-- A STEP member whose page need is covered takes it from the pool at once and issues its first layer. (R326) -/
  | memberIssue (q : BitVec 6) (n : BitVec 16) (r : BitVec 12)
  /-- A member whose last layer has written its state commits by a selector write, adding 1 to SL_POS. (R302) -/
  | memberCommit (q : BitVec 6) (n : BitVec 16) (r : BitVec 12)
  /-- A PAGE_DRY member with no victim, fall, free or reserve is halted at its last step and records a page fault. (R331) -/
  | pageExhausted (q : BitVec 6) (n : BitVec 16) (r : BitVec 12)
  /-- A waiting admission proceeds once a slot becomes FREE or a victim becomes eligible. (R287) -/
  | slotWaitEnd (q : BitVec 6) (n : BitVec 16)
  /-- The record and state of a parking sequence are written and the slot becomes FREE. (R283) -/
  | parkComplete (slot : BitVec 12)
  /-- The record and state of an unparking sequence are restored and it becomes IDLE. (R283) -/
  | unparkComplete (slot : BitVec 12)
  /-- The evictor runs when free frames drop below TIER_FREE_LOW or a PAGE_DRY stall needs frames, and chooses victims by the clock. (R371) -/
  | evictor 
  /-- The shelf, and any summary write, acknowledge the last byte of a fall; COMMIT is set, the frame is released and the page becomes SHELF. (R320) -/
  | fallCommit (d : BitVec 28)
  /-- A rising page is unfolded into its frame and checked, becoming NEAR, or NEAR poisoned with a fold-error fault. (R357) -/
  | riseComplete (d : BitVec 28)
  /-- A fetch waiting for a rise reaches its stream deadline and takes the neap path from the summary. (R366) -/
  | neapStreamDeadline (d : BitVec 28) (lt : Dword)
  /-- LT passes a command or member deadline; a fault is recorded and the command runs on, or is aborted on an abort-on-miss queue. (R430) -/
  | deadlineMiss (q : BitVec 6) (n : BitVec 16) (lt : Dword)
  /-- After its committed writes are acknowledged, the command's 32-byte completion record is written and Q_CPL_TAIL advances. (R422) -/
  | completionRecord (q : BitVec 6) (n : BitVec 16)
  /-- On quiescence or a change of the next known event, the controller chooses the deepest power state that the gap allows. (R530) -/
  | quiescent 
  /-- At the next known event minus the wake time the engine begins waking so that it is in S0 at the event. (R530) -/
  | timedWake (lt : Dword)
  /-- LT reaches WAKE_AT and the engine clears it to 0. (R529) -/
  | wakeAtReached (lt : Dword)
  /-- The engine drives VSEL and VSET and raises VREQ to start a rail setpoint change. (R493) -/
  | setpointChange 
  /-- VACK rises; the engine records the setpoint as in force and lowers VREQ, or ignores it if VREQ is low. (R493) -/
  | vackRise 
  /-- VACK falls, completing the handshake so the next change may start. (R493) -/
  | vackFall 
  /-- A handshake phase overruns 100,000 LT; the engine logs it, records a power fault and holds VREQ. (R493) -/
  | vackLate (lt : Dword)
  /-- With step-down enabled and the hottest sensor at or above HI, the thermal limit falls by one point, at most once per 1,000,000 LT. (R526) -/
  | thermalStepdown (lt : Dword)
  /-- After 1,000,000 LT at or below LO, the thermal limit rises by one point. (R526) -/
  | thermalStepup (lt : Dword)
  /-- Each 1,000 LT window, each cluster monitor reports its beat rate and a slow cluster adds to PWR_SLOW_LT. (R537) -/
  | beatRateWindow (lt : Dword) (rates : List (BitVec 16))
  /-- Every 1,000 LT the sensors are read and the telemetry registers, energy and residency counts are updated. (R539) -/
  | telemetryUpdate (lt : Dword) (temps : List (BitVec 16)) (power : BitVec 16)
  /-- Every 10,000,000 LT the thermal sensors are calibrated against the bandgap. (R537) -/
  | calibration (lt : Dword)
  /-- Every RATE LT a core scrubs one 64-byte T0 row, correcting it or writing the poison pattern. (R536) -/
  | scrub (c : BitVec 8) (lt : Dword)
  /-- A pulse on an event line ends 10 LT after its last event. (R504) -/
  | evtPulseEnd (line : BitVec 3) (lt : Dword)
  /-- A counted rising edge of WAKE_REQ is accepted as a wake, or merged into the last accepted one under the rate limit. (R499) -/
  | wakeReq (lt : Dword)
  /-- HALT_REQ asserted: every core stops at its next preemption boundary and HALTED is set. (R500) -/
  | haltReq 
  /-- HALT_REQ deasserted; the halt continues, and the input is re-armed if the halt has already ended. (R500) -/
  | haltReqDeassert 
  /-- THERM_TRIP asserted: the units stop within 100 LT, THERM_HALT is set and a thermal fault is recorded. (R501) -/
  | thermTrip 
  /-- THERM_TRIP deasserted; the units wait for a re-arm write. (R501) -/
  | thermTripDeassert 
  /-- DROOP_WARN asserted: the array and Seam issue rates are halved and THROTTLE is set. (R502) -/
  | droopWarn 
  /-- DROOP_WARN deasserted; the 5,000 LT throttle hold starts. (R502) -/
  | droopWarnDeassert (lt : Dword)
  /-- 5,000 LT after the last deassertion of DROOP_WARN, throttling ends. (R502) -/
  | throttleEnd (lt : Dword)
  /-- An input held past its limit is logged, records an input fault, pulses the event and sets STUCK, and WAKE_REQ is masked. (R503) -/
  | inputStuck (input : BitVec 2) (lt : Dword)
  /-- No REF_OSC edge for 200 ns: LT holds, the boot port and UART stop, and a reference fault is recorded. (R495) -/
  | refLoss 
  /-- REF_OSC edges return and LT resumes from its held value. (R495) -/
  | refResume 
  /-- RST_N asserted while running: every unit stops within 1 µs and engine state except T1 is lost. (R497) -/
  | rstNAssert 
  /-- RST_N released: LT is 0, EVT is driven low, link receive credit is granted and the always-on controller starts and requests the rails. (R496) -/
  | rstNRelease 
  /-- 10 µs after reset release the boot read starts: SFDP discovery, choice of read command, and staging and hashing of the image. (R507) -/
  | bootRead (sfdp image : List Byte) (lt : Dword)
  /-- After the last image byte the engine checks format and digest, applies sections, runs self-test and calibration, zeroes T0 and sets READY. (R516) -/
  | bootComplete (reread : List Byte) (test : Option SelfTestFail) (lt : Dword)
  /-- TAP instruction in which the boundary register drives outputs and captures inputs. (R512) -/
  | extest (shift : BitVec 35)
  /-- TAP SAMPLE/PRELOAD instruction. (R512) -/
  | sample (shift : BitVec 35)
  /-- TAP instruction that selects the 32-bit identification register. (R512) -/
  | idcode 
  /-- TAP instruction that drives outputs from the boundary register with bypass selected. (R512) -/
  | clamp (shift : BitVec 35)
  /-- TAP instruction that releases outputs and SPI_IO with bypass selected. (R512) -/
  | highz (shift : BitVec 35)
  /-- TAP one-bit bypass instruction; reserved codes act as it. (R512) -/
  | bypass (code : BitVec 4)
  /-- Five TCK cycles with TMS high, or application of VDD_AON, reset the TAP to IDCODE. (R512) -/
  | tapReset 
  /-- A received 8N1 frame enters the FIFO, or is dropped and counted as an overrun or framing error. (R511) -/
  | uartRxFrame (b : Byte) (stop : Bool) (lt : Dword)
  /-- A monitor line not completed within 100,000,000 LT of its first byte is discarded. (R545) -/
  | monitorLineTimeout (lt : Dword)
  /-- A monitor challenge nonce expires 60 s after issue. (R546) -/
  | nonceExpiry (lt : Dword)
  /-- Monitor command that returns IDCODE, core count, image revision and the unlock state. (R547) -/
  | idCmd 
  /-- Monitor command that returns a fresh 8-byte nonce. (R546) -/
  | chal (entropy : BitVec 64)
  /-- Monitor command that checks the HMAC response, unlocking or recording an AUTH fault. (R546) -/
  | unlk 
  /-- Monitor command that locks the monitor. (R546) -/
  | lockCmd 
  /-- Monitor command that returns the status registers. (R547) -/
  | stCmd 
  /-- Monitor command that reads 1 to 64 words of the control space. (R547) -/
  | rdCmd 
  /-- Monitor command that writes one word as a control-port write. (R547) -/
  | wrCmd 
  /-- Monitor command that reads 1 to 256 bytes of T1 through the tack gateway. (R547) -/
  | mdCmd 
  /-- Monitor HALT that halts the engine or one core at its boundary. (R548) -/
  | monitorHalt 
  /-- Monitor RES that ends an engine halt or one core's halt. (R548) -/
  | monitorRes 
  /-- Monitor command that sets or clears breakpoint n. (R549) -/
  | bpCmd 
  /-- Monitor command that returns the stall counters or the engine counters. (R547) -/
  | cntCmd 
  /-- Monitor command that starts trace capture into a T1 buffer. (R550) -/
  | trOn 
  /-- Monitor command that stops trace capture. (R550) -/
  | trOff 
  /-- Monitor command that returns the trace state. (R550) -/
  | trSt 
  /-- A trace entry not written within 100 LT is dropped and counted. (R550) -/
  | traceDrop 
  /-- Arms an injection that flips one stored bit of a T0 word. (R551) -/
  | injT0c 
  /-- Arms an injection that flips two bits of a T0 word. (R551) -/
  | injT0u 
  /-- Arms an injection under which the next read response to the core lands poisoned. (R551) -/
  | injPpoi 
  /-- Arms an injection that discards the next read response to the core. (R551) -/
  | injTdrop 
  /-- Arms an injection under which the next command taken on the queue misses its deadline. (R551) -/
  | injDln 
  /-- Arms an injection under which the engine's next CONTRIB is not sent. (R551) -/
  | injCdrop 
  /-- Arms an injection under which the next VACK rise is ignored. (R551) -/
  | injVack 
  /-- Monitor command that disarms every injection that has not fired. (R551) -/
  | injClr 
  /-- Monitor command that returns the armed injections. (R551) -/
  | injSt 
  /-- Monitor command that reruns self-test in the maintenance state when every queue is idle and no sequence is admitted. (R524) -/
  | stest (test : Option SelfTestFail) (lt : Dword)
  /-- Monitor command that sets UART_DIV once its answer has been sent. (R547) -/
  | baud 
  /-- WAKE_REQ falls, which ends the held-asserted count toward INPUT_STUCK and starts the 100 LT deasserted window that the next accepted edge needs. (R499) -/
  | wakeReqDeassert (lt : Dword)
  /-- A control-port read outside the always-on ranges wakes the engine from S2 to S4 and is answered after the wake, and a misaligned read returns 0 and is logged. (R532) -/
  | controlPortRead (a : BitVec 24)
  /-- The character being sent on UART_TX ends; a new divisor takes effect there, and once a monitor answer has been sent a pending BAUD sets UART_DIV. (R510) -/
  | uartTxCharacterEnd 
  /-- An entry into S2 to S4, or a wake from it, completes after its entry time or wake time W, after which the engine holds the new state and answers the accesses held for the wake. (R530) -/
  | powerStateChangeComplete (lt : Dword)
  deriving DecidableEq, Repr

end Sys2Proof
end

