-- ==== Sys2Proof/Config.lean ====
section
/-! DEFINITION. What one configuration fixes (00 R1, R4) and the free values: constants without a body for what the
specification leaves open (logs 8, 9, 12, 13, 14, 20). -/
namespace Sys2Proof

/-- Cores of this configuration (00 R4, 01 R20). -/
def Config.cores : Nat := 256
/-- Clusters (01 R20). -/
def Config.clusters : Nat := 16
/-- Sequence slots (00 R4). -/
def Config.slots : Nat := 4096
/-- Command queues (00 R4). -/
def Config.queues : Nat := 64

/-- Which of the values within its stated bound a native function returns: a signed distance in last places from the
correctly rounded result (08 R243, DESIGN CHOICE, log 8). -/
opaque Config.nativePick : Nat → Nat → Int
/-- The FP32 result of a Tsuron 2 function on an ordinary input (08 R270, DESIGN CHOICE, log 9). -/
opaque Config.tsu2Fn : Nat → Nat → Nat
/-- What an INT32 output of the log path holds, and the flags its conversion raises in bits 36:32 (DESIGN CHOICE, log 20). -/
opaque Config.logToInt32 : Nat → Nat
/-- Any other open value, one for each value of the counter `fresh` (DESIGN CHOICE, log 14). -/
opaque Config.freeValue : Nat → Nat

end Sys2Proof
end

