-- ==== Sys2Proof/Machine/Bits.lean ====
section
/-! DEFINITION. Bit fields, little-endian byte strings and integer helpers (00 R11). -/
namespace Sys2Proof.Machine

/-- Bits `lo + w - 1 : lo` of `x` (00 R11). -/
def fld (x lo w : Nat) : Nat := (x >>> lo) % 2 ^ w

/-- One bit of `x`. -/
def bit (x i : Nat) : Bool := (x >>> i) % 2 == 1

/-- A Boolean as a bit. -/
def b2n (b : Bool) : Nat := if b then 1 else 0

/-- `x` with bits `lo + w - 1 : lo` replaced by `v`. -/
def setFld (x lo w v : Nat) : Nat :=
  x - (fld x lo w) <<< lo + (v % 2 ^ w) <<< lo

/-- The `n` bytes of `x`, lowest first (00 R11). -/
def leBytes : Nat → Nat → List Byte
  | 0, _ => []
  | n + 1, x => BitVec.ofNat 8 x :: leBytes n (x / 256)

/-- The number whose little-endian bytes are given (00 R11). -/
def ofLe : List Byte → Nat
  | [] => 0
  | b :: bs => b.toNat + 256 * ofLe bs

/-- The `n` bytes of `x`, highest first (the order of FIPS 180-4). -/
def beBytes (n x : Nat) : List Byte := (leBytes n x).reverse

/-- The number whose big-endian bytes are given. -/
def ofBe (bs : List Byte) : Nat := ofLe bs.reverse

/-- Ceiling division. -/
def cdiv (a b : Nat) : Nat := (a + b - 1) / b

/-- `x` rounded up to a multiple of `m`. -/
def roundUp (x m : Nat) : Nat := cdiv x m * m

/-- Two's complement reading of a `w`-bit field. -/
def sgn (w x : Nat) : Int := if x % 2 ^ w < 2 ^ (w - 1) then (x % 2 ^ w : Nat) else ((x % 2 ^ w : Nat) : Int) - (2 ^ w : Nat)

/-- Two's complement encoding of `x` in `w` bits. -/
def unsgn (w : Nat) (x : Int) : Nat := (x % ((2 ^ w : Nat) : Int)).toNat

/-- Length of the binary representation of `m`; 0 for 0. -/
def bitLen (m : Nat) : Nat := if m == 0 then 0 else m.log2 + 1

/-- 64-bit wrapping addition on counts held as numbers. -/
def add64 (a b : Nat) : Nat := (a + b) % 2 ^ 64

/-- Addition saturating at 2^32 - 1. -/
def sat32 (a b : Nat) : Nat := min (a + b) 0xFFFFFFFF

/-- The list `f 0, ..., f (n - 1)`. -/
def tab {α : Type} (n : Nat) (f : Nat → α) : List α := (List.range n).map f

/-- A table from numbers to values: pairs in ascending key order, an absent key reading as a default. -/
abbrev Tab (α : Type) := List (Nat × α)

/-- The value at `k`, if listed. -/
def Tab.find {α : Type} : Tab α → Nat → Option α
  | [], _ => none
  | (i, a) :: t, k => if i = k then some a else Tab.find t k

/-- The value at `k`, or `d`. -/
def Tab.get {α : Type} (t : Tab α) (k : Nat) (d : α) : α := (Tab.find t k).getD d

/-- `t` with `k` set to `a`, keys kept in ascending order. -/
def Tab.put {α : Type} : Tab α → Nat → α → Tab α
  | [], k, a => [(k, a)]
  | (i, b) :: t, k, a =>
    if k < i then (k, a) :: (i, b) :: t
    else if k = i then (k, a) :: t
    else (i, b) :: Tab.put t k a

/-- `t` without `k`. -/
def Tab.del {α : Type} (t : Tab α) (k : Nat) : Tab α := t.filter fun p => p.1 != k

/-- The least number not in the ascending list of keys, counted from `n`. -/
def lowestFree : List Nat → Nat → Nat
  | [], n => n
  | k :: ks, n => if k = n then lowestFree ks (n + 1) else if n < k then n else lowestFree ks n

/-- `true` when a list repeats no element. -/
def noDup (l : List Nat) : Bool := l.Nodup

/-- Insertion into a list sorted by a strict order, after its equals. -/
def insertBy {α : Type} (lt : α → α → Bool) (a : α) : List α → List α
  | [] => [a]
  | b :: bs => if lt a b then a :: b :: bs else b :: insertBy lt a bs

/-- Stable insertion sort by a strict order. -/
def sortBy {α : Type} (lt : α → α → Bool) (l : List α) : List α :=
  l.foldl (fun acc a => insertBy lt a acc) []

end Sys2Proof.Machine
end

