-- ==== Sys2Proof/Machine/Fp.lean ====
section
/-! DEFINITION. Floating-point values and their roundings (02 R52-R55, R65; 03 R84-R87, R96). Every number is held
exactly as a sign, a natural significand and a power of two, and rounded once at the end. -/
namespace Sys2Proof.Machine

/-- IV (03 R99). -/
def fIV : Flags := 1
/-- DZ. -/
def fDZ : Flags := 2
/-- OF. -/
def fOF : Flags := 4
/-- UF. -/
def fUF : Flags := 8
/-- IX. -/
def fIX : Flags := 16
/-- No flag. -/
def f0 : Flags := 0
/-- `f` when `b` holds. -/
def fIf (b : Bool) (f : Flags) : Flags := if b then f else 0

/-- A value read from a format: NaN, a signed infinity or zero, or `(-1)^s * m * 2^e` with `m > 0`. -/
inductive Num where
  | nan
  | inf (s : Bool)
  | zero (s : Bool)
  | fin (s : Bool) (m : Nat) (e : Int)
  deriving DecidableEq, Repr

/-- `x * 2^k` for an integer power, when `k ≥ 0`, else the quotient. Used only on exact shifts. -/
def shl (m : Nat) (k : Int) : Nat := m <<< k.toNat

/-- Rounds `m * 2^e` to a multiple of `2^q` with ties to even (02 R65); answers the multiple and inexactness. -/
def rneAt (m : Nat) (e q : Int) : Nat × Bool :=
  if q ≤ e then (shl m (e - q), false)
  else
    let d := (q - e).toNat
    if bitLen m + 2 ≤ d then (0, m != 0)
    else
      let k := m >>> d
      let r := m - k <<< d
      let h := 2 ^ (d - 1)
      let up := decide (h < r) || (r == h && k % 2 == 1)
      (if up then k + 1 else k, r != 0)

/-- The position of the last place of `m * 2^e` at precision `p`, not below `emin`. -/
def lastPlace (p : Nat) (emin : Int) (m : Nat) (e : Int) : Int :=
  max (e + bitLen m - p) emin

/-- The parameters of a binary format: exponent bits, fraction bits, bias, and whether it is E4M3 (02 R52, R54). -/
structure Ieee where
  eb : Nat
  mb : Nat
  bias : Nat
  e4m3 : Bool
  deriving DecidableEq, Repr

/-- binary32 (02 R52). -/
def ieee32 : Ieee := ⟨8, 23, 127, false⟩
/-- binary16 (02 R52). -/
def ieee16 : Ieee := ⟨5, 10, 15, false⟩
/-- bfloat16 (02 R52). -/
def ieeeBf : Ieee := ⟨8, 7, 127, false⟩
/-- E4M3 (02 R54). -/
def ieeeE4 : Ieee := ⟨4, 3, 7, true⟩
/-- E5M2 (02 R54). -/
def ieeeE5 : Ieee := ⟨5, 2, 15, false⟩

/-- Exponent of the least subnormal. -/
def Ieee.emin (f : Ieee) : Int := 1 - (f.bias : Int) - f.mb
/-- Code of +infinity (not for E4M3). -/
def Ieee.infCode (f : Ieee) : Nat := (2 ^ f.eb - 1) <<< f.mb
/-- Canonical NaN (03 R89). -/
def Ieee.nanCode (f : Ieee) : Nat := if f.e4m3 then 0x7F else f.infCode + 2 ^ (f.mb - 1)
/-- Code of the largest finite value. -/
def Ieee.maxCode (f : Ieee) : Nat := if f.e4m3 then 0x7E else f.infCode - 1
/-- The sign bit in place. -/
def Ieee.sign (f : Ieee) (s : Bool) : Nat := if s then 2 ^ (f.eb + f.mb) else 0

/-- The value of a code (02 R52-R54). -/
def Ieee.dec (f : Ieee) (c : Nat) : Num :=
  let s := bit c (f.eb + f.mb)
  let e := fld c f.mb f.eb
  let m := fld c 0 f.mb
  if f.e4m3 && e == 15 && m == 7 then .nan
  else if !f.e4m3 && e == 2 ^ f.eb - 1 then (if m == 0 then .inf s else .nan)
  else if e == 0 then (if m == 0 then .zero s else .fin s m f.emin)
  else .fin s (m + 2 ^ f.mb) ((e : Int) - 1 + f.emin)

/-- A signalling NaN (02 R53); E4M3 has none (02 R54). -/
def Ieee.isSnan (f : Ieee) (c : Nat) : Bool :=
  !f.e4m3 && fld c f.mb f.eb == 2 ^ f.eb - 1 && fld c 0 f.mb != 0 && !bit c (f.mb - 1)

/-- The code of a rounded magnitude `k * 2^q` (`q` from `lastPlace`), or `none` beyond the largest finite value. -/
def Ieee.pack (f : Ieee) (k : Nat) (q : Int) : Option Nat :=
  let c := if k < 2 ^ f.mb then k else ((q - f.emin).toNat + 1) <<< f.mb + (k - 2 ^ f.mb)
  if c ≤ f.maxCode then some c else none

/-- Rounds the exact `(-1)^s * m * 2^e` (`m > 0`) into the format: code and flags (02 R55, R67; 03 R96).
Tininess is judged after rounding with an unbounded exponent. `sat` is the saturate bit of R55. -/
def Ieee.enc (f : Ieee) (sat : Bool) (s : Bool) (m : Nat) (e : Int) : Nat × Flags :=
  let q := lastPlace (f.mb + 1) f.emin m e
  let r := rneAt m e q
  let q0 := e + bitLen m - (f.mb + 1)
  let r0 := rneAt m e q0
  let tiny := decide ((bitLen r0.1 : Int) + q0 < f.emin + f.mb + 1)
  match f.pack r.1 q with
  | some c => (c + f.sign s, fIf r.2 fIX ||| fIf (tiny && r.2) fUF)
  | none =>
    (if f.e4m3 then (if sat then 0x7E + f.sign s else 0x7F) else f.infCode + f.sign s, fOF ||| fIX)

/-- Largest finite FP32, +infinity and NaN codes. -/
def inf32 : Nat := 0x7F800000
/-- Canonical FP32 NaN (03 R89). -/
def nan32 : Nat := 0x7FC00000
/-- 1.0 in FP32. -/
def one32 : Nat := 0x3F800000
/-- The FP32 sign bit. -/
def sg32 (s : Bool) : Nat := if s then 0x80000000 else 0

/-- The value of an FP32 code. -/
def dec32 (c : Nat) : Num := ieee32.dec c
/-- An FP32 signalling NaN. -/
def snan32 (c : Nat) : Bool := ieee32.isSnan c
/-- An FP32 NaN. -/
def isNan32 (c : Nat) : Bool := decide (0x7F800000 < c % 2 ^ 31)
/-- Rounds an exact value to FP32. -/
def enc32 (s : Bool) (m : Nat) (e : Int) : Nat × Flags := ieee32.enc false s m e

/-- An exact dyadic: signed significand times a power of two. -/
structure Dy where
  m : Int
  e : Int
  deriving DecidableEq, Repr

/-- Exact sum of two dyadics. -/
def Dy.add (a b : Dy) : Dy :=
  let e := min a.e b.e
  ⟨a.m * ((2 ^ (a.e - e).toNat : Nat) : Int) + b.m * ((2 ^ (b.e - e).toNat : Nat) : Int), e⟩
/-- Exact product. -/
def Dy.mul (a b : Dy) : Dy := ⟨a.m * b.m, a.e + b.e⟩
/-- Rounds a dyadic to FP32; an exact zero is +0 (03 R85). -/
def Dy.to32 (a : Dy) : Nat × Flags := if a.m == 0 then (0, 0) else enc32 (decide (a.m < 0)) a.m.natAbs a.e
/-- Exact comparison `a < b`. -/
def Dy.lt (a b : Dy) : Bool := decide ((a.add ⟨-b.m, b.e⟩).m < 0)
/-- The dyadic of a finite or zero value; 0 for the others. -/
def Num.dy : Num → Dy
  | .fin s m e => ⟨if s then -(m : Int) else m, e⟩
  | _ => ⟨0, 0⟩
/-- The sign of a value. -/
def Num.sign : Num → Bool
  | .nan => false | .inf s => s | .zero s => s | .fin s _ _ => s
/-- Finite and not zero. -/
def Num.isFin : Num → Bool
  | .fin .. => true | _ => false

/-- One FP32 addition (03 R84, R85, R96); `(code, flags)`. -/
def fadd (a b : Nat) : Nat × Flags :=
  let sn := fIf (snan32 a || snan32 b) fIV
  match dec32 a, dec32 b with
  | .nan, _ => (nan32, sn)
  | _, .nan => (nan32, sn)
  | .inf s, .inf t => if s == t then (inf32 + sg32 s, 0) else (nan32, fIV)
  | .inf s, _ => (inf32 + sg32 s, 0)
  | _, .inf s => (inf32 + sg32 s, 0)
  | .zero s, .zero t => (sg32 (s && t), 0)
  | x, y => (x.dy.add y.dy).to32

/-- Sign bit inverted. -/
def fneg (a : Nat) : Nat := a ^^^ 0x80000000
/-- Sign bit cleared. -/
def fabs (a : Nat) : Nat := a % 2 ^ 31
/-- One FP32 subtraction. -/
def fsub (a b : Nat) : Nat × Flags := if isNan32 b then fadd a b else fadd a (fneg b)

/-- One FP32 multiplication (03 R85, R90). -/
def fmul (a b : Nat) : Nat × Flags :=
  let sn := fIf (snan32 a || snan32 b) fIV
  let x := dec32 a
  let y := dec32 b
  let s := x.sign != y.sign
  match x, y with
  | .nan, _ => (nan32, sn)
  | _, .nan => (nan32, sn)
  | .inf _, .zero _ => (nan32, fIV)
  | .zero _, .inf _ => (nan32, fIV)
  | .inf _, _ => (inf32 + sg32 s, 0)
  | _, .inf _ => (inf32 + sg32 s, 0)
  | .fin _ m e, .fin _ n f => enc32 s (m * n) (e + f)
  | _, _ => (sg32 s, 0)

/-- One FP32 fused multiply-add, rounded once; 0 times infinity raises IV also under a quiet NaN addend (03 R96). -/
def ffma (a b c : Nat) : Nat × Flags :=
  let sn := fIf (snan32 a || snan32 b || snan32 c) fIV
  let x := dec32 a
  let y := dec32 b
  let z := dec32 c
  let s := x.sign != y.sign
  let bad := match x, y with
    | .inf _, .zero _ => true | .zero _, .inf _ => true | _, _ => false
  if bad then (nan32, fIV ||| sn)
  else if isNan32 a || isNan32 b || isNan32 c then (nan32, sn)
  else match x, y, z with
    | .inf _, _, .inf t => if s == t then (inf32 + sg32 s, 0) else (nan32, fIV)
    | _, .inf _, .inf t => if s == t then (inf32 + sg32 s, 0) else (nan32, fIV)
    | .inf _, _, _ => (inf32 + sg32 s, 0)
    | _, .inf _, _ => (inf32 + sg32 s, 0)
    | _, _, .inf t => (inf32 + sg32 t, 0)
    | .fin _ m e, .fin _ n f, z =>
      let p : Dy := ⟨if s then -((m * n : Nat) : Int) else (m * n : Nat), e + f⟩
      (p.add z.dy).to32
    | _, _, .zero t => (sg32 (s && t), 0)
    | _, _, z => z.dy.to32

/-- An FP32 infinity. -/
def isInf32 (c : Nat) : Bool := c % 2 ^ 31 == inf32
/-- An addition outside the vector unit: as `fadd`, but opposite infinities raise no flag (03 R96 names that IV for the vector
unit alone). -/
def faddQ (a b : Nat) : Nat × Flags :=
  let r := fadd a b
  (r.1, if isInf32 a && isInf32 b then f0 else r.2)
/-- A subtraction outside the vector unit. -/
def fsubQ (a b : Nat) : Nat × Flags := if isNan32 b then faddQ a b else faddQ a (fneg b)
/-- A fused multiply-add outside the vector unit: as `ffma`, but an infinite product meeting the opposite infinity raises no flag
(03 R96); 0 times infinity does. -/
def ffmaQ (a b c : Nat) : Nat × Flags :=
  let r := ffma a b c
  let p := (isInf32 a || isInf32 b) && !isNan32 a && !isNan32 b && a % 2 ^ 31 != 0 && b % 2 ^ 31 != 0
  (r.1, if p && isInf32 c then f0 else r.2)

/-- Exact quotient `n / d` of positive numbers times `2^e`, as a significand and exponent that round like it:
`w` quotient bits are kept and a sticky bit is appended. -/
def quot (n d : Nat) (e : Int) (w : Nat) : Nat × Int :=
  let k := w + bitLen d
  let q := (n <<< k) / d
  (2 * q + (if q * d == n <<< k then 0 else 1), e - k - 1)

/-- FP32 division by a positive integer, correctly rounded (08 R258). -/
def fdivNat (a n : Nat) : Nat × Flags :=
  match dec32 a with
  | .fin s m e => let q := quot m n e 64; enc32 s q.1 q.2
  | .nan => (nan32, fIf (snan32 a) fIV)
  | _ => (a, 0)

/-- Value order with NaN excluded: `a < b` on FP32 codes, zeros equal (03 R86). -/
def fltV (a b : Nat) : Bool :=
  match dec32 a, dec32 b with
  | .nan, _ => false
  | _, .nan => false
  | .inf s, .inf t => s && !t
  | .inf s, _ => s
  | _, .inf t => !t
  | x, y => x.dy.lt y.dy
/-- Value equality, NaN unordered (03 R86). -/
def feqV (a b : Nat) : Bool := !isNan32 a && !isNan32 b && !fltV a b && !fltV b a
/-- IV of a quiet comparison (03 R86, R87). -/
def cmpFlags (a b : Nat) : Flags := fIf (snan32 a || snan32 b) fIV
/-- `minimum` or `maximum` of IEEE 754 with -0 below +0 (03 R87). -/
def fminmax (mx : Bool) (a b : Nat) : Nat × Flags :=
  if isNan32 a || isNan32 b then (nan32, cmpFlags a b)
  else
    let less := fltV a b || (feqV a b && bit a 31 && !bit b 31)
    (if less == mx then b else a, 0)

/-- Position of an FP32 code on the number line: neighbours differ by one. -/
def ord32 (c : Nat) : Int := if bit c 31 then -((c % 2 ^ 31 : Nat) : Int) else (c : Int)
/-- The key of selection by rank: a larger key ranks first (03 R88). -/
def rankKey (mag : Bool) (c : Nat) : Int :=
  if isNan32 c then 2 ^ 33
  else if mag then ((c % 2 ^ 31 : Nat) : Int)
  else if bit c 31 then -((c % 2 ^ 31 : Nat) : Int) - 1 else (c : Int)
/-- The indices of the `k` values ranked first, best first; equal keys in index order (03 R88). -/
def topRank (mag : Bool) (k : Nat) (cs : List Nat) : List Nat :=
  ((sortBy (fun (a b : Int × Nat) => decide (b.1 < a.1)) (cs.zipIdx.map fun c => (rankKey mag c.1, c.2))).map Prod.snd).take k

/-- The code at a position, zero being +0. -/
def ofOrd32 (o : Int) : Nat := if o < 0 then o.natAbs + 2 ^ 31 else o.toNat

end Sys2Proof.Machine
end

