-- ==== Sys2Proof/Machine/Log.lean ====
section
/-! DEFINITION. Logarithmic formats: LOG16, LOG8, DLOG32, the antilog and the wide factors (02 R57-R71; 06 R186-R188). -/
namespace Sys2Proof.Machine

/-- Largest `w < 2^n` with `w^k ≤ t`, found bit by bit. -/
def rootBits (k t : Nat) : Nat → Nat → Nat
  | 0, w => w
  | n + 1, w =>
    let w' := w + 2 ^ n
    rootBits k t n (if w' ^ k ≤ t then w' else w)

/-- Antilog table entry `T[m]`: `2^(m/128)` rounded to a 24-bit significand (02 R68). -/
def antilogT (m : Nat) : Nat := (rootBits 128 (2 ^ (128 * 24 + m)) 25 0 + 1) / 2

/-- The antilog of the log `L`, in 1/128 units, with a sign (02 R68, R69; 03 R91). -/
def antilog (s : Bool) (l : Int) : Nat × Flags :=
  let e := l / 128
  let m : Nat := (l % 128).toNat
  if e < -400 then (sg32 s, fUF ||| fIX)
  else
    let r := enc32 s (antilogT m) (e - 23)
    (r.1, r.2 ||| fIf (m != 0) fIX ||| fIf (m != 0 && decide (e < -126)) fUF)

/-- Canonical LOG16 NaN (02 R58). -/
def log16Nan : Nat := 0x7FFE
/-- LOG16 sign bit. -/
def sg16 (s : Bool) : Nat := if s then 0x8000 else 0
/-- The class of a LOG16 code (02 R58): zero, infinite or NaN as a special value, else its log in 1/128 units. -/
inductive LogVal where
  | nan
  | inf (s : Bool)
  | zero (s : Bool)
  | fin (s : Bool) (l : Int)
  deriving DecidableEq, Repr

/-- Reads a LOG16 code (02 R57-R59). -/
def dec16 (c : Nat) : LogVal :=
  let s := bit c 15
  let f : Nat := c % 2 ^ 15
  if f == 0 then .zero s
  else if f == 0x7FFE then .nan
  else if f == 0x7FFF then .inf s
  else .fin s (Int.ofNat f - 16384)

/-- The LOG16 code of a log, beyond the range as given: infinity with `top`, zero with `bot` (02 R67, R75). -/
def enc16 (s : Bool) (l : Int) (top bot : Flags) : Nat × Flags :=
  let f := l + 16384
  if 0x7FFD < f then (0x7FFF + sg16 s, top)
  else if f < 1 then (sg16 s, bot)
  else (f.toNat + sg16 s, 0)

/-- `round(128 * log2 (m * 2^e))`; the log of a non-power of two never meets a tie (02 R66). -/
def log128 (m : Nat) (e : Int) : Int :=
  (((m ^ 256).log2 : Int) + 256 * e + 1) / 2

/-- Conversion of a value into LOG16 (02 R66, R67); a NaN gives 0x7FFE. -/
def toLog16 (x : Num) : Nat × Flags :=
  match x with
  | .nan => (log16Nan, 0)
  | .inf s => (0x7FFF + sg16 s, 0)
  | .zero s => (sg16 s, 0)
  | .fin s m e =>
    let r := enc16 s (log128 m e) (fOF ||| fIX) (fUF ||| fIX)
    (r.1, r.2 ||| fIf (m != 2 ^ m.log2) fIX)

/-- LOG16 to FP32 (02 R67, R68). -/
def log16To32 (c : Nat) : Nat × Flags :=
  match dec16 c with
  | .nan => (nan32, 0)
  | .inf s => (inf32 + sg32 s, 0)
  | .zero s => (sg32 s, 0)
  | .fin s l => antilog s l

/-- FP32 to LOG16; a signalling NaN raises IV (02 R67). -/
def f32ToLog16 (c : Nat) : Nat × Flags :=
  let r := toLog16 (dec32 c)
  (r.1, r.2 ||| fIf (snan32 c) fIV)

/-- A LOG8 element with its block scale, as LOG16: exact, but for the ends of the range (02 R60, R67). -/
def log8To16 (c s : Nat) : Nat × Flags :=
  let g := bit c 7
  let f := c % 128
  if f == 0 then (sg16 g, 0)
  else if f == 0x7F then (0x7FFF + sg16 g, 0)
  else if f == 0x7E then (log16Nan, 0)
  else if s == 0xFF then (log16Nan, fIV)
  else enc16 g (128 * ((s : Int) - 127) + 16 * ((f : Int) - 64)) fOF fUF

/-- Rounds `a / 2^k` to nearest, ties to even. -/
def rneShift (a : Int) (k : Nat) : Int × Bool :=
  let q := a / ((2 ^ k : Nat) : Int)
  let r := a % ((2 ^ k : Nat) : Int)
  let h : Int := ((2 ^ k : Nat) : Int)
  let up := decide (h < 2 * r) || (decide (2 * r = h) && decide (q % 2 = 1))
  (if up then q + 1 else q, decide (r ≠ 0))

/-- LOG16 to LOG8 under scale byte `s` (02 R67). -/
def log16To8 (c s : Nat) : Nat × Flags :=
  match dec16 c with
  | .nan => (0x7E, 0)
  | .inf g => (0x7F + (if g then 128 else 0), 0)
  | .zero g => (if g then 128 else 0, 0)
  | .fin g l =>
    let r := rneShift (l - 128 * ((s : Int) - 127)) 4
    let f := r.1 + 64
    if f < 1 then (if g then 128 else 0, fUF ||| fIX)
    else (min f.toNat 0x7D + (if g then 128 else 0), fIf r.2 fIX)

/-- The block scale byte of a block of LOG16 elements (02 R62). -/
def log8Scale (cs : List Nat) : Nat :=
  let ls := cs.filterMap fun c => match dec16 c with | .fin _ l => some l | _ => none
  match ls with
  | [] => 0
  | l :: t =>
    let m := t.foldl max l
    (min (max (-((-m) / 128) - 7 + 127) 0) 254).toNat

/-- `2^(2^-i)` for `i` from 1 to 24, in units of 2^-96. -/
def rootTable : List Nat :=
  [0x16a09e667f3bcc908b2fb1366, 0x1306fe0a31b7152de8d5a4630, 0x1172b83c7d517adcdf7c8c50e,
   0x10b5586cf9890f6298b92b718, 0x1059b0d31585743ae7c548eb6, 0x102c9a3e778060ee6f7caca4f,
   0x10163da9fb33356d84a66ae33, 0x100b1afa5abcbed6129ab13ec, 0x10058c86da1c09ea1ff19d294,
   0x1002c605e2e8cec506d21bfc8, 0x100162f3904051fa128bca9c5, 0x1000b175effdc76ba38e31671,
   0x100058ba01fb9f96d6cacd4b1, 0x10002c5cc37da9491d0985c34, 0x1000162e525ee054754457d59,
   0x10000b17255775c040618bf4a, 0x1000058b91b5bc9ae2eed81e9, 0x100002c5c89d5ec6ca4d7c8ac,
   0x10000162e43f4f831060e02d8, 0x100000b1721bcfc99d9f890ea, 0x10000058b90cf1e6d97f9ca14,
   0x1000002c5c863b73f016468f6, 0x100000162e430e5a18f6119e3, 0x1000000b1721835514b86e6d9]

/-- `2^(r / 2^24)` for a 24-bit fraction, in units of 2^-96, close enough that every rounding to 24 bits is correct (02 R70). -/
def pow2frac (r : Nat) : Nat :=
  (rootTable.zipIdx).foldl (fun acc p => if bit r (23 - p.2) then (acc * p.1) >>> 96 else acc) (2 ^ 96)

/-- `2^(r / 2^24)` rounded to a 24-bit significand (02 R70). -/
def dlogT (r : Nat) : Nat := (pow2frac r + 2 ^ 72) >>> 73

/-- DLOG32 `ZERO` (02 R63). -/
def dlZero : Nat := 0x80000000
/-- DLOG32 `INVALID` (02 R63). -/
def dlInvalid : Nat := 0x7FFFFFFF

/-- DLOG32 to FP32 (02 R70). -/
def dlogTo32 (x : Nat) : Nat × Flags :=
  if x == dlZero then (0, 0)
  else if x == dlInvalid then (nan32, 0)
  else
    let v := sgn 32 x
    let n := v / 2 ^ 24
    let r := (v % 2 ^ 24).toNat
    let c := enc32 false (dlogT r) (n - 23)
    (c.1, c.2 ||| fIf (r != 0) fIX ||| fIf (r != 0 && decide (n < -126)) fUF)

/-- The log `d` of a DLOG32 input read in `LOG` mode (07 R227). -/
def dlogLog32 (x : Nat) : Nat × Flags :=
  if x == dlZero then (inf32 + 0x80000000, 0)
  else if x == dlInvalid then (nan32, 0)
  else Dy.to32 ⟨sgn 32 x, -24⟩

/-- ln 2 in units of 2^-512. -/
def ln2Fix : Nat :=
  0xb17217f7d1cf79abc9e3b39803f2f6af40f343267298b62d8a0d175b8baafa2be7b876206debac98559552fb4afa1b10ed2eae35c138214427573b291169b825
/-- log2 e in units of 2^-512. -/
def log2eFix : Nat :=
  0x171547652b82fe1777d0ffda0d23a7d11d6aef551bad2b4b1164a2cd9a342648fbc3887eeaa2ed9ac49b25eeb82d7c167d52173cc1895213f897f5e06a7be7366

/-- The sum of `z^(2i+1)/(2i+1)` in fixed point of `p` fraction bits: the series of artanh. -/
def atanhSum (p z2 : Nat) : Nat → Nat → Nat → Nat → Nat
  | 0, _, _, acc => acc
  | n + 1, t, k, acc => atanhSum p z2 n ((t * z2) >>> p) (k + 2) (acc + t / k)

/-- ln of `y / 2^p` for `1 ≤ y / 2^p < 2`, in units of `2^-p`. -/
def lnFix (p y : Nat) : Nat :=
  let z := ((y - 2 ^ p) <<< p) / (y + 2 ^ p)
  2 * atanhSum p ((z * z) >>> p) (p / 3 + 8) z 1 0

/-- `log2 (m * 2^e)` in units of 2^-192 (`m > 0`). -/
def log2Fix (m : Nat) (e : Int) : Int :=
  let k := m.log2
  let y := m <<< 200 >>> k
  (((lnFix 200 y * log2eFix) >>> 520 : Nat) : Int) + (e + k) * ((2 ^ 192 : Nat) : Int)

/-- Conversion modes into DLOG32 (02 R71). -/
inductive DMode where
  | direct
  | natural
  | factor
  deriving DecidableEq, Repr

/-- The code of the mode (07 R231, 13 R407). -/
def dmodeOf : Nat → Option DMode
  | 0 => some .direct | 1 => some .natural | 2 => some .factor | _ => none

/-- Places a rounded log `x` (units of 2^-24) as a DLOG32 code (02 R71). -/
def dlogPlace (x : Int) (ix : Bool) : Nat × Flags :=
  if x ≤ -(2 ^ 31 : Int) then (dlZero, fUF ||| fIX)
  else if (2 ^ 31 : Int) - 2 < x then (dlInvalid, fOF ||| fIX)
  else (unsgn 32 x, fIf ix fIX)

/-- Rounds the exact `m * 2^e` (signed) to an integer, ties to even, saturating far values at 2^40. -/
def rneInt (m : Int) (e : Int) : Int × Bool :=
  if m == 0 then (0, false)
  else if 40 < e + (bitLen m.natAbs : Int) then (if m < 0 then -(2 ^ 40 : Int) else 2 ^ 40, true)
  else
    let r := rneAt m.natAbs e 0
    (if m < 0 then -(r.1 : Int) else r.1, r.2)

/-- FP32 into DLOG32 in one of the three modes (02 R71). -/
def f32ToDlog (md : DMode) (c : Nat) : Nat × Flags :=
  match dec32 c with
  | .nan => (dlInvalid, fIf (snan32 c) fIV)
  | .inf s => if s && md != .factor then (dlZero, 0) else (dlInvalid, fIV)
  | .zero _ => if md == .factor then (dlZero, 0) else (0, 0)
  | .fin s m e =>
    match md with
    | .direct => let r := rneInt (if s then -(m : Int) else m) (e + 24); dlogPlace r.1 r.2
    | .natural =>
      let p : Int := (m * log2eFix : Nat)
      let r := rneInt (if s then -p else p) (e + 24 - 512); dlogPlace r.1 true
    | .factor =>
      if s then (dlInvalid, fIV)
      else if m == 2 ^ m.log2 then dlogPlace ((e + m.log2) * 2 ^ 24) false
      else dlogPlace (rneShift (log2Fix m e) 168).1 true

/-- The class and value of a decay accumulator turned into a factor (06 R187). -/
inductive Wide where
  | nan
  | zero
  | ord (lam : Int)
  deriving DecidableEq, Repr

/-- The 48-bit decay accumulator of 06 R186. -/
structure DecAcc where
  lam : Int
  zseen : Bool
  vseen : Bool
  sat : Bool
  deriving DecidableEq, Repr

/-- The empty accumulator. -/
def DecAcc.zero : DecAcc := ⟨0, false, false, false⟩

/-- Saturation of a 48-bit sum at -2^23 and 2^23 - 2^-24 (06 R186). -/
def satLam (x : Int) : Int := max (-(2 ^ 47 : Int)) (min x (2 ^ 47 - 1))

/-- Adds a DLOG32 value (06 R186). -/
def DecAcc.add (a : DecAcc) (x : Nat) : DecAcc :=
  if x == dlZero then { a with zseen := true }
  else if x == dlInvalid then { a with vseen := true }
  else
    let v := a.lam + sgn 32 x
    { a with lam := satLam v, sat := a.sat || decide (satLam v ≠ v) }

/-- The wide factor of an accumulator (06 R187). -/
def DecAcc.wide (a : DecAcc) : Wide := if a.vseen then .nan else if a.zseen then .zero else .ord a.lam

/-- What an application of a wide factor gives (06 R188): a value, or a decay-floor drop. -/
structure App where
  val : Nat
  flags : Flags
  drop : Bool
  deriving DecidableEq, Repr

/-- Applies a wide factor to `v`, fused with an addend `c` when given (an empty addend is `none`): the exact product, and the
addend with it, rounded once (06 R188). UF is never raised, and opposite infinities raise no flag (03 R96). -/
def applyWide (w : Wide) (v : Nat) (c : Option Nat) : App :=
  let quietAdd (p : Nat) (fl : Flags) : App :=
    match c with
    | none => ⟨p, fl, false⟩
    | some a => let r := faddQ p a; ⟨r.1, fl ||| (r.2 &&& ~~~ fUF), false⟩
  match w with
  | .nan => ⟨nan32, 0, false⟩
  | .zero => let r := fmul v 0; quietAdd r.1 r.2
  | .ord lam =>
    match dec32 v with
    | .fin s m e =>
      let n := lam / 2 ^ 24
      let t := dlogT ((lam % 2 ^ 24).toNat)
      let pm := t * m
      let pe := n - 23 + e
      if (bitLen pm : Int) + pe ≤ -149 then
        match c with
        | none => ⟨0, 0, true⟩
        | some a => ⟨a, 0, true⟩
      else
        let far := decide (300 < (bitLen pm : Int) + pe)
        match c.map dec32 with
        | some .nan => quietAdd 0 0
        | some (.inf g) => ⟨inf32 + sg32 g, 0, false⟩
        | some x =>
          if far then ⟨inf32 + sg32 s, fOF ||| fIX, false⟩
          else
            let p : Dy := ⟨if s then -(pm : Int) else pm, pe⟩
            let r := (p.add x.dy).to32
            ⟨r.1, r.2 &&& ~~~ fUF, false⟩
        | none =>
          if far then ⟨inf32 + sg32 s, fOF ||| fIX, false⟩
          else let r := enc32 s pm pe; ⟨r.1, r.2 &&& ~~~ fUF, false⟩
    | .nan => quietAdd nan32 0
    | _ => quietAdd v 0

end Sys2Proof.Machine
end

