-- ==== Sys2Proof/Machine/Conv.lean ====
section
/-! DEFINITION. Element formats, their positions and conversions through FP32 (02 R49-R56, R67-R82; 03 R89). -/
namespace Sys2Proof.Machine

/-- Element formats (02 R49). -/
inductive Fmt where
  | fp32 | fp16 | bf16 | e4m3 | e5m2 | log16 | log8 | dlog32 | int8 | int4 | int2 | int32 | log16x2 | log16x3 | cf32
  deriving DecidableEq, Repr

/-- Format of a 5-bit code; other codes are reserved (02 R49). -/
def fmtOf : Nat → Option Fmt
  | 0 => some .fp32 | 1 => some .fp16 | 2 => some .bf16 | 3 => some .e4m3 | 4 => some .e5m2
  | 5 => some .log16 | 6 => some .log8 | 7 => some .dlog32 | 8 => some .int8 | 9 => some .int4
  | 10 => some .int2 | 11 => some .int32 | 12 => some .log16x2 | 13 => some .log16x3 | 14 => some .cf32
  | _ => none

/-- Bits of one element in one plane (13 R409, 07 R237). -/
def Fmt.bits : Fmt → Nat
  | .fp32 => 32 | .fp16 => 16 | .bf16 => 16 | .e4m3 => 8 | .e5m2 => 8 | .log16 => 16 | .log8 => 8 | .dlog32 => 32
  | .int8 => 8 | .int4 => 4 | .int2 => 2 | .int32 => 32 | .log16x2 => 16 | .log16x3 => 16 | .cf32 => 64
/-- Planes of a tensor (02 R78). -/
def Fmt.planes : Fmt → Nat
  | .log16x2 => 2 | .log16x3 => 3 | _ => 1
/-- Integer formats. -/
def Fmt.isInt : Fmt → Bool
  | .int8 => true | .int4 => true | .int2 => true | .int32 => true | _ => false

/-- Array weight position (02 R50). -/
def Fmt.okWeight : Fmt → Bool
  | .dlog32 => false | .int32 => false | .cf32 => false | _ => true
/-- Array activation position (02 R50). -/
def Fmt.okAct : Fmt → Bool
  | .dlog32 => false | .int2 => false | .int32 => false | .cf32 => false | _ => true
/-- Array output position (02 R50). -/
def Fmt.okOut : Fmt → Bool
  | .dlog32 => false | .int4 => false | .int2 => false | .log16x2 => false | .log16x3 => false | _ => true
/-- Vector and function input (02 R50). -/
def Fmt.okVin : Fmt → Bool
  | .int2 => false | .log16x2 => false | .log16x3 => false | _ => true
/-- Vector and function output (02 R50). -/
def Fmt.okVout : Fmt → Bool
  | .int4 => false | .int2 => false | .int32 => false | .log16x2 => false | .log16x3 => false | .cf32 => false | _ => true
/-- Seam decay (02 R50). -/
def Fmt.okDecay : Fmt → Bool
  | .fp32 => true | .dlog32 => true | _ => false
/-- Seam state (02 R50). -/
def Fmt.okState : Fmt → Bool
  | .fp32 => true | .log16 => true | _ => false

/-- The IEEE-like format of a floating code. -/
def Fmt.ieee : Fmt → Ieee
  | .fp16 => ieee16 | .bf16 => ieeeBf | .e4m3 => ieeeE4 | .e5m2 => ieeeE5 | _ => ieee32

/-- A floating source as FP32, exact; a signalling NaN becomes canonical with IV (02 R67, 07 R227). -/
def ieeeTo32 (f : Ieee) (c : Nat) : Nat × Flags :=
  match f.dec c with
  | .nan => (nan32, fIf (f.isSnan c) fIV)
  | .inf s => (inf32 + sg32 s, 0)
  | .zero s => (sg32 s, 0)
  | .fin s m e => enc32 s m e

/-- A signed integer as FP32, rounded once (07 R227). -/
def intTo32 (x : Int) : Nat × Flags := Dy.to32 ⟨x, 0⟩

/-- FP32 to a floating format (02 R55, R67). -/
def f32ToIeee (f : Ieee) (sat : Bool) (c : Nat) : Nat × Flags :=
  match dec32 c with
  | .nan => (f.nanCode, fIf (snan32 c) fIV)
  | .inf s => if f.e4m3 then (if sat then 0x7E + f.sign s else 0x7F, fIV) else (f.infCode + f.sign s, 0)
  | .zero s => (f.sign s, 0)
  | .fin s m e => f.enc sat s m e

/-- The magnitude factor `g` of an output scale: the antilog of the negated log of `|σ|` (02 R72); 0 when `σ` is not finite
and non-zero. -/
def scaleInv (σ : Nat) : Nat :=
  match dec16 σ with
  | .fin _ l => (antilog false (-l)).1
  | _ => 0

/-- FP32 to an integer of `w` bits with a LOG16 output scale (02 R67, R72, R73). An infinity takes the limit on the side
of `x * g`, which is negated under a negative scale (DEDUCED, log 16). -/
def f32ToInt (w : Nat) (σ : Nat) (c : Nat) : Nat × Flags :=
  let neg := bit σ 15
  let hi : Int := 2 ^ (w - 1) - 1
  let lo : Int := -(2 ^ (w - 1))
  match dec32 c with
  | .nan => (0, fIV)
  | .inf s => (unsgn w (if s != neg then lo else hi), fIV)
  | .zero _ => (0, 0)
  | x =>
    let g := (dec32 (scaleInv σ)).dy
    let p := x.dy.mul g
    let r := rneInt (if neg then -p.m else p.m) p.e
    if hi < r.1 then (unsgn w hi, fOF ||| fIX)
    else if r.1 < lo then (unsgn w lo, fOF ||| fIX)
    else (unsgn w r.1, fIf r.2 fIX)

/-- FP32 rounding of a CF32 pair (03 R94); the pair's sum is in the low word of the element. -/
def cf32To32 (s e : Nat) : Nat × Flags :=
  match dec32 s, dec32 e with
  | .fin g m k, .fin h n l => ((Num.fin g m k).dy.add (Num.fin h n l).dy).to32
  | .fin .., .zero _ => (s, 0)
  | .zero _, .zero _ => (s, 0)
  | _, _ => faddQ s e

/-- A vector input element as FP32 (07 R227). `logMode` is the DLOG32 `LOG` mode; `sc` the LOG8 block scale. -/
def vin (f : Fmt) (logMode : Bool) (sc c : Nat) : Nat × Flags :=
  match f with
  | .log16 => log16To32 c
  | .log8 =>
    let a := log8To16 c sc
    let b := log16To32 a.1
    (b.1, a.2 ||| b.2)
  | .dlog32 => if logMode then dlogLog32 c else dlogTo32 c
  | .int8 => intTo32 (sgn 8 c)
  | .int4 => intTo32 (sgn 4 c)
  | .int2 => intTo32 (sgn 2 c)
  | .int32 => intTo32 (sgn 32 c)
  | .cf32 => cf32To32 (fld c 0 32) (fld c 32 32)
  | f => ieeeTo32 f.ieee c

/-- FP32 to an output element (02 R67, R72, R73; 07 R231). LOG8 gives its LOG16 value: the block is formed later (02 R62). -/
def vout (f : Fmt) (sat : Bool) (md : DMode) (σ : Nat) (x : Nat) : Nat × Flags :=
  match f with
  | .log16 => f32ToLog16 x
  | .log8 => f32ToLog16 x
  | .log16x2 => f32ToLog16 x
  | .log16x3 => f32ToLog16 x
  | .dlog32 => f32ToDlog md x
  | .int8 => f32ToInt 8 σ x
  | .int4 => f32ToInt 4 σ x
  | .int2 => f32ToInt 2 σ x
  | .int32 => f32ToInt 32 σ x
  | .cf32 => ieeeTo32 ieee32 x
  | f => if f == .fp32 then ieeeTo32 ieee32 x else f32ToIeee f.ieee sat x

/-- The three LOG16 pieces of an FP32 value (02 R78). Only the first piece's flags count. A first piece that is not finite
leaves the others +0 (02 R80). -/
def split3 (x : Nat) : (Nat × Nat × Nat) × Flags :=
  let p1 := f32ToLog16 x
  match dec16 p1.1 with
  | .nan => ((p1.1, 0, 0), p1.2)
  | .inf _ => ((p1.1, 0, 0), p1.2)
  | _ =>
    let r1 := (fsub x (log16To32 p1.1).1).1
    let p2 := (f32ToLog16 r1).1
    let r2 := (fsub r1 (log16To32 p2).1).1
    ((p1.1, p2, (f32ToLog16 r2).1), p1.2)

/-- Adds the logs of two LOG16 codes, with the special rules of products (02 R75, 03 R90). -/
def logAdd16 (a b : Nat) : Nat × Flags :=
  let s := (bit a 15) != (bit b 15)
  match dec16 a, dec16 b with
  | .nan, _ => (log16Nan, 0)
  | _, .nan => (log16Nan, 0)
  | .inf _, .zero _ => (log16Nan, fIV)
  | .zero _, .inf _ => (log16Nan, fIV)
  | .inf _, _ => (0x7FFF + sg16 s, 0)
  | _, .inf _ => (0x7FFF + sg16 s, 0)
  | .fin _ x, .fin _ y => enc16 s (x + y) fOF fUF
  | _, _ => (sg16 s, 0)

/-- An exact integer as LOG16 (02 R66); zero gives +0. -/
def intToLog16 (x : Int) : Nat × Flags :=
  if x == 0 then (0, 0) else toLog16 (.fin (decide (x < 0)) x.natAbs 0)

/-- An INT8 weight on the scale path: zero point and column scale (02 R76). A difference of 0 enters the product as the +0 that R76 gives
it, so the scale's sign and special values act on it by R75 (DEDUCED, log 35). -/
def scaleWeight (q z c : Nat) : Nat × Flags :=
  let a := intToLog16 (sgn 8 q - sgn 8 z)
  let b := logAdd16 a.1 c
  (b.1, a.2 ||| b.2)

/-- A weight on the table path: a table entry and an optional column scale (02 R74, R75). -/
def tableWeight (entry : Nat) (c : Option Nat) : Nat × Flags :=
  match c with
  | none => (entry, 0)
  | some c => logAdd16 entry c

end Sys2Proof.Machine
end

