-- ==== Sys2Proof/Machine/Flags.lean ====
section
/-! DEFINITION. Sums with special-state bits and the flags they raise; occurrences and locators' keys
(03 R93, R94, R96, R102; 04 R125-R129). -/
namespace Sys2Proof.Machine

/-- An accumulator group of F32 or CF32: emptiness, the special-state bits, the finite sum and its error word
(03 R93, 04 R130). An infinite or NaN term sets its bit and has no part in the finite sum, which goes on beside the bits until it
overflows (DEDUCED, log 15). -/
structure Acc where
  empty : Bool
  pinf : Bool
  ninf : Bool
  nan : Bool
  s : Nat
  e : Nat
  deriving DecidableEq, Repr

/-- The empty group (03 R85). -/
def Acc.none : Acc := ⟨true, false, false, false, 0, 0⟩
/-- A special outcome is already certain. -/
def Acc.special (a : Acc) : Bool := a.pinf || a.ninf || a.nan

/-- An FP32 term as a group (03 R93). -/
def Acc.ofTerm (x : Nat) : Acc :=
  match dec32 x with
  | .nan => ⟨false, false, false, true, 0, 0⟩
  | .inf false => ⟨false, true, false, false, 0, 0⟩
  | .inf true => ⟨false, false, true, false, 0, 0⟩
  | _ => ⟨false, false, false, false, x, 0⟩

/-- Merges the special bits of two groups with a new finite sum, an infinite one setting `PINF` or `NINF` by its sign (03 R93); the
error word is held at +0 beside a set bit (04 R128). -/
def Acc.join (a b : Acc) (s e : Nat) : Acc :=
  let p := a.pinf || b.pinf || s == inf32
  let n := a.ninf || b.ninf || s == inf32 + 0x80000000
  let x := a.nan || b.nan
  ⟨false, p, n, x, s, if p || n || x then 0 else e⟩

/-- The finite sum has overflowed and stops changing (03 R93); its word holds the infinity (DEDUCED, log 15). -/
def Acc.frozen (a : Acc) : Bool := isInf32 a.s

/-- The sum word of an addition and its flags: a frozen sum stays as it is (03 R93). -/
def sumWord (a b : Acc) : Nat × Flags :=
  if a.frozen then (a.s, 0) else if b.frozen then (b.s, 0) else fadd a.s b.s

/-- The F32 adder (04 R127). -/
def addF32 (a b : Acc) : Acc × Flags :=
  if a.empty then (b, 0) else if b.empty then (a, 0)
  else let r := sumWord a b; (a.join b r.1 0, r.2)

/-- The compensated adder of CF32 (04 R128): its IX comes from the error words alone, an overflow raises OF and IX. -/
def cadd (a b : Acc) : Acc × Flags :=
  if a.empty then (b, 0) else if b.empty then (a, 0)
  else
    let s := sumWord a b
    let j := a.join b s.1 0
    if j.special then (j, if s.2 &&& fOF == 0 then 0 else fOF ||| fIX)
    else
      let z := (fsub s.1 a.s).1
      let t := (fadd (fsub a.s (fsub s.1 z).1).1 (fsub b.s z).1).1
      let e1 := fadd a.e b.e
      let e2 := fadd e1.1 t
      (a.join b s.1 e2.1, (e1.2 ||| e2.2) &&& fIX)

/-- Accumulator formats of the log path (04 R124). -/
inductive AccFmt where
  | f32
  | cf32
  deriving DecidableEq, Repr

/-- The adder of a format (04 R125). -/
def addAcc : AccFmt → Acc → Acc → Acc × Flags
  | .f32 => addF32
  | .cf32 => cadd

/-- One level of the fixed tree: pairs added in order; a lone last element meets an empty leaf (04 R125). -/
def treeLevel (f : AccFmt) : List Acc → List Acc × Flags
  | a :: b :: t =>
    let r := addAcc f a b
    let u := treeLevel f t
    (r.1 :: u.1, r.2 ||| u.2)
  | l => (l, 0)

/-- The tree over a list of leaves, padded with empty leaves at its high end (04 R125); `fuel` bounds its levels. -/
def treeFuel (f : AccFmt) : Nat → List Acc → Flags → Acc × Flags
  | _, [], fl => (Acc.none, fl)
  | _, [a], fl => (a, fl)
  | 0, a :: _, fl => (a, fl)
  | n + 1, l, fl => let r := treeLevel f l; treeFuel f n r.1 (fl ||| r.2)

/-- The fixed binary tree of 04 R125. -/
def tree (f : AccFmt) (l : List Acc) : Acc × Flags := treeFuel f 64 l 0

/-- Outcome of a sum as FP32 (03 R93, R94): the special table, or the sum rounded from the pair. -/
def Acc.outcome (a : Acc) : Nat × Flags :=
  if a.empty then (0, 0)
  else if a.nan then (nan32, fIf (a.pinf && a.ninf) fIV)
  else if a.pinf && a.ninf then (nan32, fIV)
  else if a.pinf then (inf32, 0)
  else if a.ninf then (inf32 + 0x80000000, 0)
  else cf32To32 a.s a.e

/-- Outcome of a CF32 group written as CF32: normalised, exact (03 R94). -/
def Acc.outcomeCf (a : Acc) : (Nat × Nat) × Flags :=
  if a.empty || a.special then ((a.outcome.1, 0), a.outcome.2)
  else
    let r := cf32To32 a.s a.e
    if r.1 % 2 ^ 31 == inf32 then ((r.1, 0), r.2)
    else
      let d := ((dec32 a.s).dy.add (dec32 a.e).dy).add ⟨-(dec32 r.1).dy.m, (dec32 r.1).dy.e⟩
      ((r.1, d.to32.1), 0)

/-- `PINF` and `NINF` are both set: the sum is an IV (03 R93). -/
def Acc.clash (a : Acc) : Bool := a.pinf && a.ninf

/-- Applies a wide factor to the sum and error words of a pair, each rounded once; beside set special bits the finite sum is scaled and
the bits stay (06 R200, 08 R265; log 15). -/
def Acc.scale (a : Acc) (w : Wide) : Acc × Flags × Bool :=
  if a.empty then (a, 0, false)
  else if a.special then
    match w with
    | .ord _ =>
      if a.frozen then (a, 0, false)
      else let r := applyWide w a.s .none; (a.join a (if r.drop then 0 else r.val) 0, r.flags, false)
    | .zero => if a.nan then (a, 0, false) else ({ a with pinf := false, ninf := false, nan := true }, fIV, false)
    | .nan => ({ a with nan := true }, 0, false)
  else match w with
    | .nan => ({ a with nan := true, s := 0, e := 0 }, 0, false)
    | .zero => (⟨false, false, false, false, sg32 (bit a.s 31), 0⟩, 0, false)
    | .ord _ =>
      let r := applyWide w a.s .none
      if r.drop then (⟨false, false, false, false, 0, 0⟩, 0, true)
      else
        let q := applyWide w a.e .none
        (a.join a r.val (if q.drop then 0 else q.val), r.flags, false)

/-- Units that raise occurrences (03 R101). -/
inductive OUnit where
  | feeder | array | accum | output | seam | vector | sfu | reduce
  deriving DecidableEq, Repr

/-- The 3-bit code of a unit (03 R101). -/
def OUnit.code : OUnit → Nat
  | .feeder => 0 | .array => 1 | .accum => 2 | .output => 3 | .seam => 4 | .vector => 5 | .sfu => 6 | .reduce => 7

/-- The K-group of an operation without a reduction axis. -/
def noKgrp : Nat := 0xFFFFFFFF

/-- One operation that raised flags: which flags, in which unit and for which output element (03 R102). -/
structure Occ where
  fl : Flags
  unit : OUnit
  row : Nat
  col : Nat
  kgrp : Nat
  deriving DecidableEq, Repr

/-- What a piece of work reports: the OR of its flags, and its IV and OF occurrences (03 R98, R102). -/
structure Rep where
  fl : Flags
  occs : List Occ
  deriving DecidableEq, Repr

/-- Nothing to report. -/
def Rep.nil : Rep := ⟨0, []⟩
/-- One operation's report; only IV and OF are located (03 R101). -/
def Rep.of (fl : Flags) (u : OUnit) (row col kg : Nat) : Rep :=
  ⟨fl, if fl &&& (fIV ||| fOF) == 0 then [] else [⟨fl, u, row, col, kg⟩]⟩
/-- Two reports together. -/
def Rep.and (a b : Rep) : Rep := ⟨a.fl ||| b.fl, a.occs ++ b.occs⟩
/-- The reports of a list of pieces of work. -/
def Rep.all (l : List Rep) : Rep := l.foldl Rep.and Rep.nil

/-- `a` comes before `b` in (row, column, K-group) order (03 R102). -/
def Occ.lt (a b : Occ) : Bool :=
  decide (a.row < b.row) || (a.row == b.row && (decide (a.col < b.col) || (a.col == b.col && decide (a.kgrp < b.kgrp))))

end Sys2Proof.Machine
end

