-- ==== Sys2Proof/Machine/Sfu.lean ====
section
/-! DEFINITION. The special-function unit: native functions within their bounds, the Tsuron 2 set, loaded
micro-programs and their check (08 R238-R247, R270-R272). -/
namespace Sys2Proof.Machine

/-- `2^p * exp (t / 2^p)` by its series, for `0 ≤ t < 2^p`. -/
def expSum (p t : Nat) : Nat → Nat → Nat → Nat → Nat
  | 0, _, _, acc => acc
  | n + 1, k, term, acc =>
    let term' := ((term * t) >>> p) / k
    expSum p t n (k + 1) term' (acc + term')

/-- `e^x` for an exact `x`, as a significand near `2^p` and a power of two; beyond ±300 a power far outside FP32. -/
def expDy (p : Nat) (x : Dy) : Nat × Int :=
  if x.m == 0 then (2 ^ p, -p)
  else if 9 < (bitLen x.m.natAbs : Int) + x.e then (1, if x.m < 0 then -700 else 700)
  else
    let num : Int := x.m * (log2eFix : Int)
    let sh : Int := x.e - 512 + p
    let y : Int := if 0 ≤ sh then num * ((2 ^ sh.toNat : Nat) : Int) else num / ((2 ^ (-sh).toNat : Nat) : Int)
    let n := y / ((2 ^ p : Nat) : Int)
    let f := (y % ((2 ^ p : Nat) : Int)).toNat
    let t := (f * ln2Fix) >>> 512
    (expSum p t (p / 2) 1 (2 ^ p) (2 ^ p), n - p)

/-- `1 + E` and `E` over a common denominator, for `E = S * 2^k ≤ 1`: `(2^-k + S, S, 2^-k)`. -/
def onePlus (ek : Nat × Int) : Nat × Nat × Nat :=
  let d := 2 ^ (-ek.2).toNat
  (d + ek.1, ek.1, d)

/-- `(1 / √(2π))` in units of 2^-512. -/
def invSqrt2Pi : Nat :=
  0x662114cf50d942343f2cf1402eae38bfd3829f30512706d8c0471b4802639d2e9df8ac55447d3db723f5d3abb374e88deb14277970be1513278e993445f08cff

/-- The sum of `a^(2k+1) / (1·3·…·(2k+1))` in units of `2^-p`. -/
def phiSum (p a2 : Nat) : Nat → Nat → Nat → Nat → Nat
  | 0, _, _, acc => acc
  | n + 1, k, term, acc =>
    let term' := ((term * a2) >>> p) / (2 * k + 1)
    phiSum p a2 n (k + 1) term' (acc + term')

/-- The exact value of a native function on a finite non-zero argument, to about 2^-100, as sign, significand, exponent
(08 R243). `none` when the argument is in a special row. -/
def fnExact (code : Nat) (s : Bool) (m : Nat) (e : Int) : Option (Bool × Nat × Int) :=
  let sm : Int := if s then -(m : Int) else m
  let x : Dy := ⟨sm, e⟩
  let neg : Dy := ⟨-(m : Int), e⟩
  match code with
  | 1 => let r := expDy 160 x; some (false, r.1 * 4 + 1, r.2 - 2)
  | 2 =>
    if s then none else
    let l := log2Fix m e
    some (decide (l < 0), (l.natAbs * (ln2Fix >>> 256)) * 2 + 1, -192 - 256 - 1)
  | 3 => let q := quot 1 m (-e) 64; some (s, q.1, q.2)
  | 4 =>
    if s then none else
    let odd := e % 2
    let m' := if odd == 1 then 2 * m else m
    let e' := if odd == 1 then e - 1 else e
    some (false, 2 * rootBits 2 ((2 ^ 260) / m') 131 0 + 1, -e' / 2 - 131)
  | 5 =>
    let p := onePlus (expDy 160 neg)
    let q := quot (if s then p.2.1 else p.2.2) p.1 0 120
    some (false, q.1, q.2)
  | 6 =>
    if (bitLen m : Int) + e < -30 then
      let x2 := (rneAt (m * m) (2 * e) (-200)).1
      let q := quot (m * (3 * 2 ^ 200 - x2)) (3 * 2 ^ 200) e 120
      some (s, q.1, q.2)
    else
      let p := onePlus (expDy 160 ⟨-(2 * m : Nat), e⟩)
      let q := quot (p.2.2 - p.2.1) p.1 0 120
      some (s, q.1, q.2)
  | 7 =>
    let ek := expDy 160 neg
    let p := onePlus ek
    let l : Dy :=
      if (bitLen ek.1 : Int) + ek.2 < -60 then
        (Dy.mk ek.1 ek.2).add ⟨-((ek.1 * ek.1 : Nat) : Int), 2 * ek.2 - 1⟩
      else ⟨((log2Fix p.1 ek.2).natAbs * (ln2Fix >>> 256) : Nat), -448⟩
    let r := if s then l else x.add l
    some (false, r.m.natAbs * 2 + 1, r.e - 1)
  | 8 =>
    let p := onePlus (expDy 160 neg)
    let q := quot (m * (if s then p.2.1 else p.2.2)) p.1 e 120
    some (s, q.1, q.2)
  | 9 =>
    if 5 ≤ (bitLen m : Int) + e then some (s, if s then 1 else 2 * (m <<< 200) - 1, if s then -400 else e - 201)
    else
      let a := (rneAt m e (-480)).1
      let a2 := (a * a) >>> 480
      let ek := expDy 480 ⟨-((m * m : Nat) : Int), 2 * e - 1⟩
      let sum := phiSum 480 a2 900 1 a a
      let ph := (rneAt (ek.1 * (invSqrt2Pi >>> 32)) (ek.2 - 480) (-480)).1
      let half := 2 ^ 479
      let c := (ph * sum) >>> 480
      let phi := if s then half - c else half + c
      some (s, m * phi * 2 + 1, e - 481)
  | _ => none

/-- The bound of a native function in last places (08 R243). -/
def fnUlp : Nat → Nat
  | 1 => 1 | 2 => 1 | 3 => 0 | 4 => 1 | 5 => 2 | 6 => 2 | 7 => 2 | 8 => 3 | 9 => 4 | _ => 0

/-- The distance of `a` from `b` is at most `k * 2^q`. -/
def within (a b : Dy) (k : Nat) (q : Int) : Bool :=
  let d := a.add ⟨-b.m, b.e⟩
  !(Dy.lt ⟨k, q⟩ ⟨(d.m.natAbs : Int), d.e⟩)

/-- A native result on a finite non-zero argument: some value within the bound, whose unit is that of the exact result rounded
to FP32, tiny when that rounding without a least exponent is (08 R243, R245; 03 R96; DESIGN CHOICE, log 8). -/
def fnOrdinary (code arg : Nat) (s : Bool) (m : Nat) (e : Int) : Nat × Flags :=
  let r := enc32 s m e
  if r.1 % 2 ^ 31 == inf32 then (r.1, r.2 ||| fIX)
  else
    let q := e + bitLen m - 24
    let tiny := fIf ((bitLen (rneAt m e q).1 : Int) + q ≤ -126) fUF
    let unit := match dec32 r.1 with | .fin _ k l => lastPlace 24 (-149) k l | _ => -149
    let c := ofOrd32 (ord32 r.1 + Config.nativePick code arg)
    let ok := decide (c % 2 ^ 31 < inf32) && (c % 2 ^ 31 == 0 || bit c 31 == s) &&
      within (dec32 c).dy ⟨if s then -(m : Int) else m, e⟩ (fnUlp code) unit
    let z := if ok then (if c % 2 ^ 31 == 0 then sg32 s else c) else r.1
    (z, fIX ||| tiny)

/-- The inputs on which a native function returns its exact result (08 R245). -/
def fnExactCase (code : Nat) (s : Bool) (m : Nat) (e : Int) : Option Nat :=
  let k := e + m.log2
  let pow2 := m == 2 ^ m.log2
  match code with
  | 2 => if pow2 && k == 0 && !s then some 0 else none
  | 3 => if pow2 && decide (-126 ≤ -k) && decide (-k ≤ 127) then some (enc32 s 1 (-k)).1 else none
  | 4 => if pow2 && k % 2 == 0 && !s then some (enc32 false 1 (-k / 2)).1 else none
  | _ => none

/-- A native function on an FP32 value that is no signalling NaN (08 R243-R245). -/
def native (code x : Nat) : Nat × Flags :=
  match dec32 x with
  | .nan => (nan32, 0)
  | .zero s =>
    match code with
    | 0 => (x, 0)
    | 1 => (one32, 0)
    | 2 => (inf32 + 0x80000000, fDZ)
    | 3 => (inf32 + sg32 s, fDZ)
    | 4 => (inf32 + sg32 s, fDZ)
    | 5 => (0x3F000000, 0)
    | 7 => (0x3F317218, fIX)
    | _ => (x, 0)
  | .inf s =>
    match code with
    | 0 => (x, 0)
    | 1 => (if s then 0 else inf32, 0)
    | 2 => if s then (nan32, fIV) else (inf32, 0)
    | 3 => (sg32 s, 0)
    | 4 => if s then (nan32, fIV) else (0, 0)
    | 5 => (if s then 0 else one32, 0)
    | 6 => (one32 + sg32 s, 0)
    | 7 => (if s then 0 else inf32, 0)
    | _ => (if s then 0x80000000 else inf32, 0)
  | .fin s m e =>
    if code == 0 then (x, 0)
    else match fnExactCase code s m e with
    | some c => (c, 0)
    | none =>
      match fnExact code s m e with
      | none => (nan32, fIV)
      | some (g, n, k) => fnOrdinary code x g n k

/-- A Tsuron 2 function: the special rows are this chapter's (08 R271), an ordinary result is free (08 R270, DESIGN CHOICE, log 9). -/
def tsu2 (code x : Nat) : Nat × Flags :=
  let r := native code x
  match dec32 x with
  | .fin s m e =>
    if code == 0 || (s && (code == 2 || code == 4)) then r
    else match fnExactCase code s m e with
    | some c => (c, 0)
    | none =>
      let c := Config.tsu2Fn code x % 2 ^ 32
      if isNan32 c then (nan32, r.2) else (c, r.2)
  | _ => r

/-- One lane's registers while a micro-program runs (08 R238). A working register stands as 48 bits, so that a sum of logs is
exact up to the limits of 06 R186; every step but LADD reads its low word (DEDUCED, log 10). -/
structure LaneRegs where
  w : List Nat
  p : List Bool
  deriving DecidableEq, Repr

/-- The value of a source code (08 R240). -/
def stepSrc (r : LaneRegs) (x imm : Nat) (c : Nat) : Nat :=
  if c < 8 then r.w.getD c 0 % 2 ^ 32 else if c == 8 then x else if c == 9 then imm else 0
/-- The value of a source code as a log with 24 fractional bits (08 R240, DEDUCED, log 10). -/
def stepLog (r : LaneRegs) (x imm : Nat) (c : Nat) : Int :=
  if c < 8 then sgn 48 (r.w.getD c 0) else sgn 32 (stepSrc r x imm c)
/-- Writes a word to a working register. -/
def LaneRegs.put (r : LaneRegs) (i v : Nat) : LaneRegs := { r with w := r.w.set i (unsgn 48 (sgn 32 v)) }

/-- A comparison by its code (03 R86, 07 R225). -/
def compareBy (code a b : Nat) : Bool :=
  match code with
  | 8 => feqV a b
  | 9 => !feqV a b
  | 10 => fltV a b
  | 11 => fltV a b || feqV a b
  | 12 => fltV b a
  | 13 => fltV b a || feqV a b
  | _ => false

/-- Runs the steps of a loaded program: result and flags (08 R240, R241; readings DEDUCED, log 10). `tbl` is the bank's lookup
tables as words. -/
def runSteps (tbl : Nat → Nat → Nat) (x : Nat) : List Nat → LaneRegs → Nat × Flags
  | [], r => (r.w.getD 0 0 % 2 ^ 32, 0)
  | st :: rest, r =>
    let op := fld st 0 4
    let md := fld st 4 4
    let dst := fld st 8 4
    let imm := fld st 32 32
    let aux := fld st 24 8
    let a := stepSrc r x imm (fld st 12 4)
    let b := stepSrc r x imm (fld st 16 4)
    let c := stepSrc r x imm (fld st 20 4)
    match op with
    | 0 =>
      let fl := (List.range 5).foldl (fun (acc : Flags) f =>
        if bit aux f && r.p.getD f false then acc ||| BitVec.ofNat 5 (2 ^ f) else acc) 0
      let v := r.w.getD 0 0 % 2 ^ 32
      (if isNan32 v then nan32 else v, fl)
    | 1 => runSteps tbl x rest (r.put dst (tbl (aux % 16) (fld a (imm % 32) 8)))
    | 2 => runSteps tbl x rest (r.put dst (ffma a b c).1)
    | 3 =>
      let v := stepLog r x imm (fld st 12 4) + stepLog r x imm (fld st 16 4)
      runSteps tbl x rest { r with w := r.w.set dst (unsgn 48 (max (-(2 ^ 47 : Int)) (min v (2 ^ 47 - 1)))) }
    | 4 =>
      let v := match dec32 a with
        | .fin s m e => (enc32 s m (max (-2000) (min 2000 (e + sgn 32 b)))).1
        | _ => a
      runSteps tbl x rest (r.put dst v)
    | 5 => runSteps tbl x rest { r with p := r.p.set dst (compareBy md a b) }
    | 6 => runSteps tbl x rest (r.put dst (if r.p.getD (aux % 8) false then b else c))
    | 7 =>
      let p := (dec32 a).dy.mul (dec32 imm).dy
      let y := (rneInt p.m (p.e + 24)).1
      let n := (if p.e < 0 then p.m / ((2 ^ (-p.e).toNat : Nat) : Int) else p.m * ((2 ^ p.e.toNat : Nat) : Int))
      runSteps tbl x rest ((r.put dst (unsgn 32 n)).put (dst + 1) (unsgn 32 (y - n * 2 ^ 24)))
    | _ => runSteps tbl x rest r

/-- The source fields that an operation reads, as SRCA, SRCB and SRCC (08 R240). -/
def opSources : Nat → List Nat
  | 2 => [12, 16, 20]
  | 3 | 4 | 5 => [12, 16]
  | 6 => [16, 20]
  | 1 | 7 => [12]
  | _ => []

/-- A loaded program keeps the rules of 08 R241: at most 64 steps, `END` last and only last, a working register read only
after it is written, no reserved operation or source (DEDUCED, log 10). -/
def programOk (steps : List Nat) : Bool :=
  let rd (w : List Nat) (c : Nat) : Bool := (c < 8 && w.contains c) || c == 8 || c == 9 || c == 15
  let rec go : List Nat → List Nat → Bool
    | [], _ => false
    | st :: rest, w =>
      let op := fld st 0 4
      let dst := fld st 8 4
      let srcOk := (opSources op).all fun b => rd w (fld st b 4)
      if op == 0 then rest.isEmpty && w.contains 0
      else if op == 5 then srcOk && decide (dst < 8) && decide (8 ≤ fld st 4 4) && decide (fld st 4 4 ≤ 13) && go rest w
      else if op == 7 then srcOk && decide (dst < 7) && go rest (dst :: (dst + 1) :: w)
      else decide (op < 8) && srcOk && decide (dst < 8) && go rest (dst :: w)
  decide (0 < steps.length) && decide (steps.length ≤ 64) && go steps []

/-- A function bank: program words, table words and entry words (08 R238, 13 R421). -/
structure FnBank where
  step : Nat → Nat
  table : Nat → Nat → Nat
  entry : Nat → Nat

/-- The steps that an entry word names (13 R421). -/
def FnBank.program (b : FnBank) (c : Nat) : List Nat :=
  let w := b.entry c
  tab (fld w 9 7) fun i => b.step (fld w 0 9 + i)

/-- The code is a function that may run: native, or a loaded code whose entry word is not empty (08 R243). -/
def fnValid (b : FnBank) (code : Nat) : Bool :=
  decide (code ≤ 9) || (decide (0x10 ≤ code) && decide (code ≤ 0x1F) && bit (b.entry (code - 0x10)) 31)

/-- Evaluates a function code on an FP32 value (08 R243-R246, R270). -/
def evalFn (b : FnBank) (compat : Bool) (code x : Nat) : Nat × Flags :=
  if isNan32 x && code ≤ 9 then (nan32, 0)
  else if 0x10 ≤ code then
    runSteps b.table x (b.program (code - 0x10)) ⟨List.replicate 8 0, List.replicate 8 false⟩
  else if compat then tsu2 code x
  else native code x

end Sys2Proof.Machine
end

