-- ==== Sys2Proof/Machine/State.lean ====
section
/-! DEFINITION. The state of the block: every register, queue, memory, mode and pin of the specification as plain data. The
default of a field is its value after reset, stated by the cited rule, or named in log 4 (DESIGN CHOICE) where the specification gives none. -/
namespace Sys2Proof.Machine

/-- A sparse memory: cells in rising address order, none equal to the zero that an unlisted address reads as (DESIGN CHOICE, log 3). -/
abbrev Memory := List Host.Cell

/-- A memory with a poison mark on some of its units, in rising order (12 R387, 15 R487). -/
structure PMem where
  bytes : Memory := []
  poison : List Nat := []
  deriving DecidableEq, Repr

/-- Local time, lifecycle and reset inputs (00 R15; 18 `ENG_STATUS`; 15 R495-R497). -/
structure Life where
  lt : Nat := 0
  ready : Bool := false
  maint : Bool := true
  recovery : Bool := false
  selftestFail : Bool := false
  unfused : Bool := false
  rstLow : Bool := false
  refLost : Bool := false
  deriving DecidableEq, Repr

/-- One exception locator and the command that has claimed it (03 R101, R102). -/
structure Locator where
  cmd : Nat := 0
  src : Nat := 0
  row : Nat := 0
  col : Nat := 0
  kgrp : Nat := 0
  count : Nat := 0
  live : Bool := false
  deriving DecidableEq, Repr

/-- Sticky flags and locators (03 R99, R101). -/
structure FlagRegs where
  eng : Flags := 0
  iv : Locator := {}
  of : Locator := {}
  deriving DecidableEq, Repr

/-- One fault record (17 R540). -/
structure FaultRec where
  cls : Nat
  code : Nat
  core : Nat
  injected : Bool
  cmd : Nat
  lt : Nat
  detail : Nat
  aux : Nat
  deriving DecidableEq, Repr

/-- One violation-log entry (13 R441). -/
structure VlogRec where
  cmd : Nat
  cause : Nat
  aux : Nat
  lt : Nat
  deriving DecidableEq, Repr

/-- Fault records and the violation log (17 R540-R542, 13 R441, 15 R515). -/
structure FaultRegs where
  recs : Tab FaultRec := []
  next : Nat := 0
  wrapped : Bool := false
  lost : Nat := 0
  summary : Nat := 0
  suppressed : Nat := 0
  count : Tab Nat := []
  recent : List (Nat × Nat × Nat × Nat) := []
  vlog : Tab VlogRec := []
  vnext : Nat := 0
  vwrapped : Bool := false
  vlost : Nat := 0
  portRecent : List (Nat × Nat × Nat) := []
  deriving DecidableEq, Repr

/-- Event outputs (15 R504): the routing words and the LT at which each line's pulse ends, 0 for none. -/
structure EvtRegs where
  route : Tab Nat := []
  pulse : Tab Nat := []
  deriving DecidableEq, Repr

/-- One queue window (13 R397) and its `Q_START_AT` (16 R529); `size2` is `LOG2_SIZE` as written, `since` is the take number when the queue was last enabled
(13 R406), the last two count published commands that a cancel or a repeat covers (13 R438, 14 R475). -/
structure Queue where
  ring : Nat := 0
  cpl : Nat := 0
  save : Nat := 0
  size2 : Nat := 4
  abort : Bool := false
  noDl : Bool := false
  prio : Nat := 0
  enable : Bool := false
  head : Nat := 0
  tail : Nat := 0
  cplHead : Nat := 0
  cplTail : Nat := 0
  seq : Nat := 0
  startAt : Nat := 0
  since : Nat := 0
  cancelLeft : Nat := 0
  rollLeft : Nat := 0
  deriving DecidableEq, Repr

/-- The log2 of a queue's ring size: values below 4 act as 4, values above 15 as 15 (13 R397). -/
def Queue.log2 (k : Queue) : Nat := min 15 (max 4 k.size2)

/-- Where a write goes: T1, the state store of a core (RESIDENT copies), the page space of a sequence, or T1 where the bytes already
stand and only their transfer is to come (DESIGN CHOICE, log 6). -/
inductive Place where
  | t1
  | store (core : Nat)
  | paged (sid : Nat)
  | kept
  deriving DecidableEq, Repr

/-- A run of output bytes: where, from which address, the poison of each byte's element, the bits of an element, or 0 for scale bytes of
32 elements each, and how many bits of its first element lie before it (12 R379, R389). -/
structure Wr where
  place : Place
  addr : Nat
  data : List Byte
  poison : List Bool
  ebits : Nat
  phase : Nat
  deriving DecidableEq, Repr

/-- One transfer that an operand takes: the part of the command it is for, the core that fetches it, its T1-space address and length, and
whether it lands in the staging area of the state store (06 R195; 12 R377, R378). -/
structure Piece where
  unit : Nat
  core : Nat
  addr : Nat
  len : Nat
  stage : Bool
  deriving DecidableEq, Repr

/-- A unit that has landed in a core's T0 for an operand: from which address, its bytes, whether it is poisoned, and its place among
the core's landings (12 R387). -/
structure Landed where
  unit : Nat
  core : Nat
  addr : Nat
  data : List Byte
  bad : Bool
  place : Nat
  stage : Bool
  deriving DecidableEq, Repr

/-- A finished output tile that has not committed: its number, the committed index it carries, its writes, its report, its
poisoned elements, the counts its core adds, among them lane positions without work (01 R47), the chunk contributions it makes, the restarts and discarded K-groups of a program
entry's tile, the work it belongs to, and the work items that this tile starts with: their home cores and whether a thief may take them
(01 R34, R35; 03 R98, R104; 04 R139; 14 R458). -/
structure Tile where
  num : Nat
  index : Nat
  wr : List Wr
  rep : Rep
  poison : Nat
  core : Nat
  floor : Nat
  masked : Nat
  bubble : Nat
  result : Nat
  contrib : List (Nat × Nat × Bool)
  retry : Nat
  discard : Nat
  unit : Nat
  items : List (Nat × Bool)
  deriving DecidableEq, Repr

/-- Where a member of a STEP or ATTN stands: not yet issued, issued with its layers run and not committed, or ended. -/
inductive MPhase where
  | waiting
  | dry
  | issued
  | ended
  deriving DecidableEq, Repr

/-- One member of a STEP or ATTN (09 R300-R305, 10 R325-R331): what its layers have to report waits for its commit; `asked` says that its
operands' transfers are known (12 R381). -/
structure Member where
  sid : Nat
  phase : MPhase := .waiting
  outcome : Nat := 0
  pos : Nat := 0
  poison : Bool := false
  neap : Bool := false
  missed : Bool := false
  need : Nat := 0
  frames : List Nat := []
  descs : List Nat := []
  token : Bool := false
  core : Nat := 0
  rep : Rep := Rep.nil
  floor : Nat := 0
  masked : Nat := 0
  bad : Nat := 0
  asked : Bool := false
  deriving DecidableEq, Repr

/-- Where a taken command stands (13 R401, R426, R430, R549): held at a breakpoint, waiting for its order or resources,
running, or finished but for its record. -/
inductive Phase where
  | held
  | waiting
  | running
  | done
  deriving DecidableEq, Repr

/-- A taken and incomplete command (13 R400, R401). `fetched` holds the operands that have
landed, `ask` the transfers still to be issued once the command's operands are known, and `parts` all that its operands take (12 R377, R381).
`gaps` holds, of committed units that lie beyond the index to report, the number, the
index and the flags (03 R100; 13 R423). `drained` holds the LOG16 values of LOG8 blocks that still wait for a tile
(04 R569), by element; `ranks` the partial top-k lists by row, value, column and poison (04 R142); `spans` counts, for each sequence of a chunked SCAN,
the spans that have their carry, and `finals` holds the final states found (06 R207, R213);
`riseDry` marks a rise that finds no frame (10 R324); `neaps` and `kvWaits` list by sequence and page descriptor the pages served
from summaries, with the summary slot, and those whose fetch waits with a stream deadline (11 R366); `hold` the frames and descriptors that a writer has taken while
it waits for more (10 R327); `fences` the take numbers of the FENCEs that named a source of it when it was taken (12 R391), and `ahead` says that its
operands have been fetched ahead of its start (12 R381). -/
structure Job where
  q : Nat
  n : Nat
  take : Nat
  cmd : List Byte
  prio : Nat
  noDl : Bool
  abort : Bool
  deps : Nat
  phase : Phase
  status : Nat := 0
  fl : Flags := 0
  idx : Option Nat := none
  result : Nat := 0
  poison : Nat := 0
  missed : Bool := false
  injected : Bool := false
  vlogged : Bool := false
  tiles : List Tile := []
  total : Nat := 0
  finished : Nat := 0
  prefixed : Nat := 0
  gaps : List (Nat × Nat × Flags) := []
  wq : List (Nat × Wr) := []
  fetched : List Landed := []
  ask : Option (List Piece) := none
  parts : List Piece := []
  members : List Member := []
  slotWait : Bool := false
  dry : Bool := false
  tagWait : Bool := false
  waste : Nat := 0
  neap : Nat := 0
  stage : Nat := 0
  work : List Nat := []
  attempt : Nat := 0
  chunks : Nat := 0
  stepCmd : Bool := false
  fail : Option (Nat × Nat × Nat) := none
  drained : List (Nat × Nat × Bool) := []
  ranks : List (Nat × Nat × Nat × Bool) := []
  spans : List Nat := []
  finals : List (Nat × List (Nat × Bool)) := []
  riseDry : Bool := false
  neaps : List (Nat × Nat × Nat) := []
  kvWaits : List (Nat × Nat) := []
  hold : List Nat × List Nat := ([], [])
  fences : List Nat := []
  ahead : Bool := false
  deriving DecidableEq, Repr

/-- A work item on a deque: the command, its tile number, and whether a thief may take it (01 R34, R35). -/
structure Item where
  q : Nat
  n : Nat
  tile : Nat
  steal : Bool
  deriving DecidableEq, Repr

/-- An operand as the array takes it: three LOG16 pieces or an integer, the flags of its conversion and its poison. -/
structure Opd where
  p1 : Nat
  p2 : Nat
  p3 : Nat
  i : Int
  fl : Flags
  bad : Bool
  deriving DecidableEq, Repr

/-- One entry of a feeder queue: its 16 fields by lane, none where the valid bit is clear; a column entry of packed integers has a field
for each packed weight (05 R165). -/
abbrev FeedEntry := List (Option Opd)

/-- What a stationary bank holds: the item, tile and K-group that it was loaded for, the table epoch in force when the load began, and the
operands by output slot and reduction index, whose pieces are the three slots of a lane (05 R157, R162). -/
structure StayBlock where
  q : Nat
  n : Nat
  tile : Nat
  kg : Nat
  epoch : Nat
  ops : List (List (Option Opd))
  deriving DecidableEq, Repr

/-- The two stationary banks of the cells of one quadrant, or of the whole array; `onB` says that B is the active one (05 R157, R160). -/
structure Banks where
  onB : Bool := false
  a : Option StayBlock := none
  b : Option StayBlock := none
  deriving DecidableEq, Repr

/-- One accumulator group: a log-path group or an integer group with its saturation mark (04 R130, R136). -/
inductive Group where
  | log (a : Acc)
  | int (sat : Bool) (v : Int)
  deriving DecidableEq, Repr

/-- An open set: its tile, the next K-group and their number, the shift and restarts of integer work, whether a saturation
event stands, the groups of its outputs by row and then column, what it has to report, the poison of its output rows and
columns, and the register-file half that a shadow set lies in (04 R130-R139, R145; 12 R388). -/
structure OpenSet where
  tile : Nat
  kg : Nat
  nkg : Nat
  shift : Nat
  restarts : Nat
  satHit : Bool
  groups : List Group
  rep : Rep
  rowBad : List Bool
  colBad : List Bool
  half : Bool
  deriving DecidableEq, Repr

/-- A running item and its open sets: one, or one for each quadrant of Q16 that has a tile (05 R152). -/
structure Running where
  item : Item
  sets : List OpenSet
  deriving DecidableEq, Repr

/-- One core (01 R20, R21; 04 R132, R133; 05 R157, R165; 12 R392; 18 R563): deque from top to bottom, items held for it, the running item
whose sets accumulate, the finished sets that still drain with their items (one, or one for each quadrant of Q16), the items saved by
preemption with the half their image lies in, the stationary banks by quadrant, the row- and column-feeder queues, the half that the next
shadow set takes, and the window registers. -/
structure Core where
  deque : List Item := []
  held : List Item := []
  run : Option Running := none
  draining : List (Item × OpenSet) := []
  saved : List (Item × Bool) := []
  banks : Tab Banks := []
  rowQ : Tab (List FeedEntry) := []
  colQ : Tab (List FeedEntry) := []
  half : Bool := false
  idleSince : Nat := 0
  token : Option (Nat × Nat × Nat) := none
  sel : Nat := 0
  addr : Nat := 0
  ce : Bool := false
  ue : Bool := false
  bubble : Nat := 0
  scrubRow : Nat := 0
  scrubLt : Nat := 0
  deriving DecidableEq, Repr

/-- T0 (01 R21, 18 R563): scratchpad byte `b` of core `c` is at `c * 2^21 + b`, the state store follows at `+ 2^20`. `ue` are
the 64-bit words that are uncorrectable, `ce` those with one flipped bit (`128 * word + bit`), `inj` those an injection hit (12 R387, 17 R551). -/
structure T0Mem where
  bytes : Memory := []
  ue : List Nat := []
  ce : List Nat := []
  inj : List Nat := []
  deriving DecidableEq, Repr

/-- Table banks and their status (02 R74; 08 R238, R249-R255; 13 R421; 18 R560): one image per domain and bank, the same on
every core (DEDUCED, log 17). Bit 0 of an epoch count names the active bank. -/
structure Tables where
  dqA : Memory := []
  dqB : Memory := []
  sfuA : Memory := []
  sfuB : Memory := []
  dqEpoch : Nat := 0
  sfuEpoch : Nat := 0
  dqPend : Bool := false
  sfuPend : Bool := false
  sel : Nat := 0
  addr : Nat := 0
  deriving DecidableEq, Repr

/-- A slice of the weight round, or a piece of one: its number, the output columns and the reduction indices that it holds, each from the
first to before the last; without columns its valid bit is clear (01 R25, R47; 12 R395). -/
structure Slice where
  num : Nat
  c0 : Nat
  c1 : Nat
  k0 : Nat
  k1 : Nat
  deriving DecidableEq, Repr

/-- The weight round (01 R25-R30, 12 R394, R395): the rounds started, the command that the round serves, the place after its program entry and
which of the entry's column ranges; by core and ring the slice in the current and in the second buffer; the pieces that a conveyor has still to inject on each
ring; and the bytes of each core's scratchpad that the round's buffers take. -/
structure Ring where
  phase : Nat := 0
  active : Bool := false
  hop : Nat := 0
  hops : Nat := 0
  conveyor : Bool := false
  count : Nat := 0
  q : Nat := 0
  n : Nat := 0
  after : Nat := 0
  part : Nat := 0
  parts : Nat := 0
  curA : List (Option Slice) := []
  curB : List (Option Slice) := []
  nextA : List (Option Slice) := []
  nextB : List (Option Slice) := []
  feedA : List Slice := []
  feedB : List Slice := []
  claim : Nat := 0
  deriving DecidableEq, Repr

/-- A slot record (09 R276). -/
structure Slot where
  state : Nat := 0
  pin : Bool := false
  halt : Bool := false
  poison : Bool := false
  sel : Bool := false
  resid : Nat := 0
  owner : Nat := 0
  core : Nat := 0
  nchild : Nat := 0
  sid : Nat := 0
  pos : Nat := 0
  st0 : Nat := 0
  st1 : Nat := 0
  size : Nat := 0
  root : Nat := 0
  deadline : Nat := 0
  lastLt : Nat := 0
  parent : Nat := 0
  child : Nat := 0
  sibling : Nat := 0
  tag : Nat := 0
  deriving DecidableEq, Repr

/-- A family of sequences: its queue and the number of its members (10 R316). -/
structure Family where
  queue : Nat
  members : Nat
  deriving DecidableEq, Repr

/-- Slots and sequences (09 R273-R287; 18 slot registers). `sids` lists admitted SIDs in rising order; `moveTo` gives
for a slot in `MIGRATING` its new core and the places of its copies there, `transit` lists the slots that park or unpark, in the order begun
(09 R284). -/
structure Slots where
  recs : Tab Slot := []
  dirBase : Nat := 0
  sel : Nat := 0
  find : Nat := 0
  win : Option Slot := none
  waitLt : Nat := 0
  sids : List Nat := []
  fams : Tab Family := []
  moveTo : Tab (Nat × Nat × Nat) := []
  transit : List Nat := []
  deriving DecidableEq, Repr

/-- What a tag carries and on whose behalf (12 R378, R379, R393). -/
inductive TagFor where
  | fetch (q n unit : Nat)
  | write (q n : Nat)
  | kept (q n : Nat)
  | rise (d : Nat)
  | fall (d : Nat)
  | sunk
  deriving DecidableEq, Repr

/-- The channel of a transfer: a stream port, the shelf channel, or the aperture of a rank. -/
inductive Chan where
  | port (p : Nat)
  | shelf
  | aper (rank : Nat)
  deriving DecidableEq, Repr

/-- A transfer in flight (12 R378, R379; 15 R483-R486). `units` are the units of a read that have arrived; `bad` marks a read
whose units are discarded until its timeout; `sent` is false while it waits for a credit; `due` is the LT
at which it times out; `stage` marks a read that lands in the state store; `cls`, `prio`, `queue` and `seq` order the requests that wait, asked
for at `asked` (12 R384, R385). -/
structure Tag where
  gen : Nat
  write : Bool
  chan : Chan
  addr : Nat
  len : Nat
  data : List Byte
  punits : List Nat
  ebits : Nat
  phase : Nat
  due : Nat
  sent : Bool
  units : List (Nat × Bool × List Byte)
  bad : Bool
  use : TagFor
  stage : Bool
  cls : Nat
  prio : Nat
  queue : Nat
  seq : Nat
  asked : Nat
  deriving DecidableEq, Repr

/-- A fall in progress: page descriptor, shelf slot, summary slot, fold header, transfers not acknowledged, class, requester, and the transfers
that wait for tags (10 R320, 11 R353, R363, R372; 12 R378). -/
structure Fall where
  d : Nat
  slot : Nat
  summary : Option Nat
  header : List Byte
  left : Nat
  cls : Nat
  job : Option (Nat × Nat)
  todo : List Tag
  deriving DecidableEq, Repr

/-- A rise in progress: page descriptor, bytes landed, transfers outstanding, whether a response was poisoned or timed
out, class, requester, its core, and the transfers that wait for tags (10 R320, 11 R357, R372; 12 R378). -/
structure Rise where
  d : Nat
  body : List (Nat × List Byte)
  left : Nat
  poisoned : Bool
  timedOut : Bool
  cls : Nat
  job : Option (Nat × Nat)
  core : Nat
  todo : List Tag
  deriving DecidableEq, Repr

/-- The page system (10 R308-R332). `nodePages` lists the descriptors of node pages in rising order; `allot` holds the frames
and descriptors reserved for the STEP member whose layers are being run (10 R326), `cover` what has been rewritten of a page whose poison or
loss lasts until all of it is (10 R324; 11 R352). -/
structure Pages where
  descBase : Nat := 0
  descCount : Nat := 0
  frameBase : Nat := 0
  frameCount : Nat := 0
  listBase : Nat := 0
  perCore : Nat := 0
  free : Nat := 0
  descFree : Nat := 0
  resFree : Tab Nat := []
  clock : Nat := 0
  init : Bool := false
  nodePages : List Nat := []
  allot : Option (List Nat × List Nat) := none
  falls : List Fall := []
  rises : List Rise := []
  cover : Tab (List (Nat × Nat)) := []
  deriving DecidableEq, Repr

/-- Tier registers (11 tier register table); `reclaim` says that the background evictor works up to the high level (11 R371). -/
structure Tiers where
  maxFalls : Nat := 0
  lossyEn : Bool := false
  neapEn : Bool := false
  shelfEn : Bool := false
  shelfBase : Nat := 0
  shelfCount : Nat := 0
  shelfFree : Nat := 0
  sideBase : Nat := 0
  neapBase : Nat := 0
  neapSlots : Nat := 0
  neapFree : Nat := 0
  neapQ : Nat := 0
  lossyQ : Nat := 0
  margin : Nat := 0
  estLat : Nat := 600
  estRate : Nat := 9000
  freeLow : Nat := 0
  freeHigh : Nat := 0
  neapCount : Nat := 0
  neapSkip : Nat := 0
  foldErr : Nat := 0
  reclaim : Bool := false
  deriving DecidableEq, Repr

/-- Streams (12 stream registers, R378, R392; 15 R484, R489). Tags are keyed by `512 * core + tag`; `order` numbers the requests, and `place` and
`stage` count the units that have landed in each core's scratchpad and staging area. `cnt` holds the per-core counters by `16 * core + slot`, slot 0
the LT in which the core was not idle; `seen` is the LT that the counters cover. -/
structure Streams where
  ahead : Nat := 4
  timeout : Nat := 100000
  ageLimit : Nat := 1000
  wasteTotal : Nat := 0
  poisonTotal : Nat := 0
  timeouts : Nat := 0
  tags : Tab Tag := []
  gens : Tab Nat := []
  portReq : Tab Nat := []
  portData : Tab Nat := []
  linkCas : Nat := 0
  linkShelf : Nat := 0
  linkRx : Nat := 4096
  cnt : Tab Nat := []
  seen : Nat := 0
  freeze : Bool := false
  order : Nat := 0
  place : Tab Nat := []
  stage : Tab Nat := []
  deriving DecidableEq, Repr

/-- One barrier's generation (13 R429, 14 R453): the count that the first arrival set, the arrivals held, the number of the
generation since the last START, and whether ARRIVE was sent for it. -/
structure Barrier where
  count : Nat := 0
  cascade : Bool := false
  arrivals : List (Nat × Nat) := []
  gen : Nat := 0
  sent : Bool := false
  heard : List (Nat × Nat) := []
  deriving DecidableEq, Repr

/-- Semaphores and barriers (13 R428, R429). -/
structure Sync where
  sem : Tab Nat := []
  bars : Tab Barrier := []
  deriving DecidableEq, Repr

/-- One term of a chunk: per element absent or its wire value, its flags and poison, and the mode bits of the message that brought it
(14 R460, R463, R464, R469, R477). -/
structure Term where
  rank : Nat
  vals : List (Option Nat)
  fl : Flags
  poison : Bool
  mode : Nat := 0
  deriving DecidableEq, Repr

/-- A chunk of a bucket on this engine: the terms held, whether its sum has gone on, and whether its result has come
(14 R459-R461). -/
structure Chunk where
  tag : Nat
  num : Nat
  terms : List Term
  sent : Bool
  got : Bool := false
  deriving DecidableEq, Repr

/-- A bucket in flight on this engine: its command, its mode and how many chunks have no written result yet
(14 R456, R457). -/
structure Bucket where
  tag : Nat
  q : Nat
  n : Nat
  priv : Bool
  thin : Nat
  count : Nat
  left : Nat
  deriving DecidableEq, Repr

/-- The cascade (14 cascade registers, R442-R479). `inbox` is the receive buffer of the link's cascade channel while the engine cannot
act (15 R489, 16 R531); `nakked` the tags and attempts whose command a NAK has ended (14 R452). -/
structure Cascade where
  enable : Bool := false
  rank : Nat := 0
  size : Nat := 0
  fanin : Nat := 1
  state : Nat := 0
  joined : List (Nat × Nat) := []
  step : Nat := 0
  attempt : Nat := 0
  commitEn : Bool := false
  commitBar : Nat := 0
  window : Nat := 0
  repeatMax : Nat := 3
  qmask : Nat := 0
  semmask : Nat := 0
  btab : Nat := 0
  buf : Nat := 0
  stepMask : Nat := 0
  waitLt : Nat := 0
  repeatCount : Nat := 0
  dupCount : Nat := 0
  staleCount : Nat := 0
  aperBase : Nat := 0
  aperSize : Nat := 0
  pair : Tab Nat := []
  route : Tab Nat := []
  joinLt : Nat := 0
  buckets : List Bucket := []
  doneTags : List Nat := []
  privTags : List Nat := []
  staged : List (Nat × Nat × Nat × Bool) := []
  chunks : List Chunk := []
  abandoned : Bool := false
  credit : Nat := 0
  pendingUp : List Msg := []
  semSaved : Tab Nat := []
  base : Nat := 0
  consec : Nat := 0
  acks : List Nat := []
  resumed : Bool := true
  nakked : List (Nat × Nat) := []
  welcomed : Bool := false
  inbox : List Msg := []
  waiting : List (Nat × Nat × Msg) := []
  deriving DecidableEq, Repr

/-- Conditioned inputs (15 R498-R503): `level` as the engine sees them, `pins` as they stand at the pins (15 R513). -/
structure Inputs where
  pins : BitVec 4 := 0
  level : BitVec 4 := 0
  masked : BitVec 4 := 0
  stuck : BitVec 4 := 0
  halted : Bool := false
  throttle : Bool := false
  thermHalt : Bool := false
  coalesced : Nat := 0
  throttleLt : Nat := 0
  changeLt : Tab Nat := []
  wakeLt : Option Nat := none
  droopEnd : Nat := 0
  monHalt : List Nat := []
  deriving DecidableEq, Repr

/-- One operating point of `OPTABLE` (16 R519): VSET, guaranteed Mbeat/s, W. -/
structure OpPoint where
  vset : Nat
  rate : Nat
  power : Nat
  deriving DecidableEq, Repr

/-- A power transition in progress (16 R530, R535): to which state and when it completes. -/
structure PowerMove where
  wake : Bool
  dest : Nat
  done : Nat
  deriving DecidableEq, Repr

/-- Power, telemetry and the rail interface (16 power and telemetry registers; 15 R492, R493). `want` holds setpoints still
to be requested, `asking` the operating point that the handshake in progress asks for, `rails` the codes in force by rail,
`ackInj` that an injection took the rise of VACK, `vackPin` VACK as it stands at its pin (15 R513). -/
structure Power where
  stepdown : Bool := true
  deepest : Nat := 3
  opReq : Nat := 1
  state : Nat := 0
  op : Nat := 1
  opTarget : Nat := 1
  thermalLimit : Nat := 2
  budget : Nat := 1100
  tempLo : Nat := 90
  tempHi : Nat := 100
  wakeAt : Nat := 0
  barExpect : Nat := 0
  saveBase : Nat := 0
  est : Nat := 0
  scrubRate : Nat := 100
  scrubCe : Nat := 0
  scrubUe : Nat := 0
  scrubPass : Nat := 0
  lateWake : Nat := 0
  slow : Nat := 0
  energy : Nat := 0
  energyRem : Nat := 0
  res : Tab Nat := []
  resAcc : Tab Nat := []
  beat : Tab Nat := []
  temp : Tab Nat := []
  optable : List OpPoint := [⟨48, 2400, 640⟩, ⟨88, 3200, 1100⟩, ⟨120, 3600, 1500⟩]
  lastStep : Option Nat := none
  loSince : Option Nat := none
  telLt : Nat := 0
  vsel : Nat := 0
  vset : Nat := 0
  vreq : Bool := false
  vack : Bool := false
  vackPin : Bool := false
  ackInj : Bool := false
  asking : Option Nat := none
  hsLt : Nat := 0
  late : Bool := false
  want : List (Nat × Nat) := [(1, 100), (0, 88)]
  rails : Tab Nat := []
  move : Option PowerMove := none
  heldAcc : List (Bool × Nat × Nat) := []
  stayAwake : Bool := false
  deriving DecidableEq, Repr

/-- The fuses (16 R518; 17 R546; 18 fuse registers). -/
structure Fuses where
  digest : Nat := 0
  key : Nat := 0
  debugEn : Bool := false
  uid : Nat := 0
  deriving DecidableEq, Repr

/-- Boot and image state (15 R507-R509; 16 R516-R520; 18 `ENG_CONFIG`). `hash` is the digest of the
bytes that arrived. -/
structure Boot where
  readCmd : Nat := 0
  sfdpOk : Bool := false
  addr4 : Bool := false
  sck : Nat := 0
  reread : Bool := false
  error : Nat := 0
  phase : Nat := 0
  bytes : Nat := 0
  hash : Nat := 0
  revision : Nat := 0
  tsu2 : Bool := false
  deriving DecidableEq, Repr

/-- One armed injection (17 R551): kind and arguments. -/
structure Inject where
  kind : Nat
  a : Nat
  b : Nat
  c : Nat
  deriving DecidableEq, Repr

/-- UART and monitor (15 R510, R511; 17 R544-R551). `line` and `lineLt` hold the line being received; `req` is a checked
request that waits for its command: sequence number and words; `baud` how many bytes of `tx` its answer still has and its divisor. -/
structure Monitor where
  div : Nat := 868
  divNext : Option Nat := none
  frameErr : Nat := 0
  overrun : Nat := 0
  fifo : List Byte := []
  line : List Byte := []
  lineLt : Nat := 0
  req : Option (Nat × List (List Byte)) := none
  lastSeq : Option Nat := none
  lastAns : List Byte := []
  tx : List Byte := []
  nonce : Option (Nat × Nat) := none
  wrong : Nat := 0
  unlocked : Bool := false
  bp : Tab Nat := []
  bpHit : Bool := false
  bpIndex : Nat := 0
  trBase : Nat := 0
  trSize : Nat := 0
  trNext : Nat := 0
  trDrop : Nat := 0
  trMask : Nat := 0
  trWrap : Bool := false
  trOn : Bool := false
  trFull : Bool := false
  inj : List Inject := []
  baud : Option (Nat × Nat) := none
  deriving DecidableEq, Repr

/-- The test access port (15 R512, R513): instruction, boundary update stage, and what TDO last captured. -/
structure Tap where
  ir : Nat := 2
  update : Nat := 0
  tdo : Nat := 0
  deriving DecidableEq, Repr

/-- Words staged and captured for 64-bit registers (00 R16), and the answers given to the control port, oldest first. -/
structure Ctl where
  staged : Tab Nat := []
  captured : Tab Nat := []
  answers : List Word := []
  deriving DecidableEq, Repr

/-- The state of the engine. `turns` is for each priority the queue whose command was placed last (13 R403; DESIGN CHOICE, log 5); `sent` lists the
link messages sent, oldest first; `fresh` is the model's own counter of free
values used (DESIGN CHOICE, log 14); `pending` the commands that wait, first in first out. -/
structure State where
  life : Life := {}
  flg : FlagRegs := {}
  flt : FaultRegs := {}
  evt : EvtRegs := {}
  qs : Tab Queue := []
  jobs : List Job := []
  takeNo : Nat := 0
  turns : Tab Nat := []
  cores : Tab Core := []
  t0 : T0Mem := {}
  t1 : PMem := {}
  shelf : PMem := {}
  tbl : Tables := {}
  ring : Ring := {}
  slots : Slots := {}
  pg : Pages := {}
  tier : Tiers := {}
  str : Streams := {}
  sync : Sync := {}
  cas : Cascade := {}
  inp : Inputs := {}
  pwr : Power := {}
  fuse : Fuses := {}
  boot : Boot := {}
  mon : Monitor := {}
  tap : Tap := {}
  ctl : Ctl := {}
  sent : List Msg := []
  fresh : Nat := 0
  pending : List Instr := []
  deriving DecidableEq, Repr

/-- Why a step stops with a fault. No meaning of this model raises one: every act of the specification on this block leaves
a next state (DEDUCED, log 2). -/
inductive Fault where
  /-- Raised by nothing; safe. -/
  | unreachable
  deriving DecidableEq, Repr

/-- Why a step gives no meaning. -/
inductive Refusal where
  /-- Raised by an arm of `exec` whose command has no meaning yet; safe. -/
  | notModelled (mnemonic : String)
  deriving DecidableEq, Repr

/-- The block right after the release of RST_N (15 R496): the defaults above. -/
def State.reset : State := {}

end Sys2Proof.Machine
end

