-- ==== Sys2Proof/Machine/Mem.lean ====
section
/-! DEFINITION. Sparse memories in canonical form, poison of 64-byte units, and T0 (11 R343; 12 R387, R389; 15 R487). -/
namespace Sys2Proof.Machine

/-- Cells strictly rising from `lo` on, none zero: the canonical form (DESIGN CHOICE, log 3). -/
def Memory.wfFrom : Memory → Nat → Bool
  | [], _ => true
  | (a, b) :: m, lo => decide (lo ≤ a) && b != 0 && Memory.wfFrom m (a + 1)

/-- The canonical form of a memory. -/
def Memory.wf (m : Memory) : Bool := m.wfFrom 0

/-- The byte at `a`; an unlisted address reads 0 (DESIGN CHOICE, log 3). -/
def Memory.get : Memory → Nat → Byte
  | [], _ => 0
  | (k, b) :: m, a => if k = a then b else Memory.get m a

/-- `n` bytes from `a`, walking the cells once. -/
def Memory.fill : Memory → Nat → Nat → List Byte
  | [], _, n => List.replicate n 0
  | (k, b) :: m, a, n =>
    if k < a then Memory.fill m a n
    else if a + n ≤ k then List.replicate n 0
    else List.replicate (k - a) 0 ++ b :: Memory.fill m (k + 1) (a + n - (k + 1))

/-- The bytes at `a` to `a + n - 1`. -/
def Memory.read (m : Memory) (a n : Nat) : List Byte := m.fill a n

/-- The cells of a run of bytes: the zero bytes are left out. -/
def cellsOf : Nat → List Byte → Memory
  | _, [] => []
  | a, b :: bs => if b = 0 then cellsOf (a + 1) bs else (a, b) :: cellsOf (a + 1) bs

/-- `m` with the bytes `bs` written at `a`. -/
def Memory.write (m : Memory) (a : Nat) (bs : List Byte) : Memory :=
  (m.filter fun c => decide (c.1 < a)) ++ cellsOf a bs ++ (m.filter fun c => decide (a + bs.length ≤ c.1))

/-- `m` with `n` zero bytes written at `a`. -/
def Memory.zero (m : Memory) (a n : Nat) : Memory := m.filter fun c => decide (c.1 < a) || decide (a + n ≤ c.1)

/-- The number in the `n` bytes at `a`, little-endian. -/
def Memory.num (m : Memory) (a n : Nat) : Nat := ofLe (m.read a n)

/-- A rising list of numbers with `k` added. -/
def insNat (k : Nat) : List Nat → List Nat
  | [] => [k]
  | a :: l => if k < a then k :: a :: l else if k = a then a :: l else a :: insNat k l

/-- The bytes at `a`, a poisoned unit landing as zero bytes, with the poison of each byte (12 R387). -/
def PMem.fetch (m : PMem) (a n : Nat) : List Byte × List Bool :=
  let p := tab n fun i => m.poison.contains ((a + i) / 64)
  (((m.bytes.read a n).zip p).map fun x => if x.2 then 0 else x.1, p)

/-- Some byte of the range lies in a poisoned unit. -/
def PMem.anyPoison (m : PMem) (a n : Nat) : Bool :=
  m.poison.any fun u => decide (a < 64 * (u + 1)) && decide (64 * u < a + n)

/-- The poison list after a write of bytes `a` to `a + n - 1`, whose poisoned units are `ps`: a poisoned unit is set, a unit
written in full and clean is cleared, a part of a unit leaves it (15 R487). -/
def poisonAfter (old : List Nat) (a n : Nat) (ps : List Nat) : List Nat :=
  let kept := old.filter fun u => !(decide (a ≤ 64 * u) && decide (64 * (u + 1) ≤ a + n)) || ps.contains u
  ps.foldl (fun l u => insNat u l) kept

/-- Writes bytes with the poison of given units (15 R487). -/
def PMem.store (m : PMem) (a : Nat) (bs : List Byte) (ps : List Nat) : PMem :=
  ⟨m.bytes.write a bs, poisonAfter m.poison a bs.length ps⟩

/-- The 64-byte units of a run in which some byte is poisoned (12 R389). -/
def unitsOf (a : Nat) (p : List Bool) : List Nat :=
  (p.zipIdx.filterMap fun x => if x.1 then some ((a + x.2) / 64) else none).eraseDups

/-- A clean write of plain bytes. -/
def PMem.put (m : PMem) (a : Nat) (bs : List Byte) : PMem := m.store a bs []

/-- A range written as zero bytes, clean. -/
def PMem.clear (m : PMem) (a n : Nat) : PMem :=
  ⟨m.bytes.zero a n, m.poison.filter fun u => !(decide (a ≤ 64 * u) && decide (64 * (u + 1) ≤ a + n))⟩

/-- The T0 address of a byte of core `c`: region 0 the scratchpad, 1 the state store. -/
def t0Addr (c region off : Nat) : Nat := c * 2 ^ 21 + (region % 2) * 2 ^ 20 + off % 2 ^ 20

/-- The bytes of T0 from `a`, an uncorrectable word reading as zero, with the poison of each byte (12 R387). -/
def T0Mem.fetch (m : T0Mem) (a n : Nat) : List Byte × List Bool :=
  let p := tab n fun i => m.ue.contains ((a + i) / 8)
  (((m.bytes.read a n).zip p).map fun x => if x.2 then 0 else x.1, p)

/-- Writes bytes to T0. A word with a poisoned byte gets the poison check pattern; a word written in full gets fresh check
bits; part of a word leaves its pattern (12 R387, R389). -/
def T0Mem.store (m : T0Mem) (a : Nat) (bs : List Byte) (p : List Bool) : T0Mem :=
  let ps := (p.zipIdx.filterMap fun x => if x.1 then some ((a + x.2) / 8) else none).eraseDups
  let full (w : Nat) : Bool := decide (a ≤ 8 * w) && decide (8 * (w + 1) ≤ a + bs.length)
  ⟨m.bytes.write a bs, ps.foldl (fun l u => insNat u l) (m.ue.filter fun w => !full w || ps.contains w),
   m.ce.filter fun w => !full (w / 128), m.inj.filter fun w => !full w⟩

end Sys2Proof.Machine
end

