-- ==== Sys2Proof/Machine/Ops.lean ====
section
/-! DEFINITION. The operations every family shares: time, logs, events, taken commands and their end. -/
namespace Sys2Proof.Machine

/-! ### Local time -/

/-- No item on the core's deque, none held for it, none running and none draining: the core has no work (16 R528). -/
def Core.idle (c : Core) : Bool := c.deque.isEmpty && c.held.isEmpty && c.run.isNone && c.draining.isEmpty

/-- Held items enter a deque as entries free (01 R34). -/
def Core.refill (k : Core) : Core :=
  let n := 64 - k.deque.length
  { k with deque := (k.held.take n).reverse ++ k.deque, held := k.held.drop n }

/-- The core `c`. -/
def State.core (s : State) (c : Nat) : Core := s.cores.get c {}
/-- `s` with core `c` changed. -/
def State.setCore (s : State) (c : Nat) (k : Core) : State := { s with cores := s.cores.put c k }
/-- An item goes to the top of the deque of its home core `c`, or is held while the deque is full (01 R34; DESIGN CHOICE, log 21). -/
def placeItem (s : State) (c : Nat) (it : Item) : State :=
  let k := s.core c
  s.setCore c (if k.deque.length < 64 then { k with deque := it :: k.deque } else { k with held := k.held ++ [it] })

/-- An item leaves a core's deque. -/
def Core.without (k : Core) (it : Item) : Core := { k with deque := k.deque.erase it }.refill

/-- The queue `q`. -/
def State.queue (s : State) (q : Nat) : Queue := s.qs.get q {}
/-- `s` with queue `q` changed. -/
def State.setQueue (s : State) (q : Nat) (k : Queue) : State := { s with qs := s.qs.put q k }

/-- Every core is in S1 (16 R528). -/
def State.allIdle (s : State) : Bool := s.cores.all fun p => p.2.idle

/-- The opcode of a taken command (13 R404). -/
def Job.op (j : Job) : Nat := fld (j.cmd.headD 0).toNat 0 6
/-- Header flags (13 R404). -/
def Job.hflags (j : Job) : Nat := (j.cmd.getD 1 0).toNat
/-- The number in `n` bytes of the command at offset `o`. -/
def Job.num (j : Job) (o n : Nat) : Nat := ofLe ((j.cmd.drop o).take n)
/-- Body word of 8 bytes at body offset `o` (13 R412). -/
def Job.body (j : Job) (o : Nat) : Nat := j.num (0x10 + o) 8
/-- The header deadline, 0 for none; ignored on a queue without deadlines (13 R404, R433). -/
def Job.deadline (j : Job) : Nat := if j.noDl then 0 else j.num 8 8
/-- `COMPAT` (13 R404). -/
def Job.compat (j : Job) : Bool := bit j.hflags 0
/-- `SHADOW` (13 R404). -/
def Job.shadow (j : Job) : Bool := bit j.hflags 1

/-- The ADMIT and FORK commands that wait for slots (09 R288). -/
def State.slotWaiters (s : State) : Nat :=
  (s.jobs.filter fun j => j.slotWait && (j.op == 0x20 || j.op == 0x22)).length
/-- The commands that wait at issue for a bucket tag (14 R457). -/
def State.tagWaiters (s : State) : Nat := (s.jobs.filter fun j => j.tagWait).length

/-- The residency counter in force: S0, S1 when every core is in S1, or the engine state (16 R539). -/
def State.resIndex (s : State) : Nat := if s.pwr.state == 0 && s.allIdle then 1 else s.pwr.state

/-! ### Stalls (12 R391, R392) -/

/-- The core that a command's own transfers use when no item of it has a core yet. -/
def Job.core (j : Job) : Nat := j.n % Config.cores
/-- The home core of a part of a command. -/
def Job.home (j : Job) (u : Nat) : Nat := match j.parts.find? fun p => p.unit == u with | some p => p.core | none => j.core
/-- The opcode of a job is one that waits at the head of its queue: WAIT or BARRIER (13 R428). -/
def Job.blocks (j : Job) : Bool := j.op == 0x33 || j.op == 0x31
/-- No command behind an incomplete WAIT or BARRIER of its queue starts (13 R428). -/
def State.behind (s : State) (j : Job) : Bool :=
  s.jobs.any fun k => k.q == j.q && decide (k.take < j.take) && k.blocks && k.phase != .done

/-- The part that stands for slice or piece `i` of round number `round`, above every other part (12 R394, R395). -/
def ringUnit (round i : Nat) : Nat := 2 ^ 40 * round + i
/-- The round in progress waits for a slice or piece: all slices before the first hop, and each next piece of a conveyor. -/
def Ring.wants (r : Ring) (u : Nat) : Bool :=
  r.active && u / 2 ^ 40 == r.count &&
    (if r.conveyor then (r.feedA.take 1 ++ r.feedB.take 1).any fun p => p.num == u % 2 ^ 40 else r.hop == 0)

/-- What a command still waits to fetch: the core, and the cause that a consumer waits with. -/
def State.fetchStalls (s : State) (j : Job) : List (Nat × Nat) :=
  let late (c u k : Nat) : Option (Nat × Nat) :=
    if u < 2 ^ 40 then some (c, if c == j.home u then k else 5) else if s.ring.wants u then some (c, k) else none
  (j.ask.getD []).filterMap (fun p => late p.core p.unit 6) ++
    s.str.tags.filterMap (fun t => match t.2.use with
      | .fetch q n u => if q == j.q && n == j.n then late (t.1 / 512) u 7 else none
      | _ => none) ++
    (s.pg.rises.filter fun r => r.job == some (j.q, j.n)).map fun r => (r.core, 7)

/-- The idle cores of the sequences of a command that waits for slots (09 R288). -/
def State.waitCores (s : State) (j : Job) : List Nat :=
  let sids := (j.members.filter fun m => m.phase != .ended).map Member.sid
  ((s.slots.recs.filter fun p => sids.contains p.2.sid).map fun p => p.2.core).filter fun c => (s.core c).idle

/-- The own-chunk slots in use (14 R459). -/
def ownSlots (s : State) : Nat :=
  (s.cas.chunks.filter fun c => !c.sent && c.terms.any fun t => t.rank == s.cas.rank).length
/-- A tile's chunk finds no free slot of the reduction unit (14 R459). -/
def slotsFull (s : State) (t : Tile) : Bool := !t.contrib.isEmpty && decide (256 ≤ ownSlots s)

/-- The cores on which a command stalls, each with its causes (12 R391; which core counts for a command that has not started is a DESIGN
CHOICE, log 11). -/
def State.jobStalls (s : State) (j : Job) : List (Nat × Nat) :=
  let slot := if j.slotWait && [0x09, 0x0A, 0x08].contains j.op then (s.waitCores j).map fun c => (c, 1) else []
  match j.phase with
  | .done => []
  | .running =>
    slot ++ (j.members.filter fun m => m.phase == .dry).map (fun m => (m.core, 4)) ++
      (if j.dry then (j.tiles.take 1).map fun t => (t.core, 4) else []) ++
      ((j.tiles.take 1).filter (slotsFull s)).map (fun t => (t.core, 9)) ++ j.wq.map (fun w => (w.1, 6)) ++ s.fetchStalls j
  | _ =>
    slot ++ (if s.behind j then [(j.core, 2)] else []) ++
      (if j.deps != 0 || s.jobs.any (fun k => j.fences.contains k.take && k.phase != .done) then [(j.core, 3)] else []) ++
      (if j.dry || j.riseDry then [(j.core, 4)] else []) ++ s.fetchStalls j

/-- The causes with which the units of each core stall: for each command there the lowest (12 R391). -/
def State.stalls (s : State) : List (Nat × Nat) :=
  (s.jobs.flatMap fun j =>
    let l := s.jobStalls j
    (l.map Prod.fst).eraseDups.map fun c => (c, (l.filter fun p => p.1 == c).foldl (fun m p => min m p.2) 9)).eraseDups

/-- Stall and idle time passes: a core is idle when it has no work and stalls with nothing (12 R391, R392). -/
def stallTime (s : State) (d : Nat) : Streams :=
  if s.str.freeze then s.str
  else
    let st := s.stalls
    let busy := ((s.cores.filter fun p => !p.2.idle).map Prod.fst ++ st.map Prod.fst).eraseDups
    let add (t : Tab Nat) (k : Nat) : Tab Nat := t.put k (add64 (t.get k 0) d)
    { s.str with
      seen := add64 s.str.seen d
      cnt := st.foldl (fun t p => add t (16 * p.1 + p.2)) (busy.foldl (fun t c => add t (16 * c)) s.str.cnt) }

/-- A per-core counter (12 R392). -/
def State.counter (s : State) (core slot : Nat) : Nat :=
  let v := s.str.cnt.get (16 * core + slot) 0
  if slot == 0 then s.str.seen - v else v

/-- `d` units of local time pass, with the counts that grow by time (00 R15; 09 R288; 12 R391; 14 R457; 15 R502; 16 R539). -/
def passTime (s : State) (d : Nat) : State :=
  { s with
    life := { s.life with lt := add64 s.life.lt d }
    inp := { s.inp with throttleLt := if s.inp.throttle then add64 s.inp.throttleLt d else s.inp.throttleLt }
    slots := { s.slots with waitLt := if s.str.freeze then s.slots.waitLt else add64 s.slots.waitLt (d * s.slotWaiters) }
    cas := { s.cas with waitLt := add64 s.cas.waitLt (d * s.tagWaiters) }
    str := stallTime s d
    pwr := { s.pwr with resAcc := s.pwr.resAcc.put s.resIndex (s.pwr.resAcc.get s.resIndex 0 + d) } }

/-- Local time moves on to `lt`; it never goes back, and holds while REF_OSC is lost and in reset (15 R495, R496). -/
def advance (s : State) (lt : Dword) : State :=
  if s.life.refLost || s.life.rstLow then s else passTime s (lt.toNat - s.life.lt)

/-- One unit of local time passes (DESIGN CHOICE, log 1). -/
def tick (s : State) : State := if s.life.refLost || s.life.rstLow then s else passTime s 1

/-! ### Trace, events, logs and faults -/

/-- The layout of `LOC_x_CMD` for a command (03 R101). -/
def locCmd (op q n : Nat) : Nat := 2 ^ 31 + (op % 64) <<< 24 + (q % 64) <<< 16 + n % 2 ^ 16
/-- The command word of a taken command. -/
def Job.loc (j : Job) : Nat := locCmd j.op j.q j.n

/-- Writes one trace entry when capture is on and its class is in the mask (17 R550). -/
def trace (s : State) (code cls core q n op arg : Nat) : State :=
  let m := s.mon
  if m.trOn && bit m.trMask cls then
    let e := leBytes 6 s.life.lt ++ leBytes 1 code ++ leBytes 1 core ++ leBytes 2 n ++ leBytes 1 q ++ leBytes 1 op ++
      leBytes 4 arg
    let nx := m.trNext + 16
    let full := decide (m.trSize ≤ nx)
    { s with
      t1 := s.t1.put (m.trBase + m.trNext) e
      mon := { m with
        trNext := if full then (if m.trWrap then 0 else m.trNext + 16) else nx
        trOn := !(full && !m.trWrap)
        trFull := m.trFull || (full && !m.trWrap) } }
  else s

/-- A pulse of an event source: each line routed to it in pulse or level mode is asserted for 10 LT (15 R504). -/
def pulse (s : State) (src : Nat) : State :=
  let on (w : Nat) : Bool := src != 0 && fld w 0 6 == src && (fld w 6 2 == 1 || fld w 6 2 == 2)
  { s with evt := { s.evt with pulse := (List.range 8).foldl (fun (t : Tab Nat) n =>
      if on (s.evt.route.get n 0) then t.put n (s.life.lt + 10) else t) s.evt.pulse } }

/-- A level source becomes active: a line in pulse mode pulses, a line in level mode follows (15 R504; DEDUCED, log 28). -/
def levelRise (s : State) (src : Nat) : State :=
  let on (w : Nat) : Bool := fld w 0 6 == src && fld w 6 2 == 1
  { s with evt := { s.evt with pulse := (List.range 8).foldl (fun (t : Tab Nat) n =>
      if on (s.evt.route.get n 0) then t.put n (s.life.lt + 10) else t) s.evt.pulse } }

/-- A violation-log entry (13 R441). -/
def viol (s : State) (cmd cause detail aux : Nat) : State :=
  let f := s.flt
  let i := f.vnext
  let s := { s with flt := { f with
    vlog := f.vlog.put i ⟨cmd, cause + (detail % 2 ^ 24) <<< 8, aux % 2 ^ 32, s.life.lt % 2 ^ 32⟩
    vnext := (i + 1) % 64
    vwrapped := f.vwrapped || i == 63
    vlost := if f.vwrapped then min (f.vlost + 1) 0xFFFF else f.vlost } }
  trace (pulse s 0x0D) 0x09 4 0xFF (fld cmd 16 6) (fld cmd 0 16) (fld cmd 24 6) cause

/-- A partner violation, at most one entry per code and port in 1,000 LT (15 R514, R515). -/
def portViol (s : State) (port code aux : Nat) : State :=
  let f := s.flt
  if f.portRecent.any fun r => r.1 == port && r.2.1 == code && decide (s.life.lt < r.2.2 + 1000) then s
  else
    viol { s with flt := { f with portRecent :=
      (port, code, s.life.lt) :: f.portRecent.filter fun r => !(r.1 == port && r.2.1 == code) } } 0 0x0C
      (port + code <<< 8) aux

/-- A fault: counted, summarised, and recorded unless a like record is younger than 1,000 LT (17 R540, R541). -/
def fault (s : State) (cls code core : Nat) (inj : Bool) (cmd detail aux : Nat) : State :=
  let f := s.flt
  let f := { f with summary := f.summary ||| 2 ^ cls, count := f.count.put cls (add64 (f.count.get cls 0) 1) }
  let like := decide (2 ≤ cls) && decide (cls ≤ 7) &&
    f.recent.any fun r => r.1 == cls && r.2.1 == code && r.2.2.1 == core && decide (s.life.lt < r.2.2.2 + 1000)
  if like then { s with flt := { f with suppressed := add64 f.suppressed 1 } }
  else
    let i := f.next
    let s := { s with flt := { f with
      recs := f.recs.put i ⟨cls, code, core, inj, cmd, s.life.lt, detail % 2 ^ 32, aux % 2 ^ 32⟩
      next := (i + 1) % 16
      wrapped := f.wrapped || i == 15
      lost := if f.wrapped then min (f.lost + 1) 0xFFFF else f.lost
      recent := (cls, code, core, s.life.lt) ::
        f.recent.filter fun r => !(r.1 == cls && r.2.1 == code && r.2.2.1 == core) } }
    let s := pulse s 0x0C
    let s := if cls == 1 then pulse s 0x07 else s
    trace s 0x08 4 core (fld cmd 16 6) (fld cmd 0 16) (fld cmd 24 6) (cls + code <<< 8)

/-- Records the fault of an uncorrectable word; an injection shows in the first fault that it makes (17 R541, R551). -/
def ueFault (s : State) (c word aux : Nat) : State :=
  let inj := s.t0.inj.contains word
  let o := (8 * word) % 2 ^ 21
  fault { s with t0 := { s.t0 with inj := s.t0.inj.erase word } } 3 1 c inj 0 o aux

/-- A unit reads `n` bytes of T0 from `a`: each word there that an injection made uncorrectable is a fault, once
(17 R541, R543, R551). -/
def unitRead (s : State) (c a n : Nat) : State :=
  (s.t0.inj.filter fun w => s.t0.ue.contains w && decide (a < 8 * (w + 1)) && decide (8 * w < a + n)).foldl
    (fun s w => ueFault s c w 0) s

/-- Adds to a per-core counter and to the totals formed from it, unless counters are frozen (12 R392, 18 R562). -/
def count (s : State) (core slot d : Nat) : State :=
  if s.str.freeze then s
  else
    let k := 16 * core + slot
    let st := { s.str with cnt := s.str.cnt.put k (add64 (s.str.cnt.get k 0) d) }
    let st := if slot == 10 then { st with wasteTotal := add64 st.wasteTotal d }
      else if slot == 11 then { st with poisonTotal := add64 st.poisonTotal d } else st
    { s with str := st }

/-- A core counts positions of its array, ring stations or Seam lanes that hold no work (01 R47). -/
def bubbles (s : State) (core n : Nat) : State :=
  if n == 0 || s.str.freeze then s else s.setCore core { s.core core with bubble := add64 (s.core core).bubble n }

/-- The total of a counter slot over all cores (18 counter block). -/
def State.total (s : State) (slot : Nat) : Nat :=
  s.str.cnt.foldl (fun a p => if p.1 % 16 == slot then add64 a p.2 else a) 0

/-! ### Flags and locators -/

/-- One committed occurrence reaches a locator (03 R102). -/
def Locator.capture (l : Locator) (cmd core : Nat) (o : Occ) : Locator :=
  let here : Locator := { l with
    cmd := cmd
    src := o.unit.code <<< 8 + core
    row := min o.row 0xFFFFFFFF
    col := o.col
    kgrp := o.kgrp
    live := true }
  let l' :=
    if !bit l.cmd 31 then here
    else if l.live && l.cmd == cmd && Occ.lt o ⟨o.fl, o.unit, l.row, l.col, l.kgrp⟩ then here
    else l
  { l' with count := sat32 l.count 1 }

/-- A committing piece of work reports its flags and occurrences (03 R98-R104). -/
def report (s : State) (cmd core : Nat) (r : Rep) : State :=
  let ivs := r.occs.filter fun o => o.fl &&& fIV != 0
  let ofs := r.occs.filter fun o => o.fl &&& fOF != 0
  let old := s.flg
  let f : FlagRegs :=
    { eng := old.eng ||| r.fl
      iv := ivs.foldl (fun l o => l.capture cmd core o) old.iv
      of := ofs.foldl (fun l o => l.capture cmd core o) old.of }
  let s := { s with flg := f }
  let up (s : State) (b : Flags) (src : Nat) : State := if old.eng &&& b == 0 && r.fl &&& b != 0 then pulse s src else s
  let s := if !bit old.iv.cmd 31 && !ivs.isEmpty then pulse s 0x01 else s
  let s := up s fDZ 0x02
  let s := if !bit old.of.cmd 31 && !ofs.isEmpty then pulse s 0x03 else s
  up (up s fUF 0x04) fIX 0x05

/-- When the claiming command completes, its captures are final (03 R102). -/
def settleClaims (s : State) (cmd : Nat) : State :=
  let done (l : Locator) : Locator := if l.cmd == cmd then { l with live := false } else l
  { s with flg := { s.flg with iv := done s.flg.iv, of := done s.flg.of } }

/-! ### Taken commands -/

/-- The taken and incomplete command `n` of queue `q`, if there is one. -/
def State.job (s : State) (q n : Nat) : Option Job := s.jobs.find? fun j => j.q == q && j.n == n

/-- `s` with a taken command changed. -/
def State.setJob (s : State) (j : Job) : State :=
  { s with jobs := s.jobs.map fun k => if k.take == j.take then j else k }

/-- `s` after `f` on the command `n` of queue `q`; unchanged when it is not taken and incomplete (DEDUCED, log 2). -/
def State.withJob (s : State) (q n : Nat) (f : State → Job → State) : State :=
  match s.job q n with
  | none => s
  | some j => f s j

/-- The command is one of the array, whose items are matrix tiles (01 Work item kinds). -/
def Job.isArray (j : Job) : Bool := decide (1 ≤ j.op) && decide (j.op ≤ 3)

/-- The priority of a queue's commands as a core compares them. -/
def itemPrio (s : State) (it : Item) : Nat := match s.job it.q it.n with | some j => j.prio | none => 0

/-- The item that a core takes next: of those of its deque whose queue has no saved item on the core, the highest priority, and among equal
ones the lowest on the deque (01 R34, R46; 13 R437). -/
def State.nextItem (s : State) (c : Nat) : Option Item :=
  let k := s.core c
  (k.deque.reverse.filter fun i => !k.saved.any fun v => v.1.q == i.q).foldl (fun (b : Option Item) i => match b with
    | none => some i
    | some w => if itemPrio s w < itemPrio s i then some i else b) none

/-- An earlier command of the queue has not completed. -/
def State.earlier (s : State) (j : Job) : Bool := s.jobs.any fun k => k.q == j.q && decide (k.take < j.take)

/-- The order of the status codes: the first that applies is written (13 R424). -/
def statusRank (st : Nat) : Nat :=
  match st with
  | 4 => 0 | 3 => 1 | 7 => 2 | 2 => 3 | 5 => 4 | 6 => 5 | 1 => 6 | _ => 7

/-- A job whose status is at least as weighty as `st`. -/
def Job.mark (j : Job) (st : Nat) : Job := if statusRank st < statusRank j.status then { j with status := st } else j

/-- No work of the command is left to place or finish. -/
def Job.end (j : Job) : Job := { j with phase := .done, tiles := [], slotWait := false, dry := false, tagWait := false }

/-- A check fails before or during the run: status MALFORMED, and one violation entry for the command (13 R440). -/
def malform (s : State) (j : Job) (cause detail aux : Nat) : State :=
  let s := if j.vlogged then s else viol s j.loc cause detail aux
  s.setJob ({ (j.mark 4) with vlogged := true }).end

/-- A check fails before the command starts: it does nothing, with flags 0 and no committed index (13 R440). -/
def reject (s : State) (j : Job) (cause detail aux : Nat) : State :=
  malform s { j with fl := 0, idx := none, members := [] } cause detail aux

/-- The engine works on commands: it is READY, awake and not between power states (16 R528-R531). -/
def State.awake (s : State) : Bool := s.life.ready && s.pwr.state == 0 && s.pwr.move.isNone

/-- Units start no new item: a halt or a thermal halt holds (15 R500, R501). -/
def State.stopped (s : State) : Bool := s.inp.halted || s.inp.thermHalt

/-- A core takes no item: the engine is stopped, or the monitor halted the core (15 R500, R501; 17 R548). -/
def State.coreStopped (s : State) (c : Nat) : Bool := s.stopped || s.inp.monHalt.contains c

/-- A free value: an opaque constant at the counter, which moves on (DESIGN CHOICE, log 14). -/
def freeNat (s : State) : Nat × State := (Config.freeValue s.fresh, { s with fresh := s.fresh + 1 })

/-- Commit numbers: takes the committed units that follow number `p` without a gap into the index to report and the flags of
the command's record, which cover the work up to that index; the rest stay (03 R100; 13 R423, R425). -/
def absorb : Nat → List (Nat × Nat × Flags) → Option Nat → Flags → Nat × List (Nat × Nat × Flags) × Option Nat × Flags
  | p, [], i, f => (p, [], i, f)
  | p, (k, x, e) :: g, i, f =>
    if k = p then absorb (p + 1) g (some x) (f ||| e) else (p, (k, x, e) :: g, i, f)

/-- The job after unit `num` with index `idx` and flags `fl` has committed. -/
def Job.commitUnit (j : Job) (num idx : Nat) (fl : Flags) : Job :=
  let r := absorb j.prefixed (insertBy (fun a b => decide (a.1 < b.1)) (num, idx, fl) j.gaps) j.idx j.fl
  { j with prefixed := r.1, gaps := r.2.1, idx := r.2.2.1, fl := r.2.2.2 }

end Sys2Proof.Machine
end

