-- ==== Sys2Proof/Machine/Ports.lean ====
section
/-! DEFINITION. Transfers on the stream ports and the link's shelf and aperture paths: tags, credits, responses and losses
(12 R377-R379, R386-R393; 14 R447, R448; 15 R483-R489, R514). -/
namespace Sys2Proof.Machine

/-- The key of a tag in the tag table. -/
def tagKey (core tag : Nat) : Nat := 512 * core + tag

/-- Flits of a cascade message on the link (15 R488). -/
def msgFlits (m : Msg) : Nat := cdiv (16 + m.payload.length) 64

/-- Sends a link message, or holds it until the cascade channel has credits for it. The waiting list is kept in the order of
14 R451: the class and the dry time, as one key `dry`, then the order of arrival. -/
def sendMsg (s : State) (dry : Nat) (m : Msg) : State :=
  let k := msgFlits m
  if s.cas.waiting.isEmpty && decide (k ≤ s.str.linkCas) then
    { s with sent := s.sent ++ [m], str := { s.str with linkCas := s.str.linkCas - k } }
  else
    { s with cas := { s.cas with
        waiting := insertBy (fun a b => decide (a.1 < b.1)) (dry, k, m) s.cas.waiting } }

/-- The messages that `n` credits let go, those that stay, and the credits left. -/
def flushMsgs : List (Nat × Nat × Msg) → Nat → List Msg × List (Nat × Nat × Msg) × Nat
  | [], n => ([], [], n)
  | (d, k, m) :: t, n =>
    if k ≤ n then let r := flushMsgs t (n - k); (m :: r.1, r.2) else ([], (d, k, m) :: t, n)

/-- Sends what the cascade channel's credits allow. -/
def pumpLink (s : State) : State :=
  let r := flushMsgs s.cas.waiting s.str.linkCas
  { s with
    sent := s.sent ++ r.1
    cas := { s.cas with waiting := r.2.1 }
    str := { s.str with linkCas := r.2.2 } }

/-- A message from this engine in its current attempt. -/
def mkMsg (s : State) (type dst tag mflags arg0 arg1 : Nat) (payload : List Byte) : Msg :=
  { link := BitVec.ofNat 16 (s.cas.route.get dst 0)
    type := BitVec.ofNat 8 type
    src := BitVec.ofNat 8 s.cas.rank
    dst := BitVec.ofNat 8 dst
    attempt := BitVec.ofNat 8 s.cas.attempt
    len := BitVec.ofNat 16 payload.length
    tag := BitVec.ofNat 8 tag
    mflags := BitVec.ofNat 8 mflags
    arg0 := BitVec.ofNat 32 arg0
    arg1 := BitVec.ofNat 32 arg1
    payload := payload }

/-- Where an address leads: this engine's T1, another rank's window, or nowhere (14 R447, R448). -/
inductive Reach where
  | here (a : Nat)
  | rank (r off : Nat)
  | gone
  deriving DecidableEq, Repr

/-- Resolves a T1-space address for `n` bytes (14 R447, R448). -/
def reach (s : State) (a n : Nat) : Reach :=
  let c := s.cas
  if !bit a 47 then .here a
  else
    let r := fld a 39 8
    let off := fld a 0 39
    if c.state != 2 then .gone
    else if r == c.rank then (if off + n ≤ c.aperSize then .here (c.aperBase + off) else .gone)
    else if bit (c.route.get r 0) 31 then .rank r off
    else .gone

/-- The 64-byte units that a transfer touches. -/
def unitCount (a n : Nat) : Nat := (a + n - 1) / 64 - a / 64 + 1

/-- The arguments that name an aperture offset and a tag (14 R450). -/
def aperArgs (off core tag gen : Nat) : Nat × Nat := (off % 2 ^ 32, fld off 32 7 + core <<< 8 + tag <<< 16 + gen <<< 25)

/-- A write whose bytes already stand in memory. -/
def Tag.kept (t : Tag) : Bool := match t.use with | .kept .. => true | _ => false

/-- Puts a waiting transfer on its channel when the credits it needs are held (15 R484, R488, R489). A write reaches memory
when it is sent, but for one that already stands there (DESIGN CHOICE, log 6). -/
def sendTag (s : State) (key : Nat) : State :=
  match s.str.tags.find key with
  | none => s
  | some t =>
    if t.sent then s
    else
      let u := unitCount t.addr t.len
      let sent := s.str.tags.put key { t with sent := true }
      match t.chan with
      | .port p =>
        let rq := s.str.portReq.get p 0
        let wd := s.str.portData.get p 0
        if rq == 0 || (t.write && decide (wd < u)) then s
        else
          { s with
            t1 := if t.write && !t.kept then s.t1.store t.addr t.data t.punits else s.t1
            str := { s.str with
              tags := sent
              portReq := s.str.portReq.put p (rq - 1)
              portData := if t.write then s.str.portData.put p (wd - u) else s.str.portData } }
      | .shelf =>
        let k := if t.write then 1 + u else 1
        if s.str.linkShelf < k then s
        else
          { s with
            shelf := if t.write then s.shelf.store t.addr t.data t.punits else s.shelf
            str := { s.str with tags := sent, linkShelf := s.str.linkShelf - k } }
      | .aper r =>
        let g := aperArgs t.addr (key / 512) (key % 512) t.gen
        let m := mkMsg s (if t.write then 0x40 else 0x41) r 0 (if t.punits.isEmpty then 0 else 32) g.1 g.2 t.data
        let m := if t.write then m else { m with len := BitVec.ofNat 16 t.len }
        sendMsg { s with str := { s.str with tags := sent } } (65536 * t.cls) m

/-- Lists of numbers in lexicographic order. -/
def lexLt : List Nat → List Nat → Bool
  | [], [] => false
  | [], _ :: _ => true
  | _ :: _, [] => false
  | a :: l, b :: k => decide (a < b) || (a == b && lexLt l k)

/-- The order in which waiting requests are served: one that has waited the age limit first, the longest wait leading, then by class, queue
priority, queue, core and time of request (11 R372; 12 R384, R385). -/
def Tag.rank (s : State) (key : Nat) (t : Tag) : List Nat :=
  if s.str.ageLimit ≤ s.life.lt - t.asked then [0, t.asked, t.seq]
  else [1, t.cls, 16 - t.prio, t.queue, key / 512, t.seq]

/-- Sends every transfer that waits for credits and can go, in their order. -/
def pumpTags (s : State) : State :=
  (sortBy (fun (a b : List Nat × Nat) => lexLt a.1 b.1) ((s.str.tags.filter fun p => !p.2.sent).map fun p => (p.2.rank s p.1, p.1))).foldl
    (fun s p => sendTag s p.2) s

/-- The lowest free tag of a core, if one of its 384 is free (12 R378); no new transfer is issued in a thermal halt (15 R501). -/
def freeTag (s : State) (core : Nat) : Option Nat :=
  let used := s.str.tags.filterMap fun p => if p.1 / 512 == core then some (p.1 % 512) else none
  let t := lowestFree used 0
  if t < 384 && !s.inp.thermHalt then some t else none

/-- Takes a tag for a transfer, advancing its generation, and sends it if it can (12 R378, R379). -/
def takeTag (s : State) (core : Nat) (t : Tag) : Option State :=
  match freeTag s core with
  | none => none
  | some k =>
    let key := tagKey core k
    let g := (s.str.gens.get key 0 + 1) % 4
    some (sendTag { s with str := { s.str with
      tags := s.str.tags.put key { t with
        gen := g
        due := s.life.lt + max s.str.timeout 1000
        seq := s.str.order
        asked := s.life.lt }
      gens := s.str.gens.put key g
      order := s.str.order + 1 } } key)

/-- A read transfer. -/
def readTag (ch : Chan) (a n : Nat) (f : TagFor) : Tag :=
  { gen := 0, write := false, chan := ch, addr := a, len := n, data := [], punits := [], ebits := 8, phase := 0, due := 0, sent := false
    units := [], bad := false, use := f, stage := false, cls := 0, prio := 0, queue := 0, seq := 0, asked := 0 }
/-- A write transfer. -/
def writeTag (ch : Chan) (a : Nat) (d : List Byte) (ps : List Nat) (eb phase : Nat) (f : TagFor) : Tag :=
  { readTag ch a d.length f with write := true, data := d, punits := ps, ebits := eb, phase := phase }
/-- A transfer in a class, at the priority of a command. -/
def Tag.ranked (t : Tag) (cls : Nat) (j : Job) : Tag := { t with cls := cls, prio := j.prio, queue := j.q }
/-- A transfer of a tier move of class `cls`: the rises of class 1 rank with the transfers of running items (11 R372; 12 R384). -/
def Tag.moving (t : Tag) (s : State) (cls : Nat) (job : Option (Nat × Nat)) : Tag :=
  let c := if cls == 1 then 0 else cls
  match job.bind fun p => s.job p.1 p.2 with
  | some j => t.ranked c j
  | none => { t with cls := c }

/-- The element width of bytes that belong to no output element. -/
def noElems : Nat := 2 ^ 16
/-- Output elements with bytes among `n` at `eb` bits each, `ph` bits of the first lying before them; each scale byte, `eb` 0, tells of a
block of 32 (12 R379; DESIGN CHOICE, log 13). -/
def elemsIn (n eb ph : Nat) : Nat := if eb == noElems then 0 else if eb == 0 then 32 * n else cdiv (8 * n + ph) eb

/-- The command that a write belongs to. -/
def TagFor.owner : TagFor → Option (Nat × Nat)
  | .write q n => some (q, n)
  | .kept q n => some (q, n)
  | _ => none

/-- The command that a transfer serves. -/
def TagFor.job : TagFor → Option (Nat × Nat)
  | .fetch q n _ => some (q, n)
  | u => u.owner

/-- A write is lost: logged, its elements counted in the command's poison count, its bytes in memory open (12 R379; DESIGN CHOICE, log 13). -/
def loseWrite (s : State) (core tag : Nat) (t : Tag) : State :=
  let s := viol s (match t.use.owner with
    | some (q, n) => match s.job q n with | some j => j.loc | none => 0
    | none => 0) 0x0B core tag
  let s := match t.use.owner with
    | some (q, n) => s.withJob q n fun s j => s.setJob { j with poison := sat32 j.poison (elemsIn t.len t.ebits t.phase) }
    | none => s
  if (t.sent && t.use != .sunk) || t.kept then
    let f := freeNat s
    match t.chan with
    | .port _ => { f.2 with t1 := { f.2.t1 with bytes := f.2.t1.bytes.write t.addr (leBytes t.len f.1) } }
    | .shelf => { f.2 with shelf := { f.2.shelf with bytes := f.2.shelf.bytes.write t.addr (leBytes t.len f.1) } }
    | .aper _ => s
  else s

/-- A fall whose shelf write is lost cannot be trusted, so its transfer stays counted: the fall is abandoned and its page
stays near (DESIGN CHOICE, log 13). Marks it. -/
def spoilFall (s : State) (d : Nat) : State :=
  { s with pg := { s.pg with falls := s.pg.falls.map fun f => if f.d == d then { f with cls := 9 } else f } }

/-- One transfer of a fall has ended, well or lost. -/
def fallEnds (s : State) (u : TagFor) (lost : Bool) : State :=
  match u with
  | .fall d =>
    let s := if lost then spoilFall s d else s
    { s with pg := { s.pg with falls := s.pg.falls.map fun f => if f.d == d then { f with left := f.left - 1 } else f } }
  | _ => s

/-- The first unissued write of a command takes a tag, if one is free on its core. -/
def issueOne (s : State) (j : Job) : Option State :=
  match j.wq with
  | [] => none
  | (core, w) :: rest =>
    let s' := s.setJob { j with wq := rest }
    let ps := unitsOf w.addr w.poison
    let tag (ch : Chan) (a : Nat) (ps : List Nat) : Tag :=
      (writeTag ch a w.data ps w.ebits w.phase (if w.place == .kept then .kept j.q j.n else .write j.q j.n)).ranked 0 j
    match reach s w.addr w.data.length with
    | .here a => takeTag s' core (tag (.port (fld a 8 2)) a (unitsOf a w.poison))
    | .rank r _ => takeTag s' core (tag (.aper r) w.addr ps)
    | .gone => some (loseWrite s' core 0 (tag (.port 0) w.addr ps))

/-- Issues the writes of one command while tags are free; the length of its list bounds the work. -/
def issueWrites : Nat → State → Nat → Nat → State
  | 0, s, _, _ => s
  | k + 1, s, q, n =>
    match s.job q n with
    | none => s
    | some j =>
      match issueOne s j with
      | none => s
      | some s' => issueWrites k s' q n

/-- The bytes of one unit that a read asked for: their address and place in the unit. -/
def unitSpan (t : Tag) (u : Nat) : Nat × Nat :=
  let base := t.addr / 256 * 256 + 64 * u
  (max t.addr base, min (t.addr + t.len) (base + 64))

/-- Units of 64 bytes that a core's landing buffer holds: the top 256 KiB of its scratchpad, or the staging area (06 R194; DESIGN CHOICE,
log 6). -/
def landUnits (stage : Bool) : Nat := if stage then 6144 else 4096
/-- Where landing `k` at address `a` stands in T0. -/
def landAt (core : Nat) (stage : Bool) (k a : Nat) : Nat :=
  t0Addr core (b2n stage) ((if stage then 0xA0000 else 0xC0000) + 64 * (k % landUnits stage) + a % 64)
/-- The number of units that have landed in a core's buffer. -/
def landNext (s : State) (core : Nat) (stage : Bool) : Nat := (if stage then s.str.stage else s.str.place).get core 0
/-- One more unit has landed. -/
def landPut (s : State) (core : Nat) (stage : Bool) (k : Nat) : State :=
  { s with str := if stage then { s.str with stage := s.str.stage.put core k } else { s.str with place := s.str.place.put core k } }

/-- Bytes land in a core's T0, a poisoned unit as zero bytes with the poison check pattern (12 R387). -/
def landBytes (s : State) (core : Nat) (stage : Bool) (a : Nat) (d : List Byte) (bad : Bool) : State :=
  let k := landNext s core stage
  landPut { s with t0 := s.t0.store (landAt core stage k a) d (List.replicate d.length bad) } core stage (k + 1)

/-- Lands one unit of a read for its user: poisoned bytes land as zero (12 R387, 15 R486). -/
def landUnit (core : Nat) (t : Tag) (s : State) (u : Nat × Bool × List Byte) : State :=
  let sp := unitSpan t u.1
  let raw := (u.2.2.drop (sp.1 % 64)).take (sp.2 - sp.1)
  let data := if u.2.1 then List.replicate (sp.2 - sp.1) 0 else raw
  match t.use with
  | .fetch q n unit =>
    let s := if u.2.1 then count s core 11 1 else s
    let k := landNext s core t.stage
    (landBytes s core t.stage sp.1 data u.2.1).withJob q n fun s j =>
      s.setJob { j with fetched := j.fetched ++ [⟨unit, core, sp.1, data, u.2.1, k, t.stage⟩] }
  | .rise d =>
    let s := if u.2.1 then count s core 11 1 else s
    { s with pg := { s.pg with rises := s.pg.rises.map fun r =>
        if r.d == d then { r with body := r.body ++ [(sp.1, data)], poisoned := r.poisoned || u.2.1 } else r } }
  | .sunk => count s core 10 (sp.2 - sp.1)
  | _ => s

/-- The units that a read spans. -/
def Tag.span (t : Tag) : List Nat :=
  let u0 := t.addr % 256 / 64
  tab (unitCount t.addr t.len) fun i => u0 + i

/-- Issues reads of operands while tags are free; those not issued stay (12 R377, R378; 14 R447; 15 R483). A read that
leads nowhere lands as poison, without a message (14 R448). -/
def askPieces (s : State) (j : Job) : List Piece → State × List Piece
  | [] => (s, [])
  | p :: ps =>
    let tag (ch : Chan) (a : Nat) : Tag :=
      { (readTag ch a p.len (.fetch j.q j.n p.unit)).ranked (if j.phase == .running then 0 else 1) j with stage := p.stage }
    let go (o : Option State) : State × List Piece :=
      match o with
      | none => (s, p :: ps)
      | some s => askPieces s j ps
    match reach s p.addr p.len with
    | .rank r _ => go (takeTag s p.core (tag (.aper r) p.addr))
    | .here a => go (takeTag s p.core (tag (.port (fld a 8 2)) a))
    | .gone =>
      let t := tag (.port 0) p.addr
      askPieces (t.span.foldl (fun s u => landUnit p.core t s (u, true, [])) s) j ps

/-- Issues the operand reads that a command still waits to issue. -/
def issueReads (s : State) (q n : Nat) : State :=
  s.withJob q n fun s j => match j.ask with
    | some (p :: ps) =>
      let r := askPieces s j (p :: ps)
      r.1.withJob q n fun s j => s.setJob { j with ask := some r.2 }
    | _ => s

/-- Issues transfers on a core while tags are free: those that are left. -/
def issueTags (core : Nat) : List Tag → State → List Tag × State
  | [], s => ([], s)
  | t :: ts, s => match takeTag s core t with
    | none => (t :: ts, s)
    | some s => issueTags core ts s

/-- Issues the waiting transfers of a fall, on its core (12 R378). -/
def issueFall (s : State) (d : Nat) : State :=
  match s.pg.falls.find? fun f => f.d == d with
  | none => s
  | some f =>
    let r := issueTags (d % Config.cores) f.todo s
    { r.2 with pg := { r.2.pg with falls := r.2.pg.falls.map fun f => if f.d == d then { f with todo := r.1 } else f } }

/-- Issues the waiting transfers of a rise, on its core (12 R378). -/
def issueRise (s : State) (d : Nat) : State :=
  match s.pg.rises.find? fun r => r.d == d with
  | none => s
  | some x =>
    let r := issueTags x.core x.todo s
    { r.2 with pg := { r.2.pg with rises := r.2.pg.rises.map fun x => if x.d == d then { x with todo := r.1 } else x } }

/-- Issues the waiting transfers of a command. -/
def issueJob (s : State) (q n k : Nat) : State := issueReads (issueWrites k s q n) q n

/-- What a stream that waits for tags does when it is served. -/
inductive Waiter where
  | job (q n k : Nat)
  | fall (d : Nat)
  | rise (d : Nat)

/-- The order in which waiting streams take free tags: by class, priority, queue and request (12 R378, R384). -/
def waiters (s : State) : List (List Nat × Waiter) :=
  let move (t : Tag) (w : Waiter) : List Nat × Waiter := ([t.cls, 16 - t.prio, t.queue, 0], w)
  (s.jobs.filter fun j => !j.wq.isEmpty || !(j.ask.getD []).isEmpty).map (fun j =>
      ([if j.phase == .waiting then 1 else 0, 16 - j.prio, j.q, j.take + 1], .job j.q j.n j.wq.length)) ++
    s.pg.falls.flatMap (fun f => (f.todo.take 1).map fun t => move t (.fall f.d)) ++
    s.pg.rises.flatMap (fun r => (r.todo.take 1).map fun t => move t (.rise r.d))

/-- Every stream's waiting transfers take the free tags. -/
def pumpWrites (s : State) : State :=
  (sortBy (fun (a b : List Nat × Waiter) => lexLt a.1 b.1) (waiters s)).foldl (fun s w => match w.2 with
    | .job q n k => issueJob s q n k
    | .fall d => issueFall s d
    | .rise d => issueRise s d) s

/-- Frees a tag; waiting transfers then take tags. -/
def dropTag (s : State) (key : Nat) : State :=
  pumpWrites { s with str := { s.str with tags := s.str.tags.del key } }

/-- Transfers lose their user: those in flight go to the sink, those that wait for credits free their tags (12 R393; 11 R364). -/
def sinkTags (s : State) (p : TagFor → Bool) : State :=
  let sink (k : Nat × Tag) : Option (Nat × Tag) :=
    if p k.2.use then (if k.2.sent then some (k.1, { k.2 with use := .sunk }) else none) else some k
  pumpWrites { s with str := { s.str with tags := s.str.tags.filterMap sink } }

/-- A read ends: its units land, and a rise that it served has one transfer less outstanding. -/
def endRead (s : State) (key : Nat) (t : Tag) (units : List (Nat × Bool × List Byte)) : State :=
  let s := units.foldl (landUnit (key / 512) t) s
  let s := match t.use with
    | .rise d => { s with pg := { s.pg with rises := s.pg.rises.map fun r =>
        if r.d == d then { r with left := r.left - 1 } else r } }
    | _ => s
  dropTag s key

/-- An armed injection of a kind on a core, disarmed (17 R551). -/
def fireInj (s : State) (kind : Nat) (p : Inject → Bool) : Bool × State :=
  match s.mon.inj.find? fun i => i.kind == kind && p i with
  | none => (false, s)
  | some i => (true, { s with mon := { s.mon with inj := s.mon.inj.erase i } })

/-- One unit of read data on a channel, checked as 15 R485 and R514 give. -/
def readUnit (s : State) (port : Nat) (ok : Tag → Bool) (id unit : Nat) (last err poison : Bool) (data : List Byte) : State :=
  let core := fld id 11 8
  let key := tagKey core (fld id 2 9)
  if !s.life.ready then s
  else if s.str.gens.get key 0 != fld id 0 2 then portViol s port 0x02 id
  else match s.str.tags.find key with
  | none => portViol s port 0x01 id
  | some t =>
    if !t.sent || !ok t then portViol s port 0x01 id
    else if t.write then portViol s port 0x04 id
    else if t.bad then s
    else
      let bads (s : State) : State := { s with str := { s.str with tags := s.str.tags.put key { t with bad := true, units := [] } } }
      let dr := fireInj s 4 fun i => i.a == core
      if dr.1 then bads dr.2
      else
        let seen := t.units.any fun u => u.1 == unit
        let all := t.span.all fun u => u == unit || t.units.any fun v => v.1 == u
        if !t.span.contains unit || seen || (last && !all) then portViol (bads s) port 0x03 id
        else
          let pz := fireInj s 3 fun i => i.a == core
          let t' := { t with units := t.units ++ [(unit, poison || err || pz.1, data)] }
          if last then endRead pz.2 key t' t'.units
          else { pz.2 with str := { pz.2.str with tags := pz.2.str.tags.put key t' } }

/-- A write acknowledgement on a channel (15 R486, R514). -/
def writeAck (s : State) (port : Nat) (ok : Tag → Bool) (id : Nat) (err : Bool) : State :=
  let core := fld id 11 8
  let key := tagKey core (fld id 2 9)
  if !s.life.ready then s
  else if s.str.gens.get key 0 != fld id 0 2 then portViol s port 0x02 id
  else match s.str.tags.find key with
  | none => portViol s port 0x01 id
  | some t =>
    if !t.sent || !ok t then portViol s port 0x01 id
    else if !t.write then portViol s port 0x04 id
    else
      let s := if err then loseWrite s core (fld id 2 9) t else s
      dropTag (fallEnds s t.use err) key

/-- A stream-port tag. -/
def onPort (p : Nat) (t : Tag) : Bool := t.chan == .port p
/-- A shelf tag. -/
def onShelf (t : Tag) : Bool := t.chan == .shelf

/-- STREAM_READ_DATA (15 R485). -/
def streamReadData (p : BitVec 2) (id : BitVec 19) (unit : BitVec 2) (last err poison : Bool) (data : List Byte) (s : State) :
    State :=
  readUnit s p.toNat (onPort p.toNat) id.toNat unit.toNat last err poison data

/-- STREAM_WRITE_ACK (15 R486). -/
def streamWriteAck (p : BitVec 2) (id : BitVec 19) (err : Bool) (s : State) : State :=
  writeAck s p.toNat (onPort p.toNat) id.toNat err

/-- SHELF_READ_DATA (15 R488). -/
def shelfReadData (id : BitVec 19) (unit : BitVec 2) (last err poison : Bool) (data : List Byte) (s : State) : State :=
  readUnit s 4 onShelf id.toNat unit.toNat last err poison data

/-- SHELF_WRITE_ACK (15 R488). -/
def shelfWriteAck (id : BitVec 19) (err : Bool) (s : State) : State := writeAck s 4 onShelf id.toNat err

/-- A count of credits after a grant of `k`, held to its limit, with the excess (15 R484, R489). -/
def grant (have' k limit : Nat) : Nat × Nat := (min (have' + k) limit, have' + k - limit)

/-- Credits of one kind on a stream port after a grant. -/
def grantPort (s : State) (p : Nat) (wdata : Bool) (k : Nat) : State × Nat :=
  if wdata then
    let g := grant (s.str.portData.get p 0) k 16384
    ({ s with str := { s.str with portData := s.str.portData.put p g.1 } }, g.2)
  else
    let g := grant (s.str.portReq.get p 0) k 4096
    ({ s with str := { s.str with portReq := s.str.portReq.put p g.1 } }, g.2)

/-- STREAM_CREDIT_GRANT (15 R484): credits above the limit are ignored and logged; waiting requests then go. -/
def streamCreditGrant (p : BitVec 2) (wdata : Bool) (k : BitVec 8) (s : State) : State :=
  let r := grantPort s p.toNat wdata k.toNat
  if s.life.rstLow then s
  else pumpTags (if r.2 == 0 then r.1 else portViol r.1 p.toNat 0x05 r.2)

/-- Credits on an outgoing link channel after a grant (15 R489). -/
def grantLink (s : State) (shelf : Bool) (k : Nat) : State × Nat :=
  if shelf then
    let g := grant s.str.linkShelf k 8192
    ({ s with str := { s.str with linkShelf := g.1 } }, g.2)
  else
    let g := grant s.str.linkCas k 8192
    ({ s with str := { s.str with linkCas := g.1 } }, g.2)

/-- LINK_CREDIT_GRANT (15 R489). -/
def linkCreditGrant (shelf : Bool) (k : BitVec 8) (s : State) : State :=
  let r := grantLink s shelf k.toNat
  if s.life.rstLow then s
  else pumpTags (pumpLink (if r.2 == 0 then r.1 else portViol r.1 (if shelf then 4 else 5) 0x05 r.2))

/-- The units of a timed-out read: those that arrived, unless they were discarded, and the missing ones as poison
(12 R379). -/
def timedUnits (t : Tag) : List (Nat × Bool × List Byte) :=
  t.span.map fun u =>
    match t.units.find? fun v => v.1 == u with
    | some v => v
    | none => (u, true, [])

/-- A tag in flight times out (12 R379, R393). -/
def timeOut (s : State) (key : Nat) (t : Tag) : State :=
  let s := { s with str := { s.str with
    timeouts := add64 s.str.timeouts 1
    gens := s.str.gens.put key ((s.str.gens.get key 0 + 1) % 4) } }
  if t.write then
    dropTag (fallEnds (loseWrite s (key / 512) (key % 512) t) t.use true) key
  else
    match t.use with
    | .sunk => dropTag s key
    | .rise d =>
      endRead { s with pg := { s.pg with rises := s.pg.rises.map fun r =>
        if r.d == d then { r with timedOut := true } else r } } key t (timedUnits t)
    | _ => endRead s key t (timedUnits t)

/-- TAG_TIMEOUT (12 R379): a tag not completed by its limit is timed out. -/
def tagTimeout (core : BitVec 8) (tag : BitVec 9) (lt : Dword) (s : State) : State :=
  let s := advance s lt
  let key := tagKey core.toNat tag.toNat
  match s.str.tags.find key with
  | none => s
  | some t => if t.due ≤ s.life.lt then timeOut s key t else s

/-- STREAM_READ_DATA. -/
def execStreamReadData (p : BitVec 2) (id : BitVec 19) (unit : BitVec 2) (last err poison : Bool) (data : List Byte)
    (s : State) : Host.Outcome State Fault Refusal := .next (streamReadData p id unit last err poison data s)
/-- STREAM_CREDIT_GRANT. -/
def execStreamCreditGrant (p : BitVec 2) (wdata : Bool) (k : BitVec 8) (s : State) : Host.Outcome State Fault Refusal :=
  .next (streamCreditGrant p wdata k s)
/-- SHELF_READ_DATA. -/
def execShelfReadData (id : BitVec 19) (unit : BitVec 2) (last err poison : Bool) (data : List Byte) (s : State) :
    Host.Outcome State Fault Refusal := .next (shelfReadData id unit last err poison data s)
/-- LINK_CREDIT_GRANT. -/
def execLinkCreditGrant (shelf : Bool) (k : BitVec 8) (s : State) : Host.Outcome State Fault Refusal :=
  .next (linkCreditGrant shelf k s)
end Sys2Proof.Machine
end

