-- ==== Sys2Proof/Machine/Pages.lean ====
section
/-! DEFINITION. The page system: stacks, descriptors, nodes, page tables, copy on write and release
(10 R308-R332; 09 R293-R298; 11 R351, R352). -/
namespace Sys2Proof.Machine

/-- A number read over the tack path; poison reads as zero (12 R386). -/
def State.rd (s : State) (a n : Nat) : Nat := ofLe (s.t1.fetch a n).1
/-- A clean engine write to T1. -/
def State.wr (s : State) (a : Nat) (bs : List Byte) : State := { s with t1 := s.t1.put a bs }
/-- A number written as `n` bytes. -/
def State.wrNum (s : State) (a n x : Nat) : State := s.wr a (leBytes n x)

/-! ### Stacks (10 R313) -/

/-- Bytes that a stack of `n` entries takes. -/
def stackLen (n : Nat) : Nat := roundUp (4 * n) 64
/-- Where the reserve stacks start. -/
def resBase (s : State) : Nat := s.pg.listBase + stackLen s.pg.descCount + stackLen s.pg.frameCount
/-- Where stack `i` of 10 R313 starts, counted from 1. -/
def stackBase (s : State) (i : Nat) : Nat :=
  match i with
  | 1 => s.pg.listBase
  | 2 => s.pg.listBase + stackLen s.pg.descCount
  | 3 => resBase s
  | 4 => resBase s + stackLen (4096 * Config.cores)
  | _ => resBase s + stackLen (4096 * Config.cores) + stackLen s.tier.shelfCount

/-- The entry of a stack. -/
def entryAt (s : State) (base i : Nat) : Nat := s.rd (base + 4 * i) 4

/-- A descriptor index for a new page: from the allotment when one is open, else from its stack. -/
def popDesc (s : State) : Option (Nat × State) :=
  match s.pg.allot with
  | some (fs, d :: ds) => some (d, { s with pg := { s.pg with allot := some (fs, ds) } })
  | some (_, []) => none
  | none =>
    if s.pg.descFree == 0 then none
    else some (entryAt s (stackBase s 1) (s.pg.descFree - 1), { s with pg := { s.pg with descFree := s.pg.descFree - 1 } })

/-- A frame for a new page, likewise. -/
def popFrame (s : State) : Option (Nat × State) :=
  match s.pg.allot with
  | some (f :: fs, ds) => some (f, { s with pg := { s.pg with allot := some (fs, ds) } })
  | some ([], _) => none
  | none =>
    if s.pg.free == 0 then none
    else some (entryAt s (stackBase s 2) (s.pg.free - 1), { s with pg := { s.pg with free := s.pg.free - 1 } })

/-- A frame of the ordinary pool, whatever is allotted. -/
def popPool (s : State) : Option (Nat × State) :=
  if s.pg.free == 0 then none
  else some (entryAt s (stackBase s 2) (s.pg.free - 1), { s with pg := { s.pg with free := s.pg.free - 1 } })

/-- A frame and a descriptor of the pool, taken together (10 R567). -/
def popPair (s : State) : Option (Nat × Nat × State) :=
  match popFrame s with
  | none => none
  | some (f, s) => (popDesc s).map fun r => (f, r.1, r.2)

/-- A frame of a core's reserve (10 R329). -/
def popReserve (s : State) (core : Nat) : Option (Nat × State) :=
  let n := s.pg.resFree.get core 0
  if n == 0 then none
  else some (entryAt s (stackBase s 3 + 4 * 4096 * core) (n - 1),
    { s with pg := { s.pg with resFree := s.pg.resFree.put core (n - 1) } })

/-- A descriptor index returned to its stack. -/
def pushDesc (s : State) (d : Nat) : State :=
  let n := s.pg.descFree
  { (s.wrNum (stackBase s 1 + 4 * n) 4 d) with pg := { s.pg with descFree := n + 1 } }

/-- The core whose reserve holds the fewest frames below its full level, the lowest index winning a tie (10 R321). -/
def hungryCore (s : State) : Option Nat :=
  (List.range Config.cores).foldl (fun (b : Option Nat) c =>
    let n := s.pg.resFree.get c 0
    if s.pg.perCore ≤ n then b
    else match b with
      | none => some c
      | some x => if n < s.pg.resFree.get x 0 then some c else b) none

/-- What has landed from a range of memory is no longer what stands there. -/
def Job.forget (j : Job) (a n : Nat) : Job :=
  if j.fetched.isEmpty then j
  else { j with fetched := j.fetched.filter fun e => !(decide (a < e.addr + e.data.length) && decide (e.addr < a + n)) }

/-- A frame returned to the pool: the reserves refill first (10 R321). -/
def pushFrame (s : State) (f : Nat) : State :=
  let s := { s with jobs := s.jobs.map fun j => j.forget (s.pg.frameBase + 65536 * f) 65536 }
  match hungryCore s with
  | some c =>
    let n := s.pg.resFree.get c 0
    { (s.wrNum (stackBase s 3 + 4 * 4096 * c + 4 * n) 4 f) with
      pg := { s.pg with resFree := s.pg.resFree.put c (n + 1) } }
  | none =>
    let n := s.pg.free
    { (s.wrNum (stackBase s 2 + 4 * n) 4 f) with pg := { s.pg with free := n + 1 } }

/-- A shelf slot. -/
def popShelf (s : State) : Option (Nat × State) :=
  if s.tier.shelfFree == 0 then none
  else some (entryAt s (stackBase s 4) (s.tier.shelfFree - 1), { s with tier := { s.tier with shelfFree := s.tier.shelfFree - 1 } })
/-- A shelf slot returned. -/
def pushShelf (s : State) (x : Nat) : State :=
  let n := s.tier.shelfFree
  { (s.wrNum (stackBase s 4 + 4 * n) 4 x) with tier := { s.tier with shelfFree := n + 1 } }
/-- A summary slot. -/
def popNeap (s : State) : Option (Nat × State) :=
  if s.tier.neapFree == 0 then none
  else some (entryAt s (stackBase s 5) (s.tier.neapFree - 1), { s with tier := { s.tier with neapFree := s.tier.neapFree - 1 } })
/-- A summary slot returned. -/
def pushNeap (s : State) (x : Nat) : State :=
  let n := s.tier.neapFree
  { (s.wrNum (stackBase s 5 + 4 * n) 4 x) with tier := { s.tier with neapFree := n + 1 } }

/-! ### Descriptors and side entries (10 R312, 11 R351) -/

/-- A page descriptor (10 R312). -/
structure Desc where
  state : Nat
  commit : Bool
  poison : Bool
  kind : Nat
  ref : Bool
  count : Nat
  family : Nat
  frame : Nat
  slot : Nat
  deriving DecidableEq, Repr

/-- Reads a descriptor word. -/
def Desc.ofNat (x : Nat) : Desc :=
  ⟨fld x 0 3, bit x 3, bit x 4, fld x 5 2, bit x 8, fld x 24 24, fld x 48 16, fld x 72 24, fld x 96 32⟩
/-- The descriptor as a word. -/
def Desc.toNat (d : Desc) : Nat :=
  d.state + (b2n d.commit) <<< 3 + (b2n d.poison) <<< 4 + d.kind <<< 5 + (b2n d.ref) <<< 8 + (d.count % 2 ^ 24) <<< 24 +
    d.family <<< 48 + d.frame <<< 72 + d.slot <<< 96

/-- Descriptor `d`. -/
def getDesc (s : State) (d : Nat) : Desc := Desc.ofNat (s.rd (s.pg.descBase + 16 * d) 16)
/-- `s` with descriptor `d` written. -/
def putDesc (s : State) (d : Nat) (x : Desc) : State := s.wrNum (s.pg.descBase + 16 * d) 16 x.toNat

/-- The side word of a page; 0 while there is no side table. -/
def sideWord (s : State) (d : Nat) : Nat := if s.tier.shelfEn then s.rd (s.tier.sideBase + 32 * d + 16) 8 else 0
/-- Writes the side word. -/
def putSide (s : State) (d x : Nat) : State :=
  if s.tier.shelfEn then s.wrNum (s.tier.sideBase + 32 * d + 16) 8 x else s

/-- The T1 address of a frame. -/
def frameAddr (s : State) (f : Nat) : Nat := s.pg.frameBase + 65536 * f
/-- The T1 address of a near page. -/
def pageAddr (s : State) (d : Nat) : Nat := frameAddr s (getDesc s d).frame

/-- A fresh page of a family: its frame and descriptor are taken together and it holds zero bytes (10 R320, R567, R310). -/
def allocPage (s : State) (fam kind : Nat) : Option (Nat × State) :=
  match popDesc s with
  | none => none
  | some (d, s1) =>
    match popFrame s1 with
    | none => none
    | some (f, s2) =>
      let s3 := putDesc s2 d ⟨1, false, false, kind, false, 1, fam, f, 0⟩
      let s4 := { s3 with t1 := s3.t1.clear (frameAddr s3 f) 65536 }
      some (d, putSide s4 d 0)

/-! ### Nodes (10 R309, R311) -/

/-- The header word of a node unit. -/
def nodeHdrAt (na : Nat) : Nat := na / 65536 * 65536 + 8 * (na % 65536 / 2048)
/-- `na` is a node unit in use of family `fam` (10 R310). -/
def nodeOk (s : State) (fam na : Nat) : Bool :=
  let h := s.rd (nodeHdrAt na) 8
  decide (0 < na % 65536 / 2048) && bit h 63 && fld h 32 16 == fam &&
    s.pg.nodePages.any fun d => pageAddr s d == na / 65536 * 65536
/-- The family that a node unit records. -/
def nodeFam (s : State) (na : Nat) : Nat := fld (s.rd (nodeHdrAt na) 8) 32 16
/-- A node unit's count. -/
def nodeCount (s : State) (na : Nat) : Nat := fld (s.rd (nodeHdrAt na) 8) 0 24
/-- Writes a node unit's count. -/
def putNodeCount (s : State) (na n : Nat) : State :=
  s.wrNum (nodeHdrAt na) 8 (setFld (s.rd (nodeHdrAt na) 8) 0 24 n)

/-- The first free unit of a node page. -/
def freeUnit (s : State) (base : Nat) : Option Nat :=
  (tab 31 fun i => i + 1).find? fun u => !bit (s.rd (base + 8 * u) 8) 63

/-- A free unit in the first node page that has one. -/
def findUnit (s : State) : Option Nat :=
  s.pg.nodePages.findSome? fun d =>
    let b := pageAddr s d
    (freeUnit s b).map fun u => b + 2048 * u

/-- Marks a unit in use with count 1 and clears its entries. -/
def takeUnit (s : State) (fam na : Nat) : State :=
  let s := s.wrNum (nodeHdrAt na) 8 (2 ^ 63 + fam <<< 32 + 1)
  { s with t1 := s.t1.clear na 2048 }

/-- A new node of a family, from a node page with a free unit or a new node page (10 R311). -/
def newNode (s : State) (fam : Nat) : Option (Nat × State) :=
  match findUnit s with
  | some na => some (na, takeUnit s fam na)
  | none =>
    match allocPage s fam 3 with
    | none => none
    | some (d, s) =>
      let s := { s with pg := { s.pg with nodePages := insNat d s.pg.nodePages } }
      let na := pageAddr s d + 2048
      some (na, takeUnit s fam na)

/-- The next node that an interior entry names, if the entry counts as valid (10 R309, R310). -/
def interior (s : State) (fam ea : Nat) : Option Nat :=
  let e := s.rd ea 8
  let na := fld e 11 37 <<< 11
  if bit e 0 && fld e 1 10 == 0 && fld e 48 16 == 0 && nodeOk s fam na then some na else none
/-- The page that a leaf entry names, if the entry counts as valid (10 R309, R310). -/
def leafEntry (s : State) (fam ea : Nat) : Option Nat :=
  let e := s.rd ea 8
  let d := fld e 32 28
  let x := getDesc s d
  if bit e 0 && fld e 1 31 == 0 && fld e 60 4 == 0 && decide (d < s.pg.descCount) && x.state != 0 && x.kind != 3 &&
    x.family == fam then some d else none
/-- Writes an interior entry. -/
def putInterior (s : State) (ea na : Nat) : State := s.wrNum ea 8 (na + 1)
/-- Writes a leaf entry. -/
def putLeaf (s : State) (ea d : Nat) : State := s.wrNum ea 8 (d <<< 32 + 1)

/-- The page that a virtual page number maps to (10 R309). -/
def lookup (s : State) (root fam vpn : Nat) : Option Nat :=
  match interior s fam (root + 8 * fld vpn 16 8) with
  | none => none
  | some l2 =>
    match interior s fam (l2 + 8 * fld vpn 8 8) with
    | none => none
    | some lf => leafEntry s fam (lf + 8 * fld vpn 0 8)

/-- Adds `k` to the count of a page. -/
def addCount (s : State) (d : Nat) (k : Nat) : State :=
  let x := getDesc s d
  putDesc s d { x with count := x.count + k }

/-- A node's own copy for a writer: itself when unshared, else a new node with the same entries, each of whose targets counts
one more (09 R294, 10 R318). `leaf` says that its entries name pages. -/
def ownNode (s : State) (fam : Nat) (leaf : Bool) (na : Nat) : Option (Nat × State) :=
  if nodeCount s na ≤ 1 then some (na, s)
  else
    match newNode s fam with
    | none => none
    | some (nb, s) =>
      let s := s.wr nb (s.t1.fetch na 2048).1
      let s := putNodeCount s na (nodeCount s na - 1)
      some (nb, (List.range 256).foldl (fun s i =>
        if leaf then (match leafEntry s fam (nb + 8 * i) with | some d => addCount s d 1 | none => s)
        else (match interior s fam (nb + 8 * i) with | some x => putNodeCount s x (nodeCount s x + 1) | none => s)) s)

/-- The node that an interior entry leads to, made the writer's own: fresh where the entry is not valid. -/
def ownChild (s : State) (fam : Nat) (leaf : Bool) (ea : Nat) : Option (Nat × State) :=
  match interior s fam ea with
  | none =>
    match newNode s fam with
    | none => none
    | some (na, s) => some (na, putInterior s ea na)
  | some na =>
    match ownNode s fam leaf na with
    | none => none
    | some (nb, s) => some (nb, if nb == na then s else putInterior s ea nb)

/-- The leaf entry of a virtual page on a path that the writer owns: the root it then has, and the entry's address. -/
def ownPath (s : State) (root fam vpn : Nat) : Option (Nat × Nat × State) :=
  match ownNode s fam false root with
  | none => none
  | some (r, s) =>
    match ownChild s fam false (r + 8 * fld vpn 16 8) with
    | none => none
    | some (l2, s) =>
      match ownChild s fam true (l2 + 8 * fld vpn 8 8) with
      | none => none
      | some (lf, s) => some (r, lf + 8 * fld vpn 0 8, s)

/-- The page that a write goes to: mapped fresh, or copied when shared; `whole` says the write covers it all (10 R310,
09 R294). A copy is as poisoned and as lossy as its page (DEDUCED, log 25). Answers the root, the page and the state. -/
def ownPage (s : State) (root fam vpn kind : Nat) (whole : Bool) : Option (Nat × Nat × State) :=
  match ownPath s root fam vpn with
  | none => none
  | some (r, ea, s) =>
    match leafEntry s fam ea with
    | none =>
      match allocPage s fam kind with
      | none => none
      | some (d, s) => some (r, d, putLeaf s ea d)
    | some d =>
      let x := getDesc s d
      if x.count ≤ 1 then some (r, d, s)
      else
        match allocPage s fam kind with
        | none => none
        | some (e, s) =>
          let old := pageAddr s d
          let new := pageAddr s e
          let s := if whole then s
            else
              let f := s.t1.fetch old 65536
              let s := putDesc s e { getDesc s e with poison := x.poison }
              putSide { s with t1 := s.t1.store new f.1 (unitsOf new f.2) } e (setFld 0 1 1 (fld (sideWord s d) 1 1))
          let s := putDesc s d { x with count := x.count - 1, ref := true }
          some (r, e, putLeaf s ea e)

/-! ### Release (09 R298, 10 R318, R320) -/

/-- A page's shelf slot and summary go back. -/
def dropShelf (s : State) (d : Nat) (x : Desc) : State :=
  let w := sideWord s d
  let s := pushShelf s x.slot
  if bit w 0 then putSide (pushNeap s (fld w 8 24)) d (w - 1) else s

/-- A fall is no longer in progress. -/
def dropFall (s : State) (d : Nat) : State := { s with pg := { s.pg with falls := s.pg.falls.filter fun g => g.d != d } }

/-- A fall of page `d` stops: its shelf and summary slots go back, and nothing more of it is sent (10 R320, 11 R364). -/
def stopFall (s : State) (d : Nat) : State :=
  match s.pg.falls.find? fun f => f.d == d with
  | none => s
  | some f =>
    let s := pushShelf s f.slot
    let s := match f.summary with | some k => pushNeap s k | none => s
    sinkTags (dropFall s d) (· == .fall d)

/-- A page whose count reached 0 is freed (10 R320). -/
def freePage (s : State) (d : Nat) : State :=
  let x := getDesc s d
  let s : State := match x.state with
    | 1 => pushFrame s x.frame
    | 2 => dropShelf s d x
    | 3 =>
      let s := dropShelf (pushFrame s x.frame) d x
      sinkTags { s with pg := { s.pg with rises := s.pg.rises.filter fun r => r.d != d } } (· == .rise d)
    | 4 => if x.commit then dropShelf (pushFrame (dropFall s d) x.frame) d x else pushFrame (stopFall s d) x.frame
    | _ => s
  pushDesc (putDesc { s with pg := { s.pg with cover := s.pg.cover.del d } } d (Desc.ofNat 0)) d

/-- One reference to a page goes; the pages freed. -/
def releasePage (s : State) (d : Nat) : Nat × State :=
  let x := getDesc s d
  if 1 < x.count then (0, putDesc s d { x with count := x.count - 1 }) else (1, freePage s d)

/-- A node unit is freed; a node page with no unit in use goes back to the pool (10 R311). -/
def freeNode (s : State) (na : Nat) : State :=
  let s := s.wrNum (nodeHdrAt na) 8 0
  let b := na / 65536 * 65536
  if (tab 31 fun i => i + 1).any fun u => bit (s.rd (b + 8 * u) 8) 63 then s
  else
    match s.pg.nodePages.find? fun d => pageAddr s d == b with
    | none => s
    | some d =>
      let f := (getDesc s d).frame
      let s := { s with pg := { s.pg with nodePages := s.pg.nodePages.erase d } }
      pushDesc (putDesc (pushFrame s f) d (Desc.ofNat 0)) d

/-- One reference to a node goes; at 0 its entries' targets lose one each and it is freed. `sub` releases an entry. -/
def releaseNode (sub : State → Nat → Nat × State) (s : State) (na : Nat) : Nat × State :=
  let n := nodeCount s na
  if 1 < n then (0, putNodeCount s na (n - 1))
  else
    let r := (List.range 256).foldl (fun (a : Nat × State) i =>
      let x := sub a.2 (na + 8 * i)
      (a.1 + x.1, x.2)) (0, s)
    (r.1, freeNode r.2 na)

/-- Releases what a leaf entry names. -/
def releaseLeafEntry (fam : Nat) (s : State) (ea : Nat) : Nat × State :=
  match leafEntry s fam ea with
  | none => (0, s)
  | some d => releasePage s d
/-- Releases what a level-2 entry names. -/
def releaseL2Entry (fam : Nat) (s : State) (ea : Nat) : Nat × State :=
  match interior s fam ea with
  | none => (0, s)
  | some na => releaseNode (releaseLeafEntry fam) s na
/-- Releases what a root entry names. -/
def releaseRootEntry (fam : Nat) (s : State) (ea : Nat) : Nat × State :=
  match interior s fam ea with
  | none => (0, s)
  | some na => releaseNode (releaseL2Entry fam) s na
/-- Releases a sequence's page table: the pages freed (09 R298, R299). -/
def releaseRoot (s : State) (root : Nat) : Nat × State :=
  releaseNode (releaseRootEntry (nodeFam s root)) s root

/-! ### Slot records and sequences (09 R273-R277) -/

/-- The slot record as its 64 bytes (09 R276). -/
def Slot.bytes (x : Slot) (state : Nat) : List Byte :=
  let ctrl := x.nchild % 128 + (x.core % 256) <<< 8 + (x.owner % 64) <<< 16 + (x.resid % 4) <<< 22 + (b2n x.sel) <<< 24 +
    (b2n x.poison) <<< 25 + (b2n x.halt) <<< 26 + (b2n x.pin) <<< 27 + (state % 16) <<< 28
  leBytes 4 ctrl ++ leBytes 4 x.sid ++ leBytes 4 x.pos ++ leBytes 4 x.st0 ++ leBytes 4 x.st1 ++ leBytes 4 x.size ++
    leBytes 8 x.root ++ leBytes 8 x.deadline ++ leBytes 8 x.lastLt ++ leBytes 4 x.parent ++ leBytes 4 x.child ++
    leBytes 4 x.sibling ++ leBytes 4 x.tag

/-- A slot record read from its 64 bytes. -/
def Slot.ofBytes (b : List Byte) : Slot :=
  let w (o n : Nat) : Nat := ofLe ((b.drop o).take n)
  let c := w 0 4
  { state := fld c 28 4, pin := bit c 27, halt := bit c 26, poison := bit c 25, sel := bit c 24, resid := fld c 22 2
    owner := fld c 16 6, core := fld c 8 8, nchild := fld c 0 7, sid := fld (w 4 4) 0 20, pos := fld (w 8 4) 0 23
    st0 := w 0xC 4, st1 := w 0x10 4, size := w 0x14 4, root := w 0x18 8, deadline := w 0x20 8, lastLt := w 0x28 8
    parent := fld (w 0x30 4) 0 20, child := fld (w 0x34 4) 0 20, sibling := fld (w 0x38 4) 0 20, tag := w 0x3C 4 }

/-- No sequence, in a link field (09 R276). -/
def noSid : Nat := 0xFFFFF

/-- The slot that holds a sequence. -/
def slotOf (s : State) (sid : Nat) : Option (Nat × Slot) := s.slots.recs.find? fun p => p.2.state != 0 && p.2.sid == sid
/-- The directory entry's address (09 R274). -/
def dirAddr (s : State) (sid : Nat) : Nat := s.slots.dirBase + 64 * sid
/-- The record of an admitted sequence, in its slot or parked; none when the SID is not admitted. -/
def seqRec (s : State) (sid : Nat) : Option Slot :=
  match slotOf s sid with
  | some (_, x) => some x
  | none => if s.slots.sids.contains sid then some (Slot.ofBytes (s.t1.fetch (dirAddr s sid) 64).1) else none
/-- Writes the record of an admitted sequence back where it stands. -/
def putSeq (s : State) (sid : Nat) (x : Slot) : State :=
  match slotOf s sid with
  | some (i, _) => { s with slots := { s.slots with recs := s.slots.recs.put i x } }
  | none => s.wr (dirAddr s sid) (x.bytes 8)
/-- The sequence's family (10 R316). -/
def seqFam (s : State) (x : Slot) : Nat := nodeFam s x.root

/-- The pages of one state copy (10 R308). -/
def statePages (x : Slot) : Nat := cdiv x.size 65536

/-- Sequences named by a job in flight that make a family active: ATTN, SCAN with a sequence, COPY and FILL (10 R317). -/
def jobSids (s : State) (j : Job) : List Nat :=
  match j.op with
  | 0x0A =>
    let d := fld (j.body 0) 0 48
    tab (fld (s.rd (d + 16) 4) 0 25) fun i => s.rd (fld (s.rd d 8) 0 48 + 4 * i) 4
  | 0x08 => if bit (j.body 0x10) 52 then [fld (j.body 0x10) 32 20] else []
  | 0x18 => if bit (j.body 0x28) 20 then [fld (j.body 0x28) 0 20] else []
  | 0x19 => if bit (j.body 0x28) 20 then [fld (j.body 0x28) 0 20] else []
  | _ => []

/-- A sequence is active (10 R317). -/
def seqActive (s : State) (x : Slot) : Bool :=
  [2, 3, 5, 6].contains x.state || s.jobs.any fun j => (jobSids s j).contains x.sid
/-- A family has an active member, in a slot or parked. -/
def famActive (s : State) (fam : Nat) : Bool :=
  (s.slots.recs.any fun p => p.2.state != 0 && seqFam s p.2 == fam && seqActive s p.2) ||
    s.jobs.any fun j => (jobSids s j).any fun a => match seqRec s a with | some x => seqFam s x == fam | none => false

/-! ### Accesses to pages (10 R320, R324) -/

/-- The transfers of `n` bytes from `a`, cut at 256-byte addresses (12 R377). -/
def cut256 : Nat → Nat → Nat → List (Nat × Nat)
  | 0, _, _ => []
  | f + 1, a, n =>
    if n == 0 then []
    else let k := min n (256 - a % 256); (a, k) :: cut256 f (a + k) (n - k)
/-- The transfers of a run. -/
def pieces (a n : Nat) : List (Nat × Nat) := cut256 (n / 256 + 2) a n

/-- Starts the rise of a shelf page: a frame from the ordinary pool and the shelf reads of its folded body (10 R320,
11 R349). Answers `none` when the pool is dry (10 R324). -/
def startRise (s : State) (d core cls : Nat) (job : Option (Nat × Nat)) : Option State :=
  match popPool s with
  | none => none
  | some (f, s) =>
    let x := getDesc s d
    let len := fld (s.rd (s.tier.sideBase + 32 * d) 4) 0 17
    let ps := pieces (s.tier.shelfBase + 65536 * x.slot) len
    let s := putDesc s d { x with state := 3, frame := f, ref := true }
    let todo := ps.map fun p => (readTag .shelf p.1 p.2 (.rise d)).moving s cls job
    some (issueRise { s with pg := { s.pg with rises := s.pg.rises ++ [⟨d, [], ps.length, false, false, cls, job, core, todo⟩] } } d)

/-- Marks whether a rise for a command finds no frame (10 R324). -/
def noteDry (s : State) (job : Option (Nat × Nat)) (b : Bool) : State :=
  match job with
  | none => s
  | some (q, n) => s.withJob q n fun s j => s.setJob { j with riseDry := b }

/-- An access reaches a page (10 R320, R324): `true` when it may go on now. -/
def touchPage (s : State) (core : Nat) (job : Option (Nat × Nat)) (d : Nat) : Bool × State :=
  let x := getDesc s d
  match x.state with
  | 1 => (true, if x.ref then s else putDesc s d { x with ref := true })
  | 2 =>
    match startRise s d core 1 job with
    | none => (false, if s.pg.free == 0 then noteDry s job true else s)
    | some s => (false, noteDry s job false)
  | 4 => if x.commit then (false, s)
    else (true, putDesc (stopFall s d) d { x with state := 1, ref := true })
  | _ => (false, s)

/-- An access reaches a virtual page below a root, if it is mapped. -/
def touchVpn (core : Nat) (job : Option (Nat × Nat)) (root : Nat) (a : Bool × State) (vpn : Nat) : Bool × State :=
  match lookup a.2 root (nodeFam a.2 root) vpn with
  | none => a
  | some d => let r := touchPage a.2 core job d; (a.1 && r.1, r.2)

/-- Accesses reach the mapped pages of a list of virtual pages of a sequence; `true` when all may go on. -/
def touchAll (s : State) (core : Nat) (job : Option (Nat × Nat)) (l : List (Nat × Nat)) : Bool × State :=
  l.foldl (fun (a : Bool × State) p =>
    match seqRec a.2 p.1 with
    | none => a
    | some x => touchVpn core job x.root a p.2) (true, s)

/-- The unmapped pages among those a command reads are logged, once each (10 R310). -/
def logUnmapped (s : State) (cmd : Nat) (l : List (Nat × Nat)) : State :=
  l.eraseDups.foldl (fun s p =>
    match seqRec s p.1 with
    | none => s
    | some x => match lookup s x.root (seqFam s x) p.2 with
      | none => viol s cmd 0x04 p.2 p.1
      | some _ => s) s

/-- Bytes read from one page of a page space: zero poisoned bytes where nothing is mapped (10 R310); all poisoned while the
page's `POISON` is set (10 R324). -/
def readPage (s : State) (sid vpn off n : Nat) : List Byte × List Bool :=
  let none' := (List.replicate n 0, List.replicate n true)
  match seqRec s sid with
  | none => none'
  | some x =>
    match lookup s x.root (seqFam s x) vpn with
    | none => none'
    | some d => if (getDesc s d).poison then none' else s.t1.fetch (pageAddr s d + off) n

/-- Ranges of a page with one more, those that meet or touch made one. -/
def addSpan (l : List (Nat × Nat)) (a b : Nat) : List (Nat × Nat) :=
  let near (r : Nat × Nat) : Bool := decide (r.1 ≤ b) && decide (a ≤ r.2)
  let on := l.filter near
  insertBy (fun x y => decide (x.1 < y.1)) (on.foldl (fun v r => min v r.1) a, on.foldl (fun v r => max v r.2) b) (l.filter fun r => !near r)

/-- What a write of `n` bytes at `off`, in KV format `kv` or 0 for none, does to a page: its side word, and the marks of poison and loss,
which end when all of the page has been rewritten since they were set (11 R352, R362; 10 R324; DEDUCED, log 25). -/
def noteWrite (s : State) (d kv off n : Nat) : State :=
  let w := setFld (sideWord s d) 2 3 kv
  let x := getDesc s d
  if !x.poison && !bit w 1 then putDesc (putSide s d w) d { x with ref := true }
  else
    let c := addSpan (s.pg.cover.get d []) off (off + n)
    let whole := c == [(0, 65536)]
    let s := { s with pg := { s.pg with cover := if whole then s.pg.cover.del d else s.pg.cover.put d c } }
    putDesc (putSide s d (if whole then setFld w 1 1 0 else w)) d { x with ref := true, poison := x.poison && !whole }

/-- Writes bytes into one page of a sequence; `none` when a fresh page is wanted and cannot be had. -/
def writePage (s : State) (sid vpn off kind kv : Nat) (data : List Byte) (poison : List Bool) : Option State :=
  match seqRec s sid with
  | none => some s
  | some x =>
    let whole := off == 0 && data.length == 65536
    match ownPage s x.root (seqFam s x) vpn kind whole with
    | none => none
    | some (r, d, s) =>
      let s := if r == x.root then s else putSeq s sid { x with root := r }
      let a := pageAddr s d + off
      let s := { s with t1 := s.t1.store a data (unitsOf a poison) }
      some (noteWrite s d kv off data.length)

/-- The pieces of a page-space run, one per page: page, offset, start in the run, length. -/
def pageSpans : Nat → Nat → Nat → Nat → List (Nat × Nat × Nat × Nat)
  | 0, _, _, _ => []
  | f + 1, a, o, n =>
    if n == 0 then []
    else
      let k := min n (65536 - a % 65536)
      (a / 65536, a % 65536, o, k) :: pageSpans f (a + k) (o + k) (n - k)
/-- The pages of a run of `n` bytes from `a`. -/
def spans (a n : Nat) : List (Nat × Nat × Nat × Nat) := pageSpans (n / 65536 + 2) a 0 n

/-- Bytes of a page space. -/
def readSpace (s : State) (sid a n : Nat) : List Byte × List Bool :=
  (spans a n).foldl (fun acc p =>
    let r := readPage s sid p.1 p.2.1 p.2.2.2
    (acc.1 ++ r.1, acc.2 ++ r.2)) ([], [])

/-- Writes bytes of a page space. -/
def writeSpace (s : State) (sid a kind kv : Nat) (data : List Byte) (poison : List Bool) : Option State :=
  (spans a data.length).foldl (fun o p =>
    o.bind fun s => writePage s sid p.1 p.2.1 kind kv ((data.drop p.2.2.1).take p.2.2.2)
      ((poison.drop p.2.2.1).take p.2.2.2)) (some s)

/-! ### State copies (06 R191-R194; 09 R283) -/

/-- The byte offset in page space, or state-store offset, of copy `k`. -/
def copyBase (x : Slot) (k : Bool) : Nat := if k then x.st1 else x.st0

/-- The page-space address of a RESIDENT sequence's park pages (09 R281, 10 R308). -/
def parkBase (x : Slot) : Nat := 65536 * (2 ^ 24 - statePages x)

/-- Bytes of a state copy of a sequence; those of a parked RESIDENT sequence lie in its park pages. -/
def readCopy (s : State) (x : Slot) (k : Bool) (off n : Nat) : List Byte × List Bool :=
  if x.resid == 1 && (slotOf s x.sid).isNone then readSpace s x.sid (parkBase x + off) n
  else if x.resid == 1 then s.t0.fetch (t0Addr x.core 1 0 + copyBase x k + off) n
  else readSpace s x.sid (65536 * copyBase x k + off) n

/-- The unit read of bytes of a state copy in a state store (17 R541). -/
def noteCopy (s : State) (x : Slot) (k : Bool) (off n : Nat) : State :=
  if x.resid == 1 && (slotOf s x.sid).isSome then unitRead s x.core (t0Addr x.core 1 0 + copyBase x k + off) n else s

/-- Writes bytes of a state copy. -/
def writeCopy (s : State) (x : Slot) (k : Bool) (off : Nat) (data : List Byte) (poison : List Bool) : Option State :=
  if x.resid == 1 then some { s with t0 := s.t0.store (t0Addr x.core 1 0 + copyBase x k + off) data poison }
  else writeSpace s x.sid (65536 * copyBase x k + off) 1 0 data poison

end Sys2Proof.Machine
end

