-- ==== Sys2Proof/Machine/Operands.lean ====
section
/-! DEFINITION. Tensor operands: descriptors, block lists, spaces, and the bytes behind them (13 R407-R411, R417, R418;
12 R374-R376; 02 R49-R51; 14 R471). -/
namespace Sys2Proof.Machine

/-- Where a command or layer-program entry stands: its command, the sequence and member it works for, the spill and scratch
areas, the ranges of the working copy that this step has written, and the core that does the work (13 R417, R418). -/
structure Ctx where
  q : Nat
  n : Nat
  prog : Bool := false
  sid : Option Nat := none
  r : Nat := 0
  spill : Nat := 0
  scratch : Nat := 0
  written : List (Nat × Nat) := []
  core : Nat := 0
  deriving DecidableEq, Repr

/-- The context of a taken command. -/
def Job.ctx (j : Job) : Ctx := { q := j.q, n := j.n }

/-- What an operand is used for (02 R50, R51; 13 R410). -/
inductive Use where
  | weight | act | aout | vin | qkv | vout | decay | state | index | any | copyDst | copySame | fillDst
  deriving DecidableEq, Repr

/-- The formats that a use admits (02 R50, R51). -/
def Use.ok (u : Use) (f : Fmt) : Bool :=
  match u with
  | .weight => f.okWeight
  | .act => f.okAct
  | .aout => f.okOut
  | .vin => f.okVin
  | .qkv => f.okVin && f.okAct
  | .vout => f.okVout
  | .decay => f.okDecay
  | .state => f.okState
  | .index => f == .int32
  | .any => true
  | .copySame => true
  | .copyDst => f.okVout || f == .int4 || f == .log16x2 || f == .log16x3
  | .fillDst => f.okVout || f == .int4

/-- One run of a block list: the sequence of a page space or T1, the address and the length (12 R374). -/
structure Run where
  sid : Option Nat
  addr : Nat
  len : Nat
  deriving DecidableEq, Repr

/-- A tensor operand (13 R407-R411). `runs` are the runs of a block list; `bytes` is how many bytes of the stream they give;
`lost` says that what lies beyond is poisoned rather than malformed (12 R376). -/
structure Tensor where
  fmt : Fmt
  dmode : Nat
  path : Nat
  sat : Bool
  space : Nat
  list : Bool
  addr : Nat
  aux : Nat
  auxVal : Nat
  d0 : Nat
  d1 : Nat
  d2 : Nat
  d3 : Nat
  runs : List Run
  bytes : Nat
  lost : Bool
  deriving DecidableEq, Repr

/-- Bytes of one innermost row of one plane (13 R409). -/
def rowBytes (f : Fmt) (d0 : Nat) : Nat := cdiv (d0 * f.bits) 8
/-- Bytes from one plane to the next. -/
def planeStep (f : Fmt) (d0 rows : Nat) : Nat := if f.planes == 1 then rowBytes f d0 * rows else roundUp (rowBytes f d0 * rows) 64
/-- Rows: the product of the outer extents. -/
def Tensor.rows (t : Tensor) : Nat := t.d1 * t.d2 * t.d3
/-- Elements. -/
def Tensor.count (t : Tensor) : Nat := t.d0 * t.rows
/-- Bytes of the dense layout. -/
def Tensor.dense (t : Tensor) : Nat := planeStep t.fmt t.d0 t.rows * t.fmt.planes
/-- Scale bytes of a LOG8 row (02 R60). -/
def scaleRow (d0 : Nat) : Nat := cdiv d0 32

/-! ### Block lists (12 R374-R376) -/

/-- One block descriptor, checked: run length, counts, strides, space and link, or `none` when a field is reserved. -/
structure Block where
  sid : Option Nat
  addr : Nat
  run : Nat
  c1 : Nat
  c2 : Nat
  s1 : Int
  s2 : Int
  link : Nat
  next : Int
  deriving DecidableEq, Repr

/-- Reads a block descriptor (12 R374). -/
def readBlock (s : State) (a : Nat) : Option Block :=
  let w (o n : Nat) : Nat := s.rd (a + o) n
  let ctl := w 0x0C 4
  let sp := fld ctl 0 2
  let addr := fld (w 0 8) 0 48
  let run := fld (w 8 4) 0 25
  let sid := fld ctl 4 20
  let ok := fld (w 0 8) 48 16 == 0 && fld (w 8 4) 25 7 == 0 && fld ctl 24 8 == 0 && decide (sp < 2) &&
    decide (fld ctl 2 2 < 3) && decide (0 < run) && decide (run ≤ 16777216) && (sp == 1 || sid == 0) &&
    (sp == 0 || fld addr 40 8 == 0) && (fld ctl 2 2 == 2 || w 0x1C 4 == 0)
  if ok then
    some ⟨if sp == 1 then some sid else none, addr, run, fld (w 0x10 4) 0 16 + 1, fld (w 0x10 4) 16 16 + 1, sgn 32 (w 0x14 4),
      sgn 32 (w 0x18 4), fld ctl 2 2, sgn 32 (w 0x1C 4)⟩
  else none

/-- How a walk ended: complete, malformed, a page space not the queue's, or a poisoned descriptor. -/
inductive WalkEnd where
  | ok | bad | owner (sid : Nat) | lost
  deriving DecidableEq, Repr

/-- The runs of one block for a stream with `left` bytes to go, while each lies in its space (12 R375, R376). -/
def blockRuns (b : Block) : Nat → Nat → Nat → List Run × Nat × Bool
  | 0, _, left => ([], left, true)
  | f + 1, i, left =>
    if left == 0 || i == b.c1 * b.c2 then ([], left, true)
    else
      let a : Int := (b.addr : Int) + ((i / b.c1 : Nat) : Int) * b.s2 + ((i % b.c1 : Nat) : Int) * b.s1
      let k := min b.run left
      let top : Int := if b.sid.isSome then 2 ^ 40 else 2 ^ 48
      if a < 0 ∨ top < a + k then ([], left, false)
      else
        let r := blockRuns b f (i + 1) (left - k)
        (⟨b.sid, a.toNat, k⟩ :: r.1, r.2)

/-- Walks a block list for a stream of `left` bytes (12 R375); each block emits a byte, so `left` bounds the blocks. -/
def walk (s : State) (q : Nat) : Nat → Nat → Nat → List Run × Nat × WalkEnd
  | 0, _, left => ([], left, if left == 0 then .ok else .bad)
  | f + 1, a, left =>
    if left == 0 then ([], 0, .ok)
    else if 2 ^ 48 < a + 32 then ([], left, .bad)
    else if s.t1.anyPoison a 32 then ([], left, .lost)
    else match readBlock s a with
    | none => ([], left, .bad)
    | some b =>
      let own := match b.sid with
        | none => true
        | some sid => match seqRec s sid with | some x => x.owner == q | none => false
      if !own then ([], left, .owner (b.sid.getD 0))
      else
        let r := blockRuns b left 0 left
        if !r.2.2 then (r.1, r.2.1, .bad)
        else if r.2.1 == 0 then (r.1, 0, .ok)
        else match b.link with
        | 0 => (r.1, r.2.1, .bad)
        | 1 => let u := walk s q f (a + 32) r.2.1; (r.1 ++ u.1, u.2)
        | _ =>
          let a' : Int := (a : Int) + 32 * b.next
          if a' < 0 then (r.1, r.2.1, .bad)
          else let u := walk s q f a'.toNat r.2.1; (r.1 ++ u.1, u.2)

/-! ### Descriptors -/

/-- Why an operand is refused (13 R440, R441). -/
structure Bad where
  cause : Nat
  detail : Nat
  aux : Nat
  deriving DecidableEq, Repr

/-- A bad field in a referenced structure. -/
def badRef (a : Nat) : Bad := ⟨1, 0xFF, a % 2 ^ 32⟩
/-- A bad field of the command itself. -/
def badField (o : Nat) : Bad := ⟨1, o, 0⟩

/-- The auxiliary fields allowed for a format in a use (13 R410): whether an address, whether a value. -/
def auxRule (u : Use) (f : Fmt) (path : Nat) : Bool × Nat :=
  match f with
  | .log8 => (true, 0)
  | .int32 => (u == .aout, 0)
  | .int4 =>
    if u == .weight && path == 1 then (true, 0x3F) else if u == .act || u == .qkv then (false, 0xFFFF)
    else if u == .copyDst || u == .copySame || u == .fillDst then (false, 0xFFFF) else (false, 0)
  | .int2 => if u == .weight && path == 1 then (true, 0x3F) else (false, 0)
  | .int8 =>
    if u == .weight && path == 2 then (true, 0)
    else if u == .act || u == .qkv || u == .aout || u == .vout || u == .copyDst || u == .copySame || u == .fillDst then (false, 0xFFFF) else (false, 0)
  | _ => (false, 0)

/-- The output scale of an integer output is finite and not zero (02 R73). The destination of an equal-format COPY, which uses no scale, is
not held to it (DESIGN CHOICE, log 35). -/
def scaleOk (u : Use) (f : Fmt) (σ : Nat) : Bool :=
  if (u == .aout || u == .vout || u == .copyDst || u == .fillDst) && (f == .int8 || f == .int4) then
    (match dec16 σ with | .fin .. => true | _ => false)
  else true

/-- The paths allowed for a format in a use (13 R407; 02 R74, R76, R77). -/
def pathRule (u : Use) (f : Fmt) (path : Nat) : Bool :=
  path == 0 || (path == 1 && u == .weight && (f == .int4 || f == .int2)) ||
    (path == 2 && ((u == .weight && f == .int8) || ((u == .act || u == .qkv) && (f == .int8 || f == .int4))))

/-- The state bytes per copy of the sequence that a context works for. -/
def stateSize (s : State) (x : Ctx) : Nat :=
  match x.sid.bind (seqRec s) with | some y => y.size | none => 0

/-- Where member or scratch data starts in T1 (13 R407, R418). -/
def Tensor.base (t : Tensor) (x : Ctx) : Nat :=
  if t.space == 1 then t.addr + x.r * roundUp t.dense 64
  else if t.space == 3 then x.spill + x.r * x.scratch + t.addr
  else t.addr

/-- Where an auxiliary plane of `len` bytes starts in T1 (13 R410, R418). -/
def Tensor.auxBase (x : Ctx) (t : Tensor) (len : Nat) : Nat :=
  if t.space == 1 then t.aux + x.r * roundUp len 64
  else if t.space == 3 then x.spill + x.r * x.scratch + t.aux
  else t.aux

/-- An auxiliary plane of `len` bytes lies in its space (12 R376; 13 R410, R418). -/
def Tensor.auxFits (s : State) (x : Ctx) (t : Tensor) (len : Nat) : Bool :=
  len == 0 ||
    (if t.space == 2 then decide (t.aux + len ≤ stateSize s x)
    else decide (t.auxBase x len + len ≤ 2 ^ 48) && (t.space != 3 || decide (t.aux + len ≤ x.scratch)))

/-- Bytes of the scale plane of a LOG8 tensor (02 R60). -/
def Tensor.scaleLen (t : Tensor) : Nat := if t.fmt == .log8 then scaleRow t.d0 * t.rows else 0

/-- Reads and checks a tensor reference at body offset `o` of a command or entry of context `x` (13 R407-R411). The walk of a
block list is made here; what it gives beyond an error is found when a tile needs it. -/
def tensor (s : State) (x : Ctx) (u : Use) (r : Nat) : Except Bad Tensor :=
  let da := fld r 0 48
  if da % 32 != 0 then .error (badRef da)
  else
    let w0 := s.rd da 8
    let w1 := s.rd (da + 8) 8
    let ctl := fld w0 48 16
    let dim (i : Nat) : Nat := s.rd (da + 16 + 4 * i) 4
    match fmtOf (fld ctl 0 5) with
    | none => .error (badRef da)
    | some f =>
      let sp := fld ctl 14 2
      let list := bit ctl 9
      let path := fld ctl 10 2
      let dm := fld ctl 12 2
      let ar := auxRule u f path
      let dimOk := (tab 4 dim).all fun d => decide (0 < d) && decide (d ≤ 2 ^ 24)
      let ok := u.ok f && dimOk && fld ctl 5 3 == 0 && (dm == 0 || f == .dlog32) && decide (dm < 3) && (!list || sp == 0) &&
        (sp == 0 || x.prog || (sp == 2 && x.sid.isSome)) && pathRule u f path &&
        (ar.1 || fld w1 0 48 == 0) && fld w1 48 16 &&& ar.2 == fld w1 48 16 && scaleOk u f (fld w1 48 16)
      if !ok then .error (badRef da)
      else
        let t : Tensor := ⟨f, dm, path, bit ctl 8, sp, list, fld w0 0 48, fld w1 0 48, fld w1 48 16, dim 0, dim 1, dim 2, dim 3,
          [], 0, false⟩
        let n := t.dense
        if !t.auxFits s x (if f == .int32 && t.aux != 0 then 2 * t.count else t.scaleLen) then .error (badRef da)
        else if list then
          let k := walk s x.q n t.addr n
          match k.2.2 with
          | .owner sid => if k.1.isEmpty then .error ⟨3, 0, sid⟩ else .ok { t with runs := k.1, bytes := n - k.2.1 }
          | .lost => .ok { t with runs := k.1, bytes := n - k.2.1, lost := true }
          | _ => .ok { t with runs := k.1, bytes := n - k.2.1 }
        else if sp != 2 && decide (2 ^ 48 < t.base x + n) then .error (badRef da)
        else if sp == 3 && decide (x.scratch < t.addr + n) then .error (badRef da)
        else if sp == 2 && decide (stateSize s x < t.addr + n) then .error (badRef da)
        else .ok { t with bytes := n }

/-- A reference that may be 0 for none. -/
def tensorOpt (s : State) (x : Ctx) (u : Use) (r : Nat) : Except Bad (Option Tensor) :=
  if fld r 0 48 == 0 then .ok none
  else match tensor s x u r with | .ok t => .ok (some t) | .error e => .error e

/-! ### Reading -/

/-- The copy of a step pair that a stream access of a step command goes to (14 R471). -/
def redirect (s : State) (step write : Bool) (a : Nat) : Nat :=
  let c := s.cas
  if step && c.state == 2 && c.commitEn then
    match (List.range 16).find? fun i =>
        let b := c.pair.get (8 * i) 0
        decide (b ≤ a) && decide (a < b + c.pair.get (8 * i + 2) 0) with
    | none => a
    | some i =>
      let b0 := c.pair.get (8 * i) 0
      let b1 := c.pair.get (8 * i + 1) 0
      let record1 := c.step % 2 == 1
      if record1 != write then a - b0 + b1 else a
  else a

/-- A landed unit still stands in its buffer and the T0 word of its byte `i` is uncorrectable (07 R233; 12 R387). -/
def Landed.lost (s : State) (e : Landed) (i : Nat) : Bool :=
  decide (landNext s e.core e.stage ≤ e.place + landUnits e.stage) &&
    s.t0.ue.contains ((landAt e.core e.stage e.place e.addr + i) / 8)
/-- Byte `i` of a landed unit and its poison; an uncorrectable word reads as zero. -/
def Landed.byte (s : State) (e : Landed) (i : Nat) : Byte × Bool :=
  if e.bad || e.lost s i then (0, true) else (e.data.getD i 0, false)

/-- A byte that a fetch has landed, if one did: on the core that asks before any other. -/
def landedByte (s : State) (l : List Landed) (core a : Nat) : Option (Byte × Bool) :=
  let hit (e : Landed) : Bool := decide (e.addr ≤ a) && decide (a < e.addr + e.data.length)
  match l.find? fun e => e.core == core && hit e with
  | some e => some (e.byte s (a - e.addr))
  | none => (l.find? hit).map fun e => e.byte s (a - e.addr)

/-- Bytes of memory from `a`, those that a command's fetches have landed taken from T0. -/
def overLanded (s : State) (l : List Landed) (core a : Nat) (f : List Byte × List Bool) : List Byte × List Bool :=
  if l.isEmpty then f
  else
    let r := (f.1.zip f.2).zipIdx.map fun y => (landedByte s l core (a + y.2)).getD y.1
    (r.map Prod.fst, r.map Prod.snd)

/-- Bytes of one 64-byte unit's part of T1 space, as a command reads them. -/
def readPart (s : State) (landed : List Landed) (core : Nat) (step : Bool) (a n : Nat) : List Byte × List Bool :=
  let a := redirect s step false a
  match reach s a n with
  | .here b => overLanded s landed core b (s.t1.fetch b n)
  | .rank .. =>
    let l := tab n fun i => (landedByte s landed core (a + i)).getD (0, true)
    (l.map Prod.fst, l.map Prod.snd)
  | .gone => (List.replicate n 0, List.replicate n true)

/-- The parts of a run that lie in one 64-byte unit each. -/
def cut64 : Nat → Nat → Nat → List (Nat × Nat)
  | 0, _, _ => []
  | f + 1, a, n =>
    if n == 0 then []
    else let k := min n (64 - a % 64); (a, k) :: cut64 f (a + k) (n - k)

/-- Bytes of T1 space as a command reads them: step pairs redirected, apertures and fetch-ahead served from what landed
(14 R447, R471; 12 R381). -/
def readT1 (s : State) (x : Ctx) (a n : Nat) : List Byte × List Bool :=
  match s.job x.q x.n with
  | none => s.t1.fetch a n
  | some j =>
    if !j.stepCmd && j.fetched.isEmpty && !bit a 47 then s.t1.fetch a n
    else
      (cut64 (n / 64 + 2) a n).foldl (fun acc p =>
        let r := readPart s j.fetched x.core j.stepCmd p.1 p.2
        (acc.1 ++ r.1, acc.2 ++ r.2)) ([], [])

/-- What the fetches of a context's command have landed. -/
def landedOf (s : State) (x : Ctx) : List Landed := match s.job x.q x.n with | some j => j.fetched | none => []

/-- Bytes of one page of a page space as a command reads them. -/
def readPageOf (s : State) (x : Ctx) (sid vpn off n : Nat) : List Byte × List Bool :=
  let f := readPage s sid vpn off n
  match landedOf s x, seqRec s sid with
  | [], _ => f
  | _, none => f
  | l, some y => match lookup s y.root (seqFam s y) vpn with
    | none => f
    | some d => if (getDesc s d).poison then f else overLanded s l x.core (pageAddr s d + off) f

/-- Bytes of a page space as a command reads them. -/
def readSpaceOf (s : State) (x : Ctx) (sid a n : Nat) : List Byte × List Bool :=
  (spans a n).foldl (fun acc p =>
    let r := readPageOf s x sid p.1 p.2.1 p.2.2.2
    (acc.1 ++ r.1, acc.2 ++ r.2)) ([], [])

/-- The part of a stream range that a list of runs gives. -/
def readRuns' (s : State) (x : Ctx) : List Run → Nat → Nat → List Byte × List Bool
  | [], _, _ => ([], [])
  | r :: rs, o, n =>
    if n == 0 then ([], [])
    else if r.len ≤ o then readRuns' s x rs (o - r.len) n
    else
      let k := min n (r.len - o)
      let a := match r.sid with
        | none => readT1 s x (r.addr + o) k
        | some sid => readSpaceOf s x sid (r.addr + o) k
      let b := readRuns' s x rs 0 (n - k)
      (a.1 ++ b.1, a.2 ++ b.2)

/-- A byte run filled up with poisoned zero bytes to `n`. -/
def padPoison (n : Nat) (r : List Byte × List Bool) : List Byte × List Bool :=
  (r.1 ++ List.replicate (n - r.1.length) 0, r.2 ++ List.replicate (n - r.2.length) true)

/-- Bytes of the state copy as this entry sees them: the copy of record, but what the step has already written (13 R417,
06 R191). -/
def readState (s : State) (x : Ctx) (off n : Nat) : List Byte × List Bool :=
  match x.sid.bind (seqRec s) with
  | none => padPoison n ([], [])
  | some y =>
    let a := if y.resid == 1 then readCopy s y y.sel off n else readSpaceOf s x y.sid (65536 * copyBase y y.sel + off) n
    if x.written.isEmpty then a
    else
      let b := readCopy s y (!y.sel) off n
      let w (i : Nat) : Bool := x.written.any fun r => decide (r.1 ≤ off + i) && decide (off + i < r.1 + r.2)
      ((a.1.zip b.1).zipIdx.map fun z => if w z.2 then z.1.2 else z.1.1,
        (a.2.zip b.2).zipIdx.map fun z => if w z.2 then z.1.2 else z.1.1)

/-- The unit reads of the copy of record that tensors in STATE space take (17 R541). -/
def noteState (s : State) (x : Ctx) (ins : List Tensor) : State :=
  ins.foldl (fun s t =>
    if t.space == 2 && !t.list then
      match x.sid.bind (seqRec s) with
      | some y => noteCopy (noteCopy s y y.sel t.addr t.dense) y y.sel t.aux (if t.fmt == .log8 then scaleRow t.d0 * t.rows else 0)
      | none => s
    else s) s

/-- Bytes `o` to `o + n - 1` of a tensor's stream. -/
def Tensor.read (s : State) (x : Ctx) (t : Tensor) (o n : Nat) : List Byte × List Bool :=
  if t.list then padPoison n (readRuns' s x t.runs o n)
  else if t.space == 2 then readState s x (t.addr + o) n
  else readT1 s x (t.base x + o) n

/-- Bytes of an auxiliary plane of `len` bytes (13 R410). -/
def Tensor.readAux (s : State) (x : Ctx) (t : Tensor) (len o n : Nat) : List Byte × List Bool :=
  if t.space == 2 && !t.list then readState s x (t.aux + o) n else readT1 s x (t.auxBase x len + o) n

/-- The byte range of element `e` in plane `p`: offset, bytes, first bit. -/
def Tensor.at (t : Tensor) (e p : Nat) : Nat × Nat × Nat :=
  let row := e / t.d0
  let col := e % t.d0
  let b := col * t.fmt.bits
  (p * planeStep t.fmt t.d0 t.rows + row * rowBytes t.fmt t.d0 + b / 8, cdiv t.fmt.bits 8, b % 8)

/-- The stream gives every byte of element `e`, or what is missing is poison: else the walk is malformed there (12 R376). -/
def Tensor.gives (t : Tensor) (e : Nat) : Bool :=
  !t.list || t.lost || (List.range t.fmt.planes).all fun p => let a := t.at e p; decide (a.1 + a.2.1 ≤ t.bytes)

/-- The code of element `e` in plane `p` and its poison (12 R388). -/
def Tensor.raw (s : State) (x : Ctx) (t : Tensor) (e p : Nat) : Nat × Bool :=
  let a := t.at e p
  let r := t.read s x a.1 a.2.1
  let bad := r.2.any id
  (if bad then 0 else fld (ofLe r.1) a.2.2 t.fmt.bits, bad)

/-- The scale byte of a LOG8 element and its poison (02 R60). -/
def Tensor.scale (s : State) (x : Ctx) (t : Tensor) (e : Nat) : Nat × Bool :=
  if t.fmt == .log8 then
    let k := scaleRow t.d0
    let r := t.readAux s x (k * t.rows) (e / t.d0 * k + e % t.d0 / 32) 1
    (ofLe r.1, r.2.any id)
  else (0, false)

/-- Element `e` read as FP32 for the vector side: code, flags, poison; a poisoned element reads as the all-zero encoding of its
format (07 R227, 12 R388). -/
def Tensor.vec (s : State) (x : Ctx) (logMode : Bool) (t : Tensor) (e : Nat) : Nat × Flags × Bool :=
  let c := t.raw s x e 0
  let k := t.scale s x e
  let lost := c.2 || k.2
  let v := if lost then vin t.fmt logMode 0 0 else vin t.fmt logMode k.1 c.1
  (v.1, v.2, lost)

/-- The values of an INT32 list. -/
def Tensor.ints (s : State) (x : Ctx) (t : Tensor) : List Nat := tab t.d0 fun i => (t.raw s x i 0).1

/-! ### Writing -/

/-- Bits of an element that lie before a byte `k` further on. -/
def phaseAt (eb ph k : Nat) : Nat := if eb == 0 then 0 else (ph + 8 * k) % eb

/-- The writes of a stream range into runs. -/
def runWrites : List Run → Nat → List Byte → List Bool → Nat → Nat → List Wr
  | [], _, _, _, _, _ => []
  | r :: rs, o, d, p, eb, ph =>
    if d.isEmpty then []
    else if r.len ≤ o then runWrites rs (o - r.len) d p eb ph
    else
      let k := min d.length (r.len - o)
      ⟨match r.sid with | none => .t1 | some sid => .paged sid, r.addr + o, d.take k, p.take k, eb, ph⟩ ::
        runWrites rs 0 (d.drop k) (p.drop k) eb (phaseAt eb ph k)

/-- A write into a state copy: the state store of a RESIDENT sequence, its park pages while it is parked, or the page space of a
STREAMED one. -/
def copyWrite (s : State) (y : Slot) (k : Bool) (off : Nat) (d : List Byte) (p : List Bool) (eb : Nat) : Wr :=
  if y.resid == 1 && (slotOf s y.sid).isNone then ⟨.paged y.sid, parkBase y + off, d, p, eb, 0⟩
  else if y.resid == 1 then ⟨.store y.core, copyBase y k + off, d, p, eb, 0⟩
  else ⟨.paged y.sid, 65536 * copyBase y k + off, d, p, eb, 0⟩

/-- The writes of bytes `d` at offset `o` of a tensor's stream. In a layer program STATE space is the working copy; for COPY,
FILL and SCAN it is the copy of record (13 R416-R420). -/
def Tensor.put (s : State) (x : Ctx) (t : Tensor) (o : Nat) (d : List Byte) (p : List Bool) : List Wr :=
  if t.list then runWrites t.runs o d p t.fmt.bits 0
  else if t.space == 2 then
    match x.sid.bind (seqRec s) with
    | none => []
    | some y => [copyWrite s y (y.sel != x.prog) (t.addr + o) d p t.fmt.bits]
  else [⟨.t1, t.base x + o, d, p, t.fmt.bits, 0⟩]

/-- The writes of an auxiliary plane. -/
def Tensor.putAux (s : State) (x : Ctx) (t : Tensor) (len o : Nat) (d : List Byte) (p : List Bool) (eb : Nat) : List Wr :=
  if t.space == 2 && !t.list then
    match x.sid.bind (seqRec s) with
    | none => []
    | some y => [copyWrite s y (y.sel != x.prog) (t.aux + o) d p eb]
  else if t.space == 1 then [⟨.t1, t.aux + x.r * roundUp len 64 + o, d, p, eb, 0⟩]
  else if t.space == 3 then [⟨.t1, x.spill + x.r * x.scratch + t.aux + o, d, p, eb, 0⟩]
  else [⟨.t1, t.aux + o, d, p, eb, 0⟩]

/-- Codes of `bits` bits packed into bytes, lowest first; the last byte is filled with zeros (02 R56). -/
def packCodes (bits : Nat) (cs : List Nat) : List Byte :=
  let n := cdiv (cs.length * bits) 8
  leBytes n (cs.reverse.foldl (fun a c => a * 2 ^ bits + c % 2 ^ bits) 0)

/-- The poison of packed bytes. -/
def packPoison (bits : Nat) (ps : List Bool) : List Bool :=
  if 8 ≤ bits then ps.flatMap fun b => List.replicate (bits / 8) b
  else tab (cdiv (ps.length * bits) 8) fun i => ((ps.drop (i * (8 / bits))).take (8 / bits)).any id

/-- The writes of consecutive codes of one row of one plane, from column `col`. -/
def Tensor.putRow (s : State) (x : Ctx) (t : Tensor) (row col p : Nat) (cs : List (Nat × Bool)) : List Wr :=
  let o := p * planeStep t.fmt t.d0 t.rows + row * rowBytes t.fmt t.d0 + col * t.fmt.bits / 8
  t.put s x o (packCodes t.fmt.bits (cs.map Prod.fst)) (packPoison t.fmt.bits (cs.map Prod.snd))

/-- Cuts a list into pieces of `k`. -/
def chunksOf {α : Type} (k : Nat) : Nat → List α → List (List α)
  | 0, _ => []
  | f + 1, l => if l.isEmpty then [] else l.take k :: chunksOf k f (l.drop k)

/-- The writes of a row of LOG16 values to a LOG8 tensor, with their scale bytes and the flags of each conversion
(02 R61, R62, R67). The run starts on a block. -/
def Tensor.putLog8 (s : State) (x : Ctx) (t : Tensor) (row col : Nat) (cs : List (Nat × Bool)) : List Wr × List Flags :=
  let bl := chunksOf 32 (cs.length + 1) cs
  let sc := bl.map fun b => log8Scale (b.map Prod.fst)
  let el := (bl.zip sc).flatMap fun z => z.1.map fun c => (log16To8 c.1 z.2, c.2)
  let k := scaleRow t.d0
  (t.putRow s x row col 0 (el.map fun e => (e.1.1, e.2)) ++
    t.putAux s x (k * t.rows) (row * k + col / 32) (sc.map (BitVec.ofNat 8)) (bl.map fun b => b.any Prod.snd) 0,
   el.map fun e => e.1.2)

/-- Output codes of one row segment (already in the format; LOG16 values for LOG8) as writes with the flags of a late LOG8
conversion. -/
def Tensor.putOut (s : State) (x : Ctx) (t : Tensor) (row col : Nat) (cs : List (Nat × Bool)) : List Wr × List Flags :=
  if t.fmt == .log8 then t.putLog8 s x row col cs else (t.putRow s x row col 0 cs, cs.map fun _ => f0)

/-- Elements among the writes of a tile that are poisoned. -/
def poisonCount (cs : List (Nat × Bool)) : Nat := (cs.filter Prod.snd).length

/-! ### Extents for ordering and paging -/

/-- The pages of sequences that a tensor touches: through its block list or a STREAMED state copy. -/
def Tensor.pages (s : State) (x : Ctx) (t : Tensor) : List (Nat × Nat) :=
  if t.list then t.runs.flatMap fun r => match r.sid with
    | none => []
    | some sid => (spans r.addr r.len).map fun p => (sid, p.1)
  else if t.space == 2 then
    match x.sid.bind (seqRec s) with
    | none => []
    | some y => if y.resid == 1 then
        (if (slotOf s y.sid).isSome then [] else (spans (parkBase y + t.addr) t.dense).map fun p => (y.sid, p.1))
      else (spans (65536 * copyBase y (y.sel != x.prog) + t.addr) t.dense).map fun p => (y.sid, p.1)
  else []

/-- The T1 ranges that a tensor covers. -/
def Tensor.ranges (x : Ctx) (t : Tensor) : List (Nat × Nat) :=
  if t.list then t.runs.filterMap fun r => if r.sid.isNone then some (r.addr, r.len) else none
  else if t.space == 2 then []
  else [(t.base x, t.dense)]

/-- The T1 range of an auxiliary plane of `len` bytes. -/
def Tensor.auxRange (x : Ctx) (t : Tensor) (len : Nat) : List (Nat × Nat) :=
  if len == 0 || (t.space == 2 && !t.list) then [] else [(t.auxBase x len, len)]

/-- The T1 ranges that an input tensor is read from: its data and its scale plane. -/
def Tensor.source (x : Ctx) (t : Tensor) : List (Nat × Nat) := t.ranges x ++ t.auxRange x t.scaleLen

/-- A bound on the bytes of any auxiliary plane of a tensor. -/
def Tensor.auxBound (t : Tensor) : Nat :=
  if t.fmt == .log8 then t.scaleLen
  else if t.aux == 0 then 0
  else if t.fmt == .int32 then 2 * t.count
  else 4 * max (max t.d0 t.d1) (max t.d2 t.d3)

/-! ### Transfers of operands (12 R377, R381) -/

/-- The runs that a tensor's stream is read from: its block list, a `STREAMED` state copy of record or the park pages of a parked one, or T1. -/
def Tensor.inRuns (s : State) (x : Ctx) (t : Tensor) : List Run :=
  if t.list then t.runs
  else if t.space == 2 then match x.sid.bind (seqRec s) with
    | none => []
    | some y =>
      if y.resid != 1 then [⟨some y.sid, 65536 * copyBase y y.sel + t.addr, t.dense⟩]
      else if (slotOf s y.sid).isNone then [⟨some y.sid, parkBase y + t.addr, t.dense⟩] else []
  else [⟨none, t.base x, t.dense⟩]

/-- The transfers that bytes `o` to `o + n - 1` of some runs take: every run cut at 256-byte addresses. -/
def runPieces : List Run → Nat → Nat → List Run
  | [], _, _ => []
  | r :: rs, o, n =>
    if n == 0 then []
    else if r.len ≤ o then runPieces rs (o - r.len) n
    else
      let k := min n (r.len - o)
      let b := (r.addr + o) / 256
      (tab ((r.addr + o + k - 1) / 256 + 1 - b) fun i =>
        let lo := max (256 * (b + i)) r.addr
        ⟨r.sid, lo, min (256 * (b + i + 1)) (r.addr + r.len) - lo⟩) ++ runPieces rs 0 (n - k)

/-- Where a piece of a run lies in T1 space: a page's piece at its frame, none where no page is mapped or the page is poisoned; step pairs
redirected by 64-byte units (10 R319; 14 R471). -/
def Run.place (s : State) (x : Ctx) (r : Run) : List (Nat × Nat) :=
  match r.sid with
  | none => match s.job x.q x.n with
    | some j => if j.stepCmd then (cut64 (r.len / 64 + 2) r.addr r.len).map fun p => (redirect s true false p.1, p.2) else [(r.addr, r.len)]
    | none => [(r.addr, r.len)]
  | some sid => match seqRec s sid with
    | none => []
    | some y => match lookup s y.root (seqFam s y) (r.addr / 65536) with
      | none => []
      | some d => if (getDesc s d).poison then [] else [(pageAddr s d + r.addr % 65536, r.len)]

/-- The pieces of runs that element `e` of a tensor takes, its LOG8 scale among them. -/
def Tensor.elemPieces (s : State) (x : Ctx) (t : Tensor) (e : Nat) : List Run :=
  let k := scaleRow t.d0
  ((List.range t.fmt.planes).flatMap fun p => let a := t.at e p; runPieces (t.inRuns s x) a.1 a.2.1) ++
    (if t.fmt != .log8 || (t.space == 2 && !t.list) then []
      else runPieces [⟨none, t.auxBase x (k * t.rows), k * t.rows⟩] (e / t.d0 * k + e % t.d0 / 32) 1)

/-- What one part of a command reads: the part, its core, the elements, and runs beside them. -/
structure Part where
  unit : Nat
  core : Nat
  elems : List (Tensor × Nat)
  runs : List Run := []

/-- The transfers that pieces of runs take for a part of a command, each once. -/
def runsTake (s : State) (x : Ctx) (unit core : Nat) (stage : Bool) (l : List Run) : List Piece :=
  (l.eraseDups.flatMap fun r => r.place s x).eraseDups.map fun p => ⟨unit, core, p.1, p.2, stage⟩

/-- The pages of sequences that some runs lie in. -/
def runPages (l : List Run) : List (Nat × Nat) := (l.filterMap fun r => r.sid.map fun a => (a, r.addr / 65536)).eraseDups

/-- The element of a tensor in STATE space. -/
def inState (q : Tensor × Nat) : Bool := q.1.space == 2 && !q.1.list
/-- The runs that the elements of a part take. -/
def Part.elemRuns (s : State) (x : Ctx) (p : Part) (f : Tensor × Nat → Bool) : List Run :=
  ((p.elems.filter f).flatMap fun q => q.1.elemPieces s x q.2).eraseDups
/-- The pages that a part reads, its elements' and its other runs'. -/
def Part.pages (s : State) (x : Ctx) (p : Part) : List (Nat × Nat) := runPages (p.elemRuns s x (fun _ => true) ++ p.runs)

/-- The transfers of a part: the state of a `STREAMED` sequence lands in the staging area of the state store (06 R195). -/
def Part.pieces (s : State) (x : Ctx) (p : Part) : List Piece :=
  runsTake s x p.unit p.core false (p.elemRuns s x (fun q => !inState q) ++ p.runs) ++
    runsTake s x p.unit p.core true (p.elemRuns s x inState)

/-- A context on the core of vector block `k` (07 R219). -/
def Ctx.atBlock (x : Ctx) (k : Nat) : Ctx := { x with core := k % Config.cores }
/-- All elements of a tensor. -/
def Tensor.all (t : Tensor) : List (Tensor × Nat) := tab t.count fun e => (t, e)

end Sys2Proof.Machine
end

