-- ==== Sys2Proof/Machine/Commit.lean ====
section
/-! DEFINITION. Committing output: writes to the places an output names, and the end of a command whose work is done
(03 R98; 12 R377-R389; 13 R423-R425). -/
namespace Sys2Proof.Machine

/-- One run of an output cut into transfers on a core, with step pairs redirected (12 R377, 14 R471). -/
def cutWr (s : State) (step : Bool) (core : Nat) (w : Wr) : List (Nat × Wr) :=
  let f (l : List (Nat × Nat)) : List (Nat × Wr) :=
    l.map fun p =>
      let o := p.1 - w.addr
      (core, ⟨w.place, redirect s step true p.1, (w.data.drop o).take p.2, (w.poison.drop o).take p.2, w.ebits, phaseAt w.ebits w.phase o⟩)
  if step then f (cut64 (w.data.length / 64 + 2) w.addr w.data.length) else f (pieces w.addr w.data.length)

/-- Transfers wait for tags on their command. -/
def queueWr (s : State) (q n : Nat) (l : List (Nat × Wr)) : State := s.withJob q n fun s j => s.setJob { j with wq := j.wq ++ l }

/-- Bytes stand in memory at once; the command no longer reads what it had fetched from there. -/
def storeNow (s : State) (q n a : Nat) (d : List Byte) (b : List Bool) : State :=
  ({ s with t1 := s.t1.store a d (unitsOf a b) } : State).withJob q n fun s j => s.setJob (j.forget a d.length)

/-- What a step writes to a `STREAMED` working copy passes through the staging area of its core's state store (06 R193, R195). -/
def stageOut (s : State) (core a : Nat) (d : List Byte) (b : List Bool) : State :=
  (cut64 (d.length / 64 + 2) a d.length).foldl (fun s p =>
    let o := p.1 - a
    landBytes s core true p.1 ((d.drop o).take p.2) (((b.drop o).take p.2).any id)) s

/-- The part of a page-space write that lies in one page goes to the page's frame (09 R294, 10 R310). `now` writes it at once, and its transfers
follow. -/
def pagePart (now : Bool) (q n core sid kv : Nat) (w : Wr) (s : State) (p : Nat × Nat × Nat × Nat) : Option State :=
  match seqRec s sid with
  | none => some s
  | some x =>
    let whole := p.2.1 == 0 && p.2.2.2 == 65536
    let kind := if x.resid != 1 && decide (2 ^ 24 - 2 * statePages x ≤ p.1) then 1 else if x.resid == 1 &&
      decide (2 ^ 24 - statePages x ≤ p.1) then 2 else 0
    match ownPage s x.root (seqFam s x) p.1 kind whole with
    | none => none
    | some (r, dd, s) =>
      let s := if r == x.root then s else putSeq s sid { x with root := r }
      let a := pageAddr s dd + p.2.1
      let s := noteWrite s dd kv p.2.1 p.2.2.2
      let d := (w.data.drop p.2.2.1).take p.2.2.2
      let b := (w.poison.drop p.2.2.1).take p.2.2.2
      let v : Wr := ⟨if now then .kept else .t1, a, d, b, w.ebits, phaseAt w.ebits w.phase p.2.2.1⟩
      let s := if now then storeNow (if kind == 1 then stageOut s core a d b else s) q n a d b else s
      some (queueWr s q n (cutWr s false core v))

/-- One output run is written: its transfers are queued, and for a member's layers its bytes stand in memory at once, so that what follows
reads them (DESIGN CHOICE, log 6); `none` when a fresh page is wanted and none is free. -/
def writeRun (now : Bool) (q n core kv : Nat) (s : State) (w : Wr) : Option State :=
  match w.place with
  | .store c => some { s with t0 := s.t0.store (t0Addr c 1 0 + w.addr) w.data w.poison }
  | .paged sid => (spans w.addr w.data.length).foldl (fun o p => o.bind fun s => pagePart now q n core sid kv w s p) (some s)
  | _ =>
    if now then
      match reach s w.addr w.data.length with
      | .here a =>
        let s := storeNow s q n a w.data w.poison
        some (queueWr s q n (cutWr s false core { w with place := .kept, addr := a }))
      | _ => some (queueWr s q n (cutWr s false core w))
    else some (s.withJob q n fun s j => s.setJob { j with wq := j.wq ++ cutWr s j.stepCmd core w })

/-- An act runs on frames and descriptors that its command holds; what it leaves goes back. -/
def withHold {α : Type} (act : State → Option (State × α)) (h : List Nat × List Nat) (s : State) : Option (State × α) :=
  (act { s with pg := { s.pg with allot := some h } }).map fun r =>
    let l := r.1.pg.allot.getD ([], [])
    (l.2.foldl pushDesc (l.1.foldl pushFrame { r.1 with pg := { r.1.pg with allot := none } }), r.2)

/-- An act runs on what its command holds, with one more page at a time; or all the pool has is held for it. -/
def growHold {α : Type} (act : State → Option (State × α)) : Nat → State → List Nat × List Nat →
    Option (State × α) × (List Nat × List Nat) × State
  | k, s, h =>
    match withHold act h s with
    | some r => (some r, ([], []), r.1)
    | none => match k, popPair s with
      | k + 1, some (f, d, s) => growHold act k s (h.1 ++ [f], h.2 ++ [d])
      | _, _ => (none, h, s)

/-- A writer other than a step's member takes fresh pages as they come free, and waits with those it has while none is (10 R327, R567):
the act's result, or the state in which the command stalls with `PAGE_DRY`. -/
def takePages {α : Type} (s : State) (j : Job) (act : State → Option (State × α)) : Option (State × α) × State :=
  let held := !(j.hold.1.isEmpty && j.hold.2.isEmpty)
  match if held then none else act s with
  | some r => (some r, r.1)
  | none =>
    let r := growHold act s.pg.free s j.hold
    let put (s : State) (dry : Bool) : State := s.withJob j.q j.n fun s j => s.setJob { j with hold := r.2.1, dry := dry }
    match r.1 with
    | some v => (some (put v.1 false, v.2), put v.1 false)
    | none => (none, put r.2.2 true)

/-- What a command holds goes back to the pool (10 R331). -/
def dropHold (s : State) (q n : Nat) : State :=
  s.withJob q n fun s j =>
    let s := j.hold.2.foldl pushDesc (j.hold.1.foldl pushFrame s)
    s.withJob q n fun s j => s.setJob { j with hold := ([], []) }

/-- All runs of an output. -/
def writeRuns (now : Bool) (q n core kv : Nat) (s : State) (l : List Wr) : Option State :=
  l.foldl (fun o w => o.bind fun s => writeRun now q n core kv s w) (some s)

/-- The pages that output runs touch. -/
def wrPages (l : List Wr) : List (Nat × Nat) :=
  (l.flatMap fun w => match w.place with
    | .paged sid => (spans w.addr w.data.length).map fun p => (sid, p.1)
    | _ => []).eraseDups

/-- A command whose work is all committed is done; a walk that broke then makes it MALFORMED (12 R376, 13 R440). -/
def settle (s : State) (q n : Nat) : State :=
  s.withJob q n fun s j =>
    if j.phase == .running && j.finished == j.total && j.tiles.isEmpty && j.members.all (fun m => m.phase == .ended) &&
        !(s.cas.buckets.any fun b => b.q == q && b.n == n) then
      match j.fail with
      | some f => malform s j f.1 f.2.1 f.2.2
      | none => s.setJob j.end
    else s

/-- The job runs with the given finished tiles still to commit, in order. -/
def Job.run (j : Job) (tiles : List Tile) : Job :=
  { j with phase := .running, tiles := tiles, total := tiles.length, finished := 0, fetched := [], slotWait := false, dry := false }

/-- The work items that tiles start with go to their home cores (01 R34). -/
def placeTiles (s : State) (q n : Nat) (ts : List Tile) : State :=
  ts.foldl (fun s t => t.items.zipIdx.foldl (fun s c => placeItem s c.1.1 ⟨q, n, 1024 * t.unit + c.2, c.1.2⟩) s) s

/-- Starts a command whose tiles are all computed: its work items are placed; a walk error beyond them is kept for later. -/
def runTiles (s : State) (j : Job) (tiles : List Tile) (fail : Option (Nat × Nat × Nat)) : State :=
  settle (placeTiles (trace (s.setJob { j.run tiles with fail := fail }) 0x02 0 0xFF j.q j.n j.op tiles.length) j.q j.n tiles) j.q j.n

/-- Numbers finished tiles in order. -/
def number (l : List Tile) : List Tile := l.zipIdx.map fun t => { t.1 with num := t.2 }

/-- The tiles before the first that needs bytes a broken walk does not give (12 R376). -/
def cutBad (ok : Tile → Bool) (l : List Tile) : List Tile := l.takeWhile ok

end Sys2Proof.Machine
end

