-- ==== Sys2Proof/Machine/Reduce.lean ====
section
/-! DEFINITION. The reduction unit: buckets, chunks, adders, thinning and results (14 R446, R455-R469). -/
namespace Sys2Proof.Machine

/-- The group size N (14 R442). -/
def Cascade.ranks (c : Cascade) : Nat := c.size + 1
/-- The fan-in F (14 R442). -/
def Cascade.fan (c : Cascade) : Nat := c.fanin + 1
/-- The parent of this engine (14 R446). -/
def Cascade.parent (c : Cascade) : Nat := (c.rank - 1) / c.fan
/-- The children of this engine, ascending (14 R446). -/
def Cascade.children (c : Cascade) : List Nat := (tab c.fan fun i => c.fan * c.rank + 1 + i).filter fun r => decide (r < c.ranks)

/-- `k` of a thinning code (13 R413). -/
def thinK (code : Nat) : Nat := match code with | 1 => 4 | 2 => 8 | 3 => 16 | 4 => 32 | _ => 0

/-- The element count of a tag (14 R455). -/
def btCount (s : State) (tag : Nat) : Nat := s.rd (s.cas.btab + 32 * tag) 4
/-- A residual address of a tag, copy 0 or 1 (14 R455). -/
def btRes (s : State) (tag : Nat) (one : Bool) : Nat := s.rd (s.cas.btab + 32 * tag + (if one then 16 else 8)) 8
/-- Elements of chunk `num` of a bucket of `count` (14 Buckets). -/
def chunkLen (count num : Nat) : Nat := min 256 (count - 256 * num)
/-- The bucket in flight under a tag. -/
def bucketOf (s : State) (tag : Nat) : Option Bucket := s.cas.buckets.find? fun b => b.tag == tag

/-- The chunk held under a tag and number. -/
def chunkOf (s : State) (tag num : Nat) : Chunk :=
  (s.cas.chunks.find? fun c => c.tag == tag && c.num == num).getD ⟨tag, num, [], false, false⟩
/-- Holds a chunk. -/
def putChunk (s : State) (c : Chunk) : State :=
  { s with cas := { s.cas with chunks := c :: s.cas.chunks.filter fun d => !(d.tag == c.tag && d.num == c.num) } }

/-- A wire value as FP32: BF16 or FP32 (14 R460). -/
def wire32 (priv : Bool) (c : Nat) : Nat := if priv then c else c <<< 16
/-- An FP32 value in wire format, with flags (14 R460, 02 R67). -/
def toWire (priv : Bool) (v : Nat) : Nat × Flags := if priv then (v, 0) else f32ToIeee ieeeBf false v

/-- A full-width chunk as bytes: an absent element as +0 (DEDUCED, log 19). -/
def denseBytes (priv : Bool) (vals : List (Option Nat)) : List Byte :=
  vals.flatMap fun v => leBytes (if priv then 4 else 2) (v.getD 0)
/-- A sparse chunk as entries in ascending index (14 R467). -/
def sparseBytes (vals : List (Option Nat)) : List Byte :=
  vals.zipIdx.flatMap fun v => match v.1 with
    | none => []
    | some c => leBytes 1 v.2 ++ leBytes 1 0 ++ leBytes 2 c

/-- The elements of a received chunk (14 R460, R467, R469). -/
def readChunk (priv sparse : Bool) (n : Nat) (p : List Byte) : List (Option Nat) :=
  if sparse then
    let es := (wordsOf' 4 (p.length / 4) p)
    tab n fun i => (es.find? fun e => fld e 0 8 == i).map fun e => fld e 16 16
  else
    let w := if priv then 4 else 2
    tab n fun i => if (i + 1) * w ≤ p.length then some (ofLe ((p.drop (i * w)).take w)) else none
where
  /-- Words of `w` bytes. -/
  wordsOf' (w : Nat) : Nat → List Byte → List Nat
    | 0, _ => []
    | k + 1, l => ofLe (l.take w) :: wordsOf' w k (l.drop w)

/-- Sends a CONTRIB when a credit, the attempt and an armed injection allow; else holds it (14 R459, R475; 17 R551). -/
def sendContrib (s : State) (m : Msg) : State :=
  if s.cas.state == 2 && s.cas.resumed && decide (0 < s.cas.credit) then
    let s := { s with cas := { s.cas with credit := s.cas.credit - 1 } }
    let d := fireInj s 6 fun _ => true
    if d.1 then d.2 else sendMsg d.2 (min (fld m.arg1.toNat 0 24) 65535) m
  else { s with cas := { s.cas with pendingUp := s.cas.pendingUp ++ [m] } }

/-- Sends the CONTRIB messages that credits now allow. -/
def pumpUp (s : State) : State :=
  let l := s.cas.pendingUp
  l.foldl sendContrib { s with cas := { s.cas with pendingUp := [] } }

/-- A result chunk is written to the destination of its command, with its flags and poison (14 R461, R463, R464), and its
bucket completes with its last chunk. -/
def writeResult (s : State) (b : Bucket) (num : Nat) (vals : List (Option Nat)) (fl : Flags) (poison : Bool) : State :=
  s.withJob b.q b.n fun s j =>
    let ref := if j.op == 0x38 then j.body 8 else j.body 0x10
    match tensor s j.ctx .any ref with
    | .error _ => s
    | .ok t =>
      let eb := t.fmt.bits / 8
      let d := vals.flatMap fun v =>
        let c := wire32 b.priv (v.getD 0)
        leBytes eb (if t.fmt == .bf16 then (f32ToIeee ieeeBf false c).1 else c)
      let ws := t.put s j.ctx (256 * num * eb) d (d.map fun _ => poison)
      let s := report s j.loc 0 ⟨fl, []⟩
      let s := s.setJob { j with fl := j.fl ||| fl, poison := if poison then sat32 j.poison vals.length else j.poison }
      match writeRuns false b.q b.n 0 0 s ws with
      | none => s.withJob b.q b.n fun s j =>
        { s.setJob (j.mark 5).end with cas := { s.cas with buckets := s.cas.buckets.filter fun x => x.tag != b.tag } }
      | some s =>
        let b' := { b with left := b.left - 1 }
        let s := { s with cas := { s.cas with
          buckets := if b'.left == 0 then s.cas.buckets.filter fun x => x.tag != b.tag
            else s.cas.buckets.map fun x => if x.tag == b.tag then b' else x
          doneTags := if b'.left == 0 then b.tag :: s.cas.doneTags else s.cas.doneTags } }
        pumpWrites (settle s b.q b.n)

/-- A result goes down to the children and to this engine's destination (14 R461). -/
def deliver (s : State) (tag num : Nat) (b : Bucket) (vals : List (Option Nat)) (fl : Flags) (poison : Bool) (mfl : Nat) :
    State :=
  let pay := denseBytes b.priv vals
  let s := s.cas.children.foldl (fun s r =>
    sendMsg s (min num 65535) (mkMsg s 0x21 r tag mfl s.cas.step (num + fl.toNat <<< 24) pay)) s
  writeResult s b num vals fl poison

/-- The sum of one element over its terms in order, as wire code and flags (14 R460, R461, R463). -/
def sumElem (priv : Bool) (l : List (Option Nat)) : Option Nat × Flags :=
  let r := l.foldl (fun (a : Acc × Flags) v => match v with
    | none => a
    | some c => let x := cadd a.1 (Acc.ofTerm (wire32 priv c)); (x.1, a.2 ||| x.2)) (Acc.none, f0)
  if r.1.empty then (none, 0)
  else
    let o := r.1.outcome
    let w := toWire priv o.1
    (some w.1, r.2 ||| o.2 ||| w.2)

/-- The adder acts on a chunk once its own and every child's term are present (14 R461). Its occurrences, which no core makes, carry core 0
(03 R101; DESIGN CHOICE, log 35). -/
def actChunk (s : State) (tag num : Nat) : State :=
  match bucketOf s tag with
  | none => s
  | some b =>
    let c := chunkOf s tag num
    let want := s.cas.rank :: s.cas.children
    let ts := want.filterMap fun r => c.terms.find? fun t => t.rank == r
    if c.sent || ts.length != want.length then s
    else
      let n := chunkLen b.count num
      let es := tab n fun i => sumElem b.priv (ts.map fun t => t.vals.getD i none)
      let occs := es.zipIdx.flatMap fun e => (Rep.of e.1.2 .reduce num e.2 noKgrp).occs
      let fl := es.foldl (fun f e => f ||| e.2) (ts.foldl (fun f t => f ||| t.fl) f0)
      let poison := ts.any fun t => t.poison
      let vals := es.map Prod.fst
      let cmd := match s.job b.q b.n with | some j => j.loc | none => 0
      let s := report s cmd 0 ⟨0, occs⟩
      let s := putChunk s { c with sent := true }
      let s := s.cas.children.foldl (fun s r => sendMsg s 0 (mkMsg s 0x22 r 0 0 1 0 [])) s
      let sparse := b.thin != 0 && decide ((vals.filter Option.isSome).length < 128)
      let mfl := b2n b.priv + b.thin <<< 1 + (b2n poison) <<< 5
      if s.cas.rank == 0 then deliver s tag num b vals fl poison mfl
      else
        sendContrib s (mkMsg s 0x20 s.cas.parent tag (mfl + (b2n sparse) <<< 4) s.cas.step (num + fl.toNat <<< 24)
          (if sparse then sparseBytes vals else denseBytes b.priv vals))

/-- A term of a chunk arrives. -/
def addTerm (s : State) (tag num : Nat) (t : Term) : State :=
  let c := chunkOf s tag num
  actChunk (putChunk s { c with terms := c.terms ++ [t] }) tag num

/-- This engine's own term of a chunk, from its local contributions in element order; thinning writes the new residuals
(14 R460, R467, R468). -/
def ownTerm (s : State) (b : Bucket) (num : Nat) (els : List (Nat × Bool)) : State :=
  let poison := els.any Prod.snd
  let cmd := match s.job b.q b.n with | some j => j.loc | none => 0
  if b.thin == 0 then
    let ws := els.map fun e => toWire b.priv e.1
    let fl := ws.foldl (fun f w => f ||| w.2) f0
    let occs := ws.zipIdx.flatMap fun w => (Rep.of w.1.2 .reduce num w.2 noKgrp).occs
    addTerm (report s cmd 0 ⟨0, occs⟩) b.tag num ⟨s.cas.rank, ws.map fun w => some w.1, fl, poison, b2n b.priv⟩
  else
    let odd := s.cas.step % 2 == 1
    let rec' := btRes s b.tag odd
    let work := btRes s b.tag (!odd)
    let vs := els.zipIdx.map fun e => (fadd e.1.1 (s.rd (rec' + 4 * (256 * num + e.2)) 4)).1
    let top := topRank true (thinK b.thin) vs
    let ws := vs.zipIdx.map fun v => if top.contains v.2 then some (toWire false v.1) else none
    let res := (vs.zip ws).map fun v => match v.2 with
      | none => v.1
      | some w => if (dec32 v.1).isFin then (fsub v.1 (wire32 false w.1)).1 else 0
    let s := s.wr (work + 1024 * num) (res.flatMap (leBytes 4))
    let fl := ws.foldl (fun f w => match w with | some x => f ||| x.2 | none => f) f0
    let occs := ws.zipIdx.flatMap fun w => match w.1 with
      | some x => (Rep.of x.2 .reduce num w.2 noKgrp).occs
      | none => []
    addTerm (report s cmd 0 ⟨0, occs⟩) b.tag num ⟨s.cas.rank, ws.map fun w => w.map Prod.fst, fl, poison, b.thin <<< 1⟩

/-- Local contributions of a command's committed elements: each chunk whose elements are all in leaves for the reduction unit
(14 R458). -/
def contribute (s : State) (b : Bucket) (els : List (Nat × Nat × Bool)) : State :=
  let s := { s with cas := { s.cas with staged := s.cas.staged ++ els.map fun e => (b.tag, e) } }
  let nums := (els.map fun e => e.1 / 256).eraseDups
  nums.foldl (fun s num =>
    let mine := s.cas.staged.filter fun e => e.1 == b.tag && e.2.1 / 256 == num
    if mine.length == chunkLen b.count num then
      let sorted := sortBy (fun (x y : Nat × Nat × Nat × Bool) => decide (x.2.1 < y.2.1)) mine
      let s := { s with cas := { s.cas with staged := s.cas.staged.filter fun e => !(e.1 == b.tag && e.2.1 / 256 == num) } }
      let s := s.withJob b.q b.n fun s j => s.setJob { j with chunks := j.chunks + 1 }
      ownTerm s b num (sorted.map fun e => e.2.2)
    else s) s

/-- The checks of a bucket word against its table entry and tensor (14 R456). -/
def bucketOk (s : State) (word elems : Nat) : Bool :=
  let tag := fld word 0 8
  let priv := bit word 8
  let thin := fld word 9 3
  btCount s tag != 0 && bit s.cas.stepMask tag && btCount s tag == elems && decide (thin ≤ 4) &&
    !(thin != 0 && (priv || btRes s tag false == 0 || btRes s tag true == 0)) &&
    !(priv && !s.cas.privTags.contains tag && decide (8 ≤ s.cas.privTags.length)) && !s.cas.doneTags.contains tag

/-- The tag is held up: it is in flight for another command, or 64 tags are (14 R457). -/
def bucketWaits (s : State) (word : Nat) : Bool :=
  (s.cas.buckets.any fun b => b.tag == fld word 0 8) || decide (64 ≤ s.cas.buckets.length)

/-- Opens a bucket for a command; chunks that children sent ahead are acted on as terms come (14 R457, R479). -/
def openBucket (s : State) (j : Job) (word : Nat) : State :=
  let tag := fld word 0 8
  let n := btCount s tag
  let b : Bucket := ⟨tag, j.q, j.n, bit word 8, fld word 9 3, n, cdiv n 256⟩
  let mode := b2n b.priv + b.thin <<< 1
  let bad := s.cas.chunks.flatMap fun c => if c.tag == tag then c.terms.filterMap fun t => if t.mode != mode then some (c.num, t.rank) else none
    else []
  let s := bad.foldl (fun s x => sendMsg s 0 (mkMsg s 0x23 x.2 tag 0 2 (0x20 + x.1 <<< 8) [])) s
  { s with cas := { s.cas with
      chunks := s.cas.chunks.map fun c => if c.tag == tag then { c with terms := c.terms.filter fun t => t.mode == mode } else c
      buckets := s.cas.buckets ++ [b]
      privTags := if b.priv && !s.cas.privTags.contains tag then tag :: s.cas.privTags else s.cas.privTags } }

/-- A command with a bucket is ended: its bucket goes, and unsent chunks of a step command abandon the attempt (14 R475). -/
def dropBucket (s : State) (j : Job) : State :=
  match s.cas.buckets.find? fun b => b.q == j.q && b.n == j.n with
  | none => s
  | some b =>
    let unsent := decide (j.chunks < cdiv b.count 256)
    let s := { s with cas := { s.cas with
      buckets := s.cas.buckets.filter fun x => x.tag != b.tag
      staged := s.cas.staged.filter fun e => e.1 != b.tag } }
    if unsent && j.stepCmd && s.cas.state == 2 then
      if s.cas.rank == 0 then { s with cas := { s.cas with abandoned := true } }
      else sendMsg s 0 (mkMsg s 0x24 0 b.tag 0 s.cas.step b.tag [])
    else s

/-- The result word of a bucket command (14 R480). -/
def bucketResult (j : Job) : Nat := j.chunks + (j.attempt % 256) <<< 32

end Sys2Proof.Machine
end

