-- ==== Sys2Proof/Machine/Text.lean ====
section
/-! DEFINITION. The monitor's lines as text (17 R544). -/
namespace Sys2Proof.Machine

/-- A character as its ASCII byte. -/
def chr (c : Char) : Byte := BitVec.ofNat 8 c.toNat
/-- A text as bytes. -/
def txt (t : String) : List Byte := t.toList.map chr
/-- One uppercase hexadecimal digit. -/
def hexDigit (n : Nat) : Byte := BitVec.ofNat 8 (if n < 10 then 48 + n else 55 + n)
/-- `n` hexadecimal digits, highest first. -/
def hexN : Nat → Nat → List Byte
  | 0, _ => []
  | k + 1, x => hexN k (x / 16) ++ [hexDigit (x % 16)]
/-- A number without leading zeros; `fuel` bounds the digits. -/
def hexMin (x : Nat) : List Byte := hexN (max 1 (cdiv (bitLen x) 4)) x
/-- Fields joined by one space. -/
def fields : List (List Byte) → List Byte
  | [] => []
  | [a] => a
  | a :: t => a ++ chr ' ' :: fields t

/-- The sum of bytes modulo 256. -/
def byteSum (l : List Byte) : Nat := l.foldl (fun a b => (a + b.toNat) % 256) 0
/-- A line of the monitor: the opening character, the text, the checksum, CR and LF (17 R544). -/
def monLine (first : Char) (t : List Byte) : List Byte := chr first :: t ++ chr '*' :: hexN 2 (byteSum t) ++ [13, 10]

/-- Sends an unsolicited notice. -/
def notice (s : State) (t : List Byte) : State := { s with mon := { s.mon with tx := s.mon.tx ++ monLine '#' t } }

/-- Every core stops at its next boundary (15 R500; 17 R548, R549). -/
def haltEngine (s : State) : State :=
  let s' := { s with inp := { s.inp with halted := true } }
  if s.inp.halted then s' else levelRise s' 0x11

/-- A breakpoint of the given kind that names the command, with its number (17 R549). -/
def breakpoint (s : State) (q n kind : Nat) : Option Nat :=
  (List.range 4).find? fun i =>
    let b := s.mon.bp.get i 0
    bit b 31 && fld b 16 6 == q && fld b 0 16 == n && fld b 22 1 == kind

/-- A breakpoint hits: the notice, the marks, and the halt (17 R549). -/
def hitBreak (s : State) (i q n : Nat) : State :=
  let s := notice s (fields [txt "BP", hexMin i, hexMin q, hexMin n])
  haltEngine { s with mon := { s.mon with bpHit := true, bpIndex := i } }

end Sys2Proof.Machine
end

