-- ==== Sys2Proof/Machine/Queue.lean ====
section
/-! DEFINITION. Taking commands, what holds and starts them, their commits, their ends and their completion records
(13 R397-R440; 12 R382, R383, R393). -/
namespace Sys2Proof.Machine

/-- Low 48 bits: a reference or a T1 address. -/
def m48 : Nat := 2 ^ 48 - 1
/-- Low 32 bits. -/
def m32 : Nat := 2 ^ 32 - 1
/-- All 64 bits. -/
def m64 : Nat := 2 ^ 64 - 1
/-- The `ARRAY` word: a fused form above the array control, whose bit 23 is reserved (13 R413, 08 R247). -/
def mArray : Nat := 0x00000EFFFF7FFFFF

/-- The bits that may be set in the six body words of an opcode, or `none` for a reserved opcode (13 R404, R412-R420). -/
def bodyMask : Nat → Option (List Nat)
  | 0x01 => some [m48, m48, m48, m48, mArray, 0xFFF]
  | 0x02 => some [m48, m48, m48, m48, mArray, m48]
  | 0x03 => some [2 ^ 58 - 1, m48, m48, m48, mArray, 2 ^ 59 - 1]
  | 0x08 => some [m48, m48, 0x001FFFFF000007FF, 0, 0, 0]
  | 0x09 => some [m48, m64, m48, m48, m32, 0]
  | 0x0A => some [m48, m48, m48, 2 ^ 37 - 1, 0xFFFFFFFF0003FFFF, 0x0000FFFF007FFFFF]
  | 0x10 => some [m48, m48, m48, m48, m48, m48]
  | 0x11 => some [m48, m48, m48, 0x00000EFF, 0, 0]
  | 0x12 => some [m48, m48, m48, m48, m48, 0xFFFFFFFF00000007]
  | 0x13 => some [m48, m48, 0, 0, 0, 0xFFFFFFFF00000000]
  | 0x14 => some [m48, m48, m48, 0, 0, 0x1F]
  | 0x18 => some [m48, m48, 0, 0, 0, 0x1FFFFF]
  | 0x19 => some [0, m48, m32, 0, 0, 0x1FFFFF]
  | 0x20 => some [m48, m48, m64, 0xFFFFFFFF03FFFFFF, m32, 0]
  | 0x21 => some [m48, 0, 0, 0, 0, 3]
  | 0x22 => some [0x7FFFFFF, m64, m32, m48, 0, 0]
  | 0x23 => some [m48, 0, 0, 0, 0, 3]
  | 0x28 => some [0xFFFFF, 0xFFFFFF, 0x1FFFFFF, 0, 0, 1]
  | 0x30 => some [3, m48, m64, 0, 0, 0]
  | 0x31 => some [0x13F3F, 0, 0, 0, 0, 0]
  | 0x32 => some [0x3F, m32, m48, m64, 0, 0]
  | 0x33 => some [0x3F, m32, 0, 0, 0, 0]
  | 0x38 => some [m48, m48, 0xFFF, 0, 0, 0]
  | 0x3C => some [1, m48, 0xFFFF, 0, 0, 0]
  | 0x3F => some [0, 0, 0, 0, 0, 0]
  | _ => none

/-- `COMPAT` is allowed (13 R405). -/
def compatOk (op : Nat) : Bool := [0x01, 0x02, 0x03, 0x11, 0x12, 0x13, 0x0A, 0x09].contains op
/-- `SHADOW` is allowed (13 R405). -/
def shadowOk (op : Nat) : Bool := [0x01, 0x02, 0x03, 0x0A, 0x09].contains op

/-- Body word `i` of a command or program entry. -/
def bw (c : List Byte) (i : Nat) : Nat := ofLe ((c.drop (0x10 + 8 * i)).take 8)
/-- The opcode of a command or program entry. -/
def opOf (c : List Byte) : Nat := fld (c.headD 0).toNat 0 6
/-- The flags byte of a command or program entry. -/
def hfOf (c : List Byte) : Nat := (c.getD 1 0).toNat

/-- The byte of the lowest bit of `x` that a mask does not allow. -/
def badByte (x mask : Nat) : Option Nat := (List.range 8).find? fun i => fld x (8 * i) 8 &&& fld mask (8 * i) 8 != fld x (8 * i) 8

/-- The first reserved bit set in a header or body: its byte offset (13 R404, R405, R412). -/
def formBad (c : List Byte) : Option Nat :=
  let op := opOf c
  let hf := hfOf c
  match bodyMask op with
  | none => some 0
  | some ms =>
    if fld (c.headD 0).toNat 6 2 != 0 then some 0
    else if fld hf 3 5 != 0 || (bit hf 0 && !compatOk op) || (bit hf 1 && !shadowOk op) then some 1
    else if ofLe ((c.drop 6).take 2) != 0 then some 6
    else ms.zipIdx.findSome? fun m => (badByte (bw c m.2) m.1).map fun b => 0x10 + 8 * m.2 + b

/-- A command that a step queue does not accept: the offset of the field (14 R470). -/
def stepBan (c : List Byte) : Option Nat :=
  let op := opOf c
  if [0x20, 0x21, 0x22, 0x23, 0x09, 0x28, 0x3C].contains op then some 0
  else if op == 0x0A && bit (bw c 3) 33 then some 0x28
  else if op == 0x08 && bit (bw c 2) 52 then some 0x20
  else if (op == 0x18 || op == 0x19) && bit (bw c 5) 20 then some 0x38
  else none

/-- A command that needs the cascade while it is not `READY` (14 R445). -/
def cascadeBan (c : List Byte) : Option Nat :=
  let op := opOf c
  if op == 0x38 then some 0
  else if op == 0x01 && bit (bw c 4) 22 then some 0x30
  else if op == 0x31 && bit (bw c 0) 16 then some 0x10
  else none

/-- The checks made at take: the offset of the first bad field (13 R402, R404, R405, R412; 14 R445, R470). -/
def takeBad (s : State) (q n : Nat) (c : List Byte) : Option Nat :=
  let all := (formBad c).toList ++ (if ofLe ((c.drop 2).take 2) != n then [2] else []) ++
    (if bit s.cas.qmask q then (stepBan c).toList else []) ++ (if s.cas.state != 2 then (cascadeBan c).toList else [])
  match all with
  | [] => none
  | a :: t => some (t.foldl min a)

/-! ### What a command touches (12 R382, 13 R427) -/

/-- T1 ranges, page spaces, whether an output goes through a block list, and whether more may be touched. -/
structure Foot where
  ranges : List (Nat × Nat)
  sids : List Nat
  lists : Bool
  all : Bool
  deriving DecidableEq, Repr

/-- Nothing touched. -/
def Foot.nil : Foot := ⟨[], [], false, false⟩
/-- Two footprints together. -/
def Foot.and (a b : Foot) : Foot := ⟨a.ranges ++ b.ranges, a.sids ++ b.sids, a.lists || b.lists, a.all || b.all⟩

/-- Something is touched. -/
def Foot.some (f : Foot) : Bool := f.all || f.lists || !f.ranges.isEmpty || !f.sids.isEmpty

/-- What a tensor touches. -/
def Tensor.foot (s : State) (x : Ctx) (out : Bool) (t : Tensor) : Foot :=
  ⟨t.ranges x ++ t.auxRange x t.auxBound, (t.pages s x).map Prod.fst, out && t.list, false⟩

/-- The tensor references of a command or entry: whether an output, its use, and the reference (13 R412-R416). -/
def opRefs (s : State) (c : List Byte) : List (Bool × Use × Nat) :=
  let opr (a : Nat) : List (Bool × Use × Nat) :=
    if a == 0 then [] else [(false, .vin, s.rd a 8), (false, .vin, s.rd (a + 8) 8), (false, .vin, s.rd (a + 16) 8)]
  match opOf c with
  | 0x01 => [(false, .act, bw c 0), (false, .weight, bw c 1), (true, .aout, bw c 2)] ++ opr (bw c 3)
  | 0x02 => [(false, .act, bw c 0), (false, .weight, bw c 1), (true, .aout, bw c 2), (false, .decay, bw c 3)] ++ opr (bw c 5)
  | 0x03 => [(false, .act, fld (bw c 0) 0 48), (false, .weight, bw c 1), (true, .aout, bw c 2)] ++ opr (bw c 3)
  | 0x08 =>
    let e (i : Nat) : Nat := s.rd (bw c 0 + 8 * i) 8
    [(false, .decay, e 0), (false, .vin, e 1), (false, .vin, e 2), (false, .vin, e 3), (false, .state, e 4), (true, .vout, e 5),
      (true, .state, e 6)]
  | 0x0A => [(false, .qkv, bw c 1), (true, .vout, bw c 2)]
  | 0x10 => [(false, .any, bw c 0), (false, .any, bw c 1), (false, .any, bw c 2), (true, .any, bw c 3), (true, .any, bw c 4)]
  | 0x11 => [(false, .vin, bw c 0), (true, .vout, bw c 1)] ++ opr (bw c 2)
  | 0x12 => [(false, .vin, bw c 0), (true, .vout, bw c 1), (true, .vout, bw c 2), (false, .vin, bw c 3), (false, .vin, bw c 4)]
  | 0x13 => [(false, .vin, bw c 0), (true, .vout, bw c 1)]
  | 0x14 => [(false, .vin, bw c 0), (true, .any, bw c 1), (true, .any, bw c 2)]
  | 0x18 => [(false, .any, bw c 0), (true, .any, bw c 1)]
  | 0x19 => [(true, .any, bw c 1)]
  | 0x38 => [(false, .any, bw c 0), (true, .any, bw c 1)]
  | _ => []

/-- What the tensors of a command or entry touch, inputs or outputs; a tensor that cannot be read counts as touching
anything. -/
def refFoot (s : State) (x : Ctx) (out : Bool) (c : List Byte) : Foot :=
  (opRefs s c).foldl (fun f r =>
    if r.1 != out || fld r.2.2 0 48 == 0 then f
    else match tensor s x r.2.1 (fld r.2.2 0 48) with
      | .ok t => f.and (t.foot s x out)
      | .error _ => { f with all := true }) .nil

/-- The entries of a STEP's layer program (13 R412, R417). -/
def programOf (s : State) (c : List Byte) : List (List Byte) :=
  tab (fld (bw c 1) 48 16 + 1) fun i => (s.t1.fetch (fld (bw c 1) 0 48 + 64 * i) 64).1

/-- The sequences that a set reference names (13 R412). -/
def setSids (s : State) (x : Ctx) (ref : Nat) : List Nat :=
  match tensor s x .index ref with
  | .ok t => t.ints s x
  | .error _ => []

/-- What a command reads (`out` false) or writes (`out` true) (12 R382, 13 R427). -/
def jobFoot (s : State) (j : Job) (out : Bool) : Foot :=
  let c := j.cmd
  let x := { j.ctx with sid := match jobSids s j with | [a] => some a | _ => none }
  match j.op with
  | 0x09 =>
    let sids := setSids s x (bw c 0)
    let prog := programOf s c
    let f := sids.zipIdx.foldl (fun f m =>
      let y : Ctx := { j.ctx with prog := true, sid := some m.1, r := m.2, spill := bw c 3, scratch := bw c 4 }
      prog.foldl (fun f e => f.and (refFoot s y out e)) f) Foot.nil
    { f with sids := f.sids ++ sids, ranges := f.ranges ++ (if out then [(bw c 2, 8 * sids.length)] else []) }
  | 0x0A =>
    let f := refFoot s x out c
    if out && !bit (bw c 3) 32 then f else { f with sids := f.sids ++ setSids s x (bw c 0) }
  | 0x20 => { (refFoot s x out c) with all := true }
  | 0x21 => { Foot.nil with all := out, sids := setSids s x (bw c 0) }
  | 0x22 => { Foot.nil with all := out }
  | 0x23 => { Foot.nil with all := out, sids := setSids s x (bw c 0) }
  | 0x28 => { Foot.nil with sids := [bw c 0] }
  | 0x32 => { Foot.nil with ranges := if out && bw c 2 != 0 then [(bw c 2, 8)] else [] }
  | 0x3C => { Foot.nil with all := !out }
  | _ => refFoot s x out c

/-- A FENCE's scope covers a footprint (12 R382; 13 R420, R427). -/
def Job.covers (k : Job) (f : Foot) : Bool :=
  match fld (k.body 0) 0 2 with
  | 1 =>
    let b := k.body 8
    let n := k.body 0x10
    f.all || f.lists || f.ranges.any fun r => decide (r.1 < b + n) && decide (b < r.1 + r.2)
  | 2 => f.all || f.sids.contains (fld (k.body 8) 0 20)
  | _ => true

/-- The take numbers of the incomplete FENCEs earlier in the queue that name a source of the command (12 R382). -/
def fencesOf (s : State) (j : Job) : List Nat :=
  let fs := s.jobs.filter fun k => k.q == j.q && decide (k.take < j.take) && k.op == 0x30
  if fs.isEmpty then []
  else
    let f := jobFoot s j false
    if f.some then (fs.filter fun k => k.covers f).map Job.take else []
/-- A FENCE earlier in the queue that names a source of the command has not completed (12 R382). -/
def fenceHeld (s : State) (j : Job) : Bool := !(fencesOf s j).isEmpty

/-! ### Table domains (08 R251, R252) -/

/-- A function code of a fused form other than `IDENT` (08 R251). -/
def usesFunc (form : Nat) : Bool := fld form 0 8 != 0

/-- A command or entry uses the `SFU` domain (08 R251). -/
def entrySfu (c : List Byte) : Bool :=
  match opOf c with
  | 0x11 => true
  | 0x12 => true
  | 0x13 => true
  | 0x0A => true
  | 0x01 => usesFunc (bw c 4 >>> 32)
  | 0x02 => usesFunc (bw c 4 >>> 32)
  | 0x03 => usesFunc (bw c 4 >>> 32)
  | _ => false

/-- A command or entry uses the `DQ` domain: its weight takes the table path (08 R251). -/
def entryDq (s : State) (c : List Byte) : Bool :=
  [0x01, 0x02, 0x03].contains (opOf c) && fld (s.rd (fld (bw c 1) 0 48 + 6) 2) 10 2 == 1

/-- A taken command uses a table domain (08 R251). -/
def usesDomain (s : State) (j : Job) (sfu : Bool) : Bool :=
  let e := j.cmd :: (if j.op == 0x09 then programOf s j.cmd else [])
  e.any fun c => if sfu then entrySfu c else entryDq s c

/-- A TABLE of the domain, not yet switched nor ended. -/
def Job.reloads (j : Job) (sfu : Bool) : Bool :=
  j.op == 0x3C && bit (j.body 0) 0 == sfu && j.phase != .done

/-- A command waits for the switch of a TABLE taken before it (08 R251, R252). -/
def epochHeld (s : State) (j : Job) : Bool :=
  [false, true].any fun d =>
    (s.jobs.any fun k => k.reloads d && decide (k.take < j.take)) && usesDomain s j d

/-! ### Starting -/

/-- The dependency bits that still hold a command: those whose commands, taken since the queue was last enabled, have not
completed (13 R406). -/
def depsLeft (s : State) (j : Job) : Nat :=
  (List.range 16).foldl (fun m i =>
    if bit j.deps i && s.jobs.any (fun k => k.q == j.q && k.n == (j.n + 65536 - (i + 1)) % 65536 && decide (k.take < j.take) &&
        decide ((s.queue j.q).since ≤ k.take)) then m + 2 ^ i else m) 0

/-- A taken command may start: it waits, its dependencies have completed, no WAIT or BARRIER stands before it, its sources are
not fenced, and its table epochs are in force (12 R382; 13 R406, R428; 08 R252). -/
def mayStart (s : State) (j : Job) : Bool :=
  j.phase == .waiting && s.awake && j.deps == 0 && !s.behind j && !fenceHeld s j && !epochHeld s j

/-- A command without a sequence whose work items its row places: of the array, the vector unit, the special functions, or REDUCE. -/
def Job.plain (j : Job) : Bool := [0x01, 0x02, 0x03, 0x10, 0x11, 0x12, 0x13, 0x14, 0x38].contains j.op
/-- A command whose work items its row places. -/
def Job.places (j : Job) : Bool := j.plain || [0x08, 0x0A, 0x18, 0x19].contains j.op
/-- A command's row has not yet taken it up: no operand is asked for but ahead, no page rises for it, and it waits for no bucket tag. -/
def Job.untouched (s : State) (j : Job) : Bool :=
  (j.ask.isNone || j.ahead) && !j.tagWait && !(s.pg.rises.any fun r => r.job == some (j.q, j.n))

/-- How many queues of priority `p` stand before queue `q` in turn: they follow the one served last in ascending index (13 R403). -/
def turnPos (s : State) (p q : Nat) : Nat := (q + 127 - s.turns.get p 63) % 64
/-- Command `k` comes before command `j`: by priority, by the turn of its queue, or by take order within one queue (13 R403). -/
def comesFirst (s : State) (k j : Job) : Bool :=
  decide (j.prio < k.prio) || (k.q == j.q && decide (k.take < j.take)) ||
    (k.prio == j.prio && k.q != j.q && decide (turnPos s j.prio k.q < turnPos s j.prio j.q))
/-- A ready command that comes first is not placed yet (13 R403; DESIGN CHOICE, log 5). -/
def outranked (s : State) (j : Job) : Bool :=
  j.places && j.untouched s && s.jobs.any fun k => comesFirst s k j && k.plain && k.untouched s && mayStart s k
/-- The queue of a command that is placed has had its turn (13 R403). -/
def State.served (s : State) (j : Job) : State :=
  if j.places && j.untouched s then { s with turns := s.turns.put j.prio j.q } else s

/-- A command may be placed on units: they take no new item while the engine is stopped (15 R500, R501), and none out of the order of
13 R403. -/
def mayRun (s : State) (j : Job) : Bool := mayStart s j && !s.stopped && !outranked s j

/-- A read of an operand of a command is in flight. -/
def TagFor.reads (u : TagFor) (q n : Nat) : Bool := match u with | .fetch a b _ => a == q && b == n | _ => false
/-- Some of a command's operand reads are in flight. -/
def fetching (s : State) (q n : Nat) : Bool := s.str.tags.any fun p => p.2.use.reads q n

/-- The operands of part `u` of a command have landed on a core: none is still to be issued, and none in flight (01 R36). -/
def landedOn (s : State) (j : Job) (u core : Nat) : Bool :=
  !((j.ask.getD []).any fun p => p.unit == u && p.core == core) &&
    !(s.str.tags.any fun p => p.1 / 512 == core && p.2.use == .fetch j.q j.n u)

/-- Fetches the operands of a command: their transfers are found once, those fetched ahead not again, and issued; `true` says that nothing is
outstanding. -/
def fetchAll (s : State) (j : Job) (l : Unit → List Piece) : Bool × State :=
  let s := match j.ask, j.ahead with
    | some _, false => s
    | a, _ =>
      let ps := (l ()).filter fun p => !j.parts.contains p
      s.setJob { j with ask := some (a.getD [] ++ ps), parts := j.parts ++ ps, ahead := false }
  let s := issueReads s j.q j.n
  ((match s.job j.q j.n with | some j => (j.ask.getD []).isEmpty | none => false) && !fetching s j.q j.n, s)

/-- The pages of the parts of a command are reached, each on its part's core; `true` when all may go on. -/
def touchParts (s : State) (j : Job) (x : Ctx) (ps : List Part) : Bool × State :=
  ps.foldl (fun (a : Bool × State) p =>
    let r := touchAll a.2 p.core (some (j.q, j.n)) (p.pages a.2 x)
    (a.1 && r.1, r.2)) (true, s)

/-- What a command has landed is read by its units: an injected word among it is found (17 R541, R551). -/
def noteLanded (s : State) (q n : Nat) : State :=
  match s.job q n with
  | none => s
  | some j => if s.t0.inj.isEmpty then s
    else j.fetched.foldl (fun s e => unitRead s e.core (landAt e.core e.stage e.place e.addr) e.data.length) s

/-- Neap reads are counted on the command and the engine and pulse their event (11 R367). -/
def countNeaps (s : State) (q n k : Nat) : State :=
  if k == 0 then s
  else
    let s := s.withJob q n fun s j => s.setJob { j with neap := j.neap + k }
    pulse { s with tier := { s.tier with neapCount := add64 s.tier.neapCount k } } 0x08

/-- The lossy pages among some, once each: a read of one is a neap read (11 R362). -/
def lossyPages (s : State) (l : List (Nat × Nat)) : List Nat :=
  (l.filterMap fun p => match seqRec s p.1 with
    | some x => lookup s x.root (seqFam s x) p.2
    | none => none).eraseDups.filter fun d => bit (sideWord s d) 1

/-- Prepares the operands of a command that starts: the pages of its parts are reached, their transfers made, unmapped pages logged and lossy
ones counted (10 R310, R320; 11 R362; 12 R377, R381; 14 R447). `go` then runs it. -/
def withOperands (s : State) (j : Job) (x : Ctx) (ins : List Tensor) (ps : List Part) (go : State → Job → State) : State :=
  let a := touchParts s j x ps
  if !a.1 then a.2
  else a.2.withJob j.q j.n fun s j =>
    let f := fetchAll s j fun _ => ps.flatMap fun p => p.pieces s x
    if !f.1 then f.2
    else
      let pgs := (ps.flatMap fun p => runPages (p.elemRuns f.2 x fun _ => true)).eraseDups
      let s := countNeaps (logUnmapped f.2 j.loc pgs) j.q j.n (lossyPages f.2 pgs).length
      (noteLanded (noteState s x ins) j.q j.n).withJob j.q j.n go

/-- A command row of opcode `op`: on a command of that opcode that may run, its checks are made, and it is rejected or
runs (13 R440). -/
def startRow {α : Type} (op : Nat) (q n : Nat) (s : State) (chk : State → Job → Except Bad α) (run : State → Job → α → State) :
    State :=
  s.withJob q n fun s j =>
    if j.op != op || !mayRun s j then s
    else match chk s j with
      | .error b => reject s j b.cause b.detail b.aux
      | .ok a => run (s.served j) j a

/-! ### Ends -/

/-- A slot takes a new state (09 R277), traced (17 R550). -/
def setSlotState (s : State) (i : Nat) (x : Slot) (st : Nat) : State :=
  trace { s with slots := { s.slots with
      recs := if st == 0 then s.slots.recs.del i else s.slots.recs.put i { x with state := st }
      transit := if st == 4 || st == 5 then s.slots.transit.erase i ++ [i] else s.slots.transit.erase i } }
    0x07 3 0xFF 0 0 0 (x.sid + st <<< 24)

/-- A core's reserve token goes back when its member ends (10 R329). -/
def dropToken (s : State) (core : Nat) : State := s.setCore core { s.core core with token := none }

/-- The frames and descriptors that a member reserved and did not use go back (10 R326). -/
def returnNeed (s : State) (m : Member) : State :=
  let s := m.frames.foldl pushFrame s
  m.descs.foldl pushDesc s

/-- What a command fetched for some of its parts and did not use is waste, and its reads in flight go to the sink (12 R393). -/
def sinkUnits (s : State) (j : Job) (mine : Nat → Bool) : State :=
  let l := j.fetched.filter fun f => mine f.unit
  let s := l.foldl (fun s f => count s f.core 10 f.data.length) s
  let s := s.withJob j.q j.n fun s j => s.setJob { j with ask := j.ask.map fun a => a.filter fun p => !mine p.unit }
  let s := sinkTags s fun u => match u with | .fetch q n v => q == j.q && n == j.n && mine v | _ => false
  s.withJob j.q j.n fun s j => s.setJob { j with
    fetched := j.fetched.filter fun f => !mine f.unit
    waste := sat32 j.waste (l.foldl (fun a f => a + f.data.length) 0) }

/-- Everything that a command fetched and did not use, likewise. -/
def sinkFetches (s : State) (j : Job) : State := sinkUnits s j fun _ => true

/-- Rows of one member of an ATTN (13 R419). -/
def Job.memberRows (j : Job) : Nat := (fld (j.body 0x28) 32 16 + 1) * (fld (j.body 0x20) 0 8 + 1)

/-- A part of a command is member `i`'s. -/
def Job.memberPart (j : Job) (i u : Nat) : Bool := if j.op == 0x0A then u / j.memberRows == i else u == i

/-- What a member's outcome does to its command: the status, the members counted by a STEP, and the rows that an ATTN no longer
has to commit (09 R302; 13 R424, R425). -/
def Job.memberEnds (j : Job) (i outcome : Nat) : Job :=
  let j := if outcome == 0 then j else j.mark (if outcome == 2 then 1 else 6)
  if j.op == 0x0A then
    let mine := j.tiles.filter fun t => t.num / j.memberRows == i
    { j with
      tiles := j.tiles.filter fun t => t.num / j.memberRows != i
      total := j.total - mine.length }
  else { j with
    finished := j.finished + 1
    idx := some j.finished }

/-- Member `i` of a command gets its outcome (09 R302-R305): its slot is IDLE again, and what it reserved goes back. -/
def endMember (s : State) (q n i outcome : Nat) : State :=
  s.withJob q n fun s j =>
    match j.members[i]? with
    | none => s
    | some m =>
      if m.phase == .ended then s
      else
        let s := returnNeed (if m.phase == .issued then s else sinkUnits s j (j.memberPart i)) m
        let s := if m.token then dropToken s m.core else s
        let s := match slotOf s m.sid with
          | some (k, x) => if x.state == 2 && m.phase == .issued && j.op == 0x09 then setSlotState s k x 1 else s
          | none => s
        let pos := match seqRec s m.sid with | some x => x.pos | none => m.pos
        s.withJob q n fun s j => s.setJob (({ j with
          slotWait := false
          stage := if j.op == 0x09 then 0 else j.stage
          members := j.members.set i { m with
            phase := .ended
            outcome := outcome
            pos := pos
            frames := []
            descs := []
            token := false } } : Job).memberEnds i outcome)

/-- A core without the items of a command: held items take up the freed entries, the banks that hold or load its blocks are marked empty,
and feeder queues that run ahead for it are given up (01 R34; 04 R147; 05 R162). -/
def Core.dismiss (k : Core) (q n : Nat) : Core :=
  let no (i : Item) : Bool := !(i.q == q && i.n == n)
  let mine := match k.run with | some r => !no r.item | none => false
  let keep (b : Option StayBlock) : Option StayBlock := b.filter fun x => !(x.q == q && x.n == n)
  ({ k with
    deque := k.deque.filter no
    held := k.held.filter no
    saved := k.saved.filter fun i => no i.1
    draining := k.draining.filter fun i => no i.1
    run := if mine then none else k.run
    rowQ := if mine then [] else k.rowQ
    colQ := if mine then [] else k.colQ
    banks := k.banks.map fun b => (b.1, { b.2 with a := keep b.2.a, b := keep b.2.b }) } : Core).refill

/-- The items of a command leave the cores (12 R393; 04 R147). -/
def dropItems (s : State) (q n : Nat) : State := { s with cores := s.cores.map fun p => (p.1, p.2.dismiss q n) }

/-- A barrier arrival is withdrawn from its generation (13 R432, R439). An ARRIVE already sent stands. -/
def withdraw (s : State) (q n b : Nat) : State :=
  match s.sync.bars.find b with
  | none => s
  | some k =>
    if k.arrivals.contains (q, n) then
      let l := k.arrivals.filter fun a => a != (q, n)
      { s with sync := { s.sync with bars := s.sync.bars.put b { k with
          arrivals := l
          count := if l.isEmpty && !k.sent then 0 else k.count } } }
    else s

/-- The parent of a FORK that ends early is `IDLE` again (09 R278, R289). -/
def dropFork (s : State) (j : Job) : State :=
  match j.op == 0x22, j.work with
  | true, [sid] => (match slotOf s sid with
    | some (i, x) => if x.state == 3 then setSlotState s i x 1 else s
    | none => s)
  | _, _ => s

/-- A pending reload of a domain ends without its switch (13 R439). -/
def dropReload (s : State) (j : Job) : State :=
  if j.op == 0x3C && j.stage != 0 then
    { s with tbl := if bit (j.body 0) 0 then { s.tbl with sfuPend := false } else { s.tbl with dqPend := false } }
  else s

/-- The opcodes whose finished act a cancel or abort leaves standing (13 R439). -/
def Job.stands (j : Job) : Bool := [0x31, 0x32, 0x33, 0x3C].contains j.op

/-- A taken and incomplete command is ended with a status, by the steps of 12 R393 (13 R432, R438; 14 R475). A member that has
no outcome gets the one that goes with the status. -/
def endJob (s : State) (q n st : Nat) : State :=
  s.withJob q n fun s j =>
    if j.phase == .done then (if j.stands then s else s.setJob (j.mark st))
    else
      let s := sinkFetches (dropItems s q n) j
      let s := (List.range j.members.length).foldl (fun s i => endMember s q n i (if st == 2 then 3 else 1)) s
      let s := dropFork (dropReload s j) j
      let s := if j.op == 0x31 then withdraw s q n (fld (j.body 0) 0 6) else s
      let s := dropHold (dropBucket s j) q n
      s.withJob q n fun s j => s.setJob (j.mark st).end

/-- The stall cause that holds a command at a miss, 0xFF for none (12 R391, 17 R541). -/
def stallCause (s : State) (j : Job) : Nat :=
  if j.slotWait then 1
  else if s.behind j || ((j.op == 0x31 || j.op == 0x33) && j.phase == .waiting) then 2
  else if j.phase == .waiting && fenceHeld s j then 3
  else if j.dry || j.members.any (fun m => m.phase == .dry) then 4
  else if !(j.ask.getD []).isEmpty || !j.wq.isEmpty then 6
  else if fetching s j.q j.n then 7
  else 0xFF

/-- Records a command's one deadline fault (13 R430, 17 R541). -/
def missFault (s : State) (j : Job) (code : Nat) (inj : Bool) (aux : Nat) : State :=
  if j.missed then s
  else
    let s := fault s 1 code 0xFF inj j.loc (stallCause s j) aux
    s.withJob j.q j.n fun s j => s.setJob { j with missed := true }

/-- A command passes its own deadline (13 R430-R432). -/
def missJob (s : State) (q n : Nat) (inj : Bool) : State :=
  s.withJob q n fun s j =>
    let abort := j.abort && !j.noDl
    let aux := if j.op == 0x09 then (match j.members.findIdx? fun m => m.phase != .ended with | some i => i | none => 0)
      else 0xFFFFFFFF
    let s := missFault s j (if abort then 2 else 1) inj aux
    if abort then endJob s q n 2
    else s.withJob q n fun s j => s.setJob { (j.mark 1) with
      members := j.members.map fun m => if m.phase == .ended then m else { m with missed := true } }

/-- The deadline of a member: the earlier of the header's and its slot's, 0 for none (09 R305, 13 R433). -/
def memberDeadline (s : State) (j : Job) (m : Member) : Nat :=
  if j.noDl then 0
  else
    let a := j.deadline
    let b := match seqRec s m.sid with | some x => x.deadline | none => 0
    if a == 0 then b else if b == 0 then a else min a b

/-- Members of a STEP that have passed their deadline (09 R305, 10 R328). -/
def missMembers (s : State) (q n : Nat) : State :=
  s.withJob q n fun s j =>
    (List.range j.members.length).foldl (fun s i =>
      s.withJob q n fun s j =>
        match j.members[i]? with
        | none => s
        | some m =>
          let d := memberDeadline s j m
          if m.phase == .ended || m.missed || d == 0 || decide (s.life.lt ≤ d) then s
          else
            let s := missFault s j (if j.abort then 2 else 1) false i
            if j.abort then endMember s q n i 3
            else s.withJob q n fun s j => s.setJob { j with members := j.members.set i { m with missed := true } }) s

/-- A command's deadlines are looked at (13 R430). -/
def checkMiss (s : State) (q n : Nat) : State :=
  s.withJob q n fun s j =>
    let d := j.deadline
    if d != 0 && decide (d < s.life.lt) && !(j.missed && j.status == 1) && !(j.missed && j.status == 2) then missJob s q n false
    else settle (missMembers s q n) q n

/-! ### Rows -/

/-- The armed deadline injection of a queue makes its next command miss (17 R551). -/
def injectMiss (s : State) (q n : Nat) : State :=
  let d := fireInj s 5 fun i => i.a == q
  if d.1 then (match s.job q n with
    | some j => if j.noDl then d.2 else missJob d.2 q n true
    | none => d.2)
  else s

/-- A breakpoint of kind `T` holds a command after its take (17 R549). -/
def breakTake (s : State) (q n : Nat) : State :=
  match breakpoint s q n 0 with
  | none => s
  | some i =>
    let was := s.inp.halted
    let s := hitBreak s i q n
    s.withJob q n fun s j => if j.phase == .waiting && !was then s.setJob { j with phase := .held } else s

/-- COMMAND_TAKE (13 R401, R402). -/
def commandTake (q : BitVec 6) (s : State) : State :=
  let q := q.toNat
  let k := s.queue q
  let size := 2 ^ k.log2
  let flight := (s.jobs.filter fun j => j.q == q).length
  let unread := (k.cplTail + 65536 - k.cplHead) % 65536
  let stopped := bit s.cas.qmask q && !s.cas.resumed && k.rollLeft == 0
  if !s.awake || !k.enable || k.head == k.tail || decide (64 ≤ flight) || decide (size ≤ flight + unread) || stopped then s
  else
    let c := (s.t1.fetch (k.ring + 64 * (k.head % size)) 64).1
    let n := k.seq
    let j : Job := { q := q, n := n, take := s.takeNo, cmd := c, prio := k.prio, noDl := k.noDl, abort := k.abort,
                     deps := ofLe ((c.drop 4).take 2), phase := .waiting, attempt := s.cas.attempt,
                     stepCmd := bit s.cas.qmask q && s.cas.state == 2 }
    let j := { j with deps := depsLeft s j, fences := fencesOf s j }
    let s := s.setQueue q { k with
      head := (k.head + 1) % 65536
      seq := (n + 1) % 65536
      cancelLeft := k.cancelLeft - 1
      rollLeft := k.rollLeft - 1 }
    let s := trace { s with takeNo := s.takeNo + 1, jobs := s.jobs ++ [j] } 0x01 0 0xFF q n j.op 0
    let s := match takeBad s q n c with
      | some o => reject s j 0x01 o 0
      | none =>
        if k.cancelLeft != 0 then s.setJob (j.mark 3).end
        else if k.rollLeft != 0 then s.setJob (j.mark 7).end
        else s
    injectMiss (breakTake s q n) q n

/-- DEPENDENCY_RELEASE (13 R406). -/
def dependencyRelease (q : BitVec 6) (n : BitVec 16) (s : State) : State :=
  s.withJob q.toNat n.toNat fun s j => s.setJob { j with deps := depsLeft s j }

/-- DEADLINE_MISS (13 R430). -/
def deadlineMiss (q : BitVec 6) (n : BitVec 16) (lt : Dword) (s : State) : State :=
  checkMiss (advance s lt) q.toNat n.toNat

/-- What a commit to a state copy does to its sequence's `POISON` (13 R420, 06 R214): `work` names the sequence and whether
the command writes the whole copy. -/
def seqPoison (s : State) (j : Job) (t : Tile) (last : Bool) : State :=
  match j.work with
  | [sid, whole] =>
    match seqRec s sid with
    | none => s
    | some x =>
      if t.poison != 0 then putSeq s sid { x with poison := true }
      else if last && whole == 1 && j.poison == 0 && (j.op == 0x18 || j.op == 0x19) then putSeq s sid { x with poison := false }
      else s
  | _ => s

/-- The KV format that a write by a command other than ATTN and STEP leaves in a page's side word (11 R352). -/
def plainKv : Nat := 0

/-- The members of an ATTN whose rows have all committed get their outcome (09 R305, 13 R431). -/
def endRows (s : State) (q n : Nat) : State :=
  s.withJob q n fun s j =>
    if j.op != 0x0A then s
    else (List.range j.members.length).foldl (fun s i =>
      s.withJob q n fun s j => match j.members[i]? with
        | some m => if m.phase == .issued && !(j.tiles.any fun t => t.num / j.memberRows == i) then
            endMember s q n i (if m.missed then 2 else 0) else s
        | none => s) s

/-- The front tile of a command commits (03 R98, R104; 12 R387-R389): its pages are reached, its writes issued, its flags and
occurrences reported, its counts added and its contributions made. -/
def commitTile (s : State) (j : Job) (t : Tile) (rest : List Tile) : State :=
  if slotsFull s t then s
  else
    let a := touchAll s t.core (some (j.q, j.n)) (wrPages t.wr)
    if !a.1 then a.2
    else match takePages a.2 ((a.2.job j.q j.n).getD j) fun s => (writeRuns false j.q j.n t.core plainKv s t.wr).map fun s => (s, ()) with
    | (none, s) => s
    | (some _, s) =>
      let s := report s j.loc t.core t.rep
      let s := bubbles (count (count s t.core 12 t.floor) t.core 13 t.masked) t.core t.bubble
      let s := s.withJob j.q j.n fun s j =>
        let j := { j with
          poison := sat32 j.poison t.poison
          result := j.result + t.result
          tiles := rest
          finished := j.finished + 1
          dry := false }
        seqPoison (s.setJob (j.commitUnit t.num t.index t.rep.fl)) j t (j.finished == j.total)
      let s := match s.cas.buckets.find? fun b => b.q == j.q && b.n == j.n with
        | none => s
        | some b => contribute s b t.contrib
      pumpWrites (settle (endRows s j.q j.n) j.q j.n)

/-- The items of a tile's work that no core has run yet, each with its core: on a deque, held for it, or saved there (01 R34, 13 R435). -/
def tileItems (s : State) (j : Job) (t : Tile) : List (Nat × Item) :=
  if j.isArray then []
  else s.cores.flatMap fun p => (p.2.deque ++ p.2.held ++ p.2.saved.map Prod.fst).filterMap fun i =>
    if i.q == j.q && i.n == j.n && i.tile / 1024 == t.unit then some (p.1, i) else none

/-- A core runs the item of a tile that it takes next (01 R34; 15 R500); the tiles of work in one item are that core's (01 R37). -/
def runItem (s : State) (j : Job) (t : Tile) (l : List (Nat × Item)) : Option (State × Job) :=
  (l.find? fun p => !s.coreStopped p.1 && s.nextItem p.1 == some p.2 && landedOn s j t.unit p.1).map fun p =>
    let s := s.setCore p.1 { (s.core p.1).without p.2 with idleSince := 0 }
    let own (u : Tile) : Tile := if u.unit == t.unit && t.items.length == 1 then { u with core := p.1 } else u
    let j := { j with tiles := j.tiles.map own }
    (s.setJob j, j)

/-- The front tile of a command: its items run, one by one, and the tile commits with the last (03 R98; 08 R265; 10 R339). -/
def finishTile (s : State) (j : Job) (t : Tile) (rest : List Tile) : State :=
  match tileItems s j t with
  | [] => commitTile s j t rest
  | l => match runItem s j t l with
    | none => s
    | some (s, j) => match j.tiles with
      | t :: rest => if l.length == 1 then commitTile s j t rest else s
      | [] => s

/-- TILE_COMMIT (03 R98). -/
def tileCommit (q : BitVec 6) (n : BitVec 16) (s : State) : State :=
  (s.withJob q.toNat n.toNat fun s j => if j.op == 0x0A then settle (missMembers s j.q j.n) j.q j.n else s).withJob
    q.toNat n.toNat fun s j =>
      match j.tiles with
      | [] => s
      | t :: rest => if j.phase == .running then finishTile s j t rest else s

/-- `CR_RESULT` (13 R425, 14 R480). -/
def Job.resultWord (j : Job) : Nat :=
  match j.op with
  | 0x09 => min j.waste 0xFFFFFFFF + j.neap <<< 32
  | 0x0A => min j.waste 0xFFFFFFFF + j.neap <<< 32
  | 0x38 => bucketResult j
  | 0x01 => if bit (j.body 0x20) 22 then bucketResult j else j.result
  | _ => j.result

/-- The record of a command (13 R422, R423). -/
def recordBytes (s : State) (k : Queue) (j : Job) : List Byte :=
  let phase := b2n ((k.cplTail / 2 ^ k.log2) % 2 == 0)
  let ix := j.idx.getD 0xFFFFFFFFFFFF
  leBytes 4 (ofLe ((j.cmd.drop 2).take 2) + j.q <<< 16 + j.op <<< 24 + phase <<< 31) ++
    leBytes 4 (j.status + j.fl.toNat <<< 8 + (fld ix 32 16) <<< 16) ++ leBytes 8 s.life.lt ++ leBytes 4 ix ++
    leBytes 4 (min j.poison 0xFFFFFFFF) ++ leBytes 8 j.resultWord

/-- One entry of an outcome list (09 R304). -/
def Member.entry (m : Member) : List Byte :=
  let done := m.outcome == 0 || m.outcome == 2
  leBytes 8 (m.outcome + (b2n m.neap) <<< 8 + (b2n (m.poison && done)) <<< 9 + (m.pos % 2 ^ 23) <<< 32)

/-- A STEP writes its outcome list (09 R304). -/
def writeOutcomes (s : State) (j : Job) : State :=
  if j.op == 0x09 && !j.members.isEmpty then s.wr (fld (j.body 0x10) 0 48) (j.members.flatMap Member.entry) else s

/-- An ATTN with `ADVANCE` that ends well moves its members on (13 R419). -/
def moveOn (s : State) (j : Job) : State :=
  if j.op == 0x0A && bit (j.body 0x18) 33 && (j.status == 0 || j.status == 1) then
    j.members.foldl (fun s m => match seqRec s m.sid with
      | some x => putSeq s m.sid { x with pos := (x.pos + fld (j.body 0x28) 32 16 + 1) % 2 ^ 23 }
      | none => s) s
  else s

/-- A command is finished and each of its writes is acknowledged or lost (12 R383). -/
def recordReady (s : State) (j : Job) : Bool :=
  j.phase == .done && j.tiles.isEmpty && j.wq.isEmpty && !(s.str.tags.any fun p => p.2.use.owner == some (j.q, j.n))

/-- COMPLETION_RECORD (13 R422). -/
def completionRecord (q : BitVec 6) (n : BitVec 16) (s : State) : State :=
  s.withJob q.toNat n.toNat fun s j =>
    if !recordReady s j || !s.awake then s
    else
      let s := checkMiss (dropHold s j.q j.n) j.q j.n
      let j := (s.job j.q j.n).getD j
      let s := moveOn (writeOutcomes s j) j
      let k := s.queue j.q
      let s := s.wr (k.cpl + 32 * (k.cplTail % 2 ^ k.log2)) (recordBytes s k j)
      let s := s.setQueue j.q { k with cplTail := (k.cplTail + 1) % 65536 }
      let s := settleClaims { s with jobs := s.jobs.filter fun x => x.take != j.take } j.loc
      let s := if bit j.hflags 2 then pulse s 0x06 else s
      let s := trace s 0x03 0 0xFF j.q j.n j.op (j.status + j.fl.toNat <<< 8 + (fld (j.idx.getD 0xFFFFFFFFFFFF) 32 16) <<< 16)
      match breakpoint s j.q j.n 1 with
      | none => s
      | some i => hitBreak s i j.q j.n

/-- DEADLINE_MISS. -/
def execDeadlineMiss (q : BitVec 6) (n : BitVec 16) (lt : Dword) (s : State) : Host.Outcome State Fault Refusal :=
  .next (deadlineMiss q n lt s)
/-- TILE_COMMIT. -/
def execTileCommit (q : BitVec 6) (n : BitVec 16) (s : State) : Host.Outcome State Fault Refusal := .next (tileCommit q n s)
end Sys2Proof.Machine
end

