-- ==== Sys2Proof/Machine/Sync.lean ====
section
/-! DEFINITION. Ordering commands: NOP, FENCE, BARRIER, SIGNAL and WAIT, with cascade barriers (12 R382, R383; 13 R426-R429;
14 R453, R454). -/
namespace Sys2Proof.Machine

/-- A command without work of its own is complete in full: committed index 0 (13 R425). -/
def finish (s : State) (j : Job) : State := s.setJob { j.end with idx := some 0 }

/-- Finishes the command `n` of queue `q`. -/
def finishJob (s : State) (q n : Nat) : State := s.withJob q n fun s j => if j.phase == .done then s else finish s j

/-- NOP (13 R404). -/
def nopRow (q : BitVec 6) (n : BitVec 16) (s : State) : State :=
  s.withJob q.toNat n.toNat fun s j => if j.op == 0x3F && mayStart s j then finish s j else s

/-- Every earlier command of the queue whose writes the FENCE covers has completed (12 R383, 13 R427). -/
def fenceClear (s : State) (j : Job) : Bool :=
  s.jobs.all fun k => !(k.q == j.q && decide (k.take < j.take) && (let f := jobFoot s k true; f.some && j.covers f))

/-- FENCE (12 R382, R383; 13 R420). -/
def fenceRow (q : BitVec 6) (n : BitVec 16) (s : State) : State :=
  s.withJob q.toNat n.toNat fun s j =>
    if j.op != 0x30 || !mayStart s j then s
    else if fld (j.body 0) 0 2 == 3 then reject s j 1 0x10 0
    else if fenceClear s j then finish s j
    else s

/-! ### Semaphores (13 R428) -/

/-- A WAIT's condition holds. -/
def waitOk (s : State) (j : Job) : Bool :=
  decide ((s.sync.sem.get (fld (j.body 0) 0 6) 0 + 2 ^ 32 - fld (j.body 8) 0 32) % 2 ^ 32 < 2 ^ 31)

/-- Every WAIT that stands and whose condition holds completes. -/
def satisfyWaits (s : State) : State :=
  (s.jobs.filter fun j => j.op == 0x33 && j.phase == .running && waitOk s j).foldl (fun s j => finishJob s j.q j.n) s

/-- A semaphore takes a value; WAITs look at it. -/
def setSem (s : State) (i v : Nat) : State :=
  satisfyWaits { s with sync := { s.sync with sem := s.sync.sem.put i (v % 2 ^ 32) } }

/-- WAIT (13 R428). -/
def waitRow (q : BitVec 6) (n : BitVec 16) (s : State) : State :=
  s.withJob q.toNat n.toNat fun s j =>
    if j.op != 0x33 || !mayStart s j then s
    else satisfyWaits (s.setJob { j with phase := .running })

/-- SIGNAL (13 R428): it adds once every earlier command of its queue has completed, and then writes its value. -/
def signalRow (q : BitVec 6) (n : BitVec 16) (s : State) : State :=
  s.withJob q.toNat n.toNat fun s j =>
    if j.op != 0x32 || !mayStart s j || s.earlier j then s
    else
      let i := fld (j.body 0) 0 6
      let s := finish s j
      let s := setSem s i (s.sync.sem.get i 0 + fld (j.body 8) 0 32)
      let a := j.body 0x10
      if a == 0 then s
      else
        match writeRun false j.q j.n j.core 0 s ⟨.t1, a, leBytes 8 (j.body 0x18), List.replicate 8 false, 64, 0⟩ with
        | none => s
        | some s => pumpWrites s

/-! ### Barriers (13 R429; 14 R453, R454) -/

/-- `b` is the commit barrier in force (14 R453, R473). -/
def isCommitBar (s : State) (b : Nat) : Bool := s.cas.commitEn && s.cas.commitBar == b

/-- Every arrival of barrier `b`'s generation completes, and the next arrival starts a new one. -/
def releaseBar (s : State) (b : Nat) : State :=
  let k := s.sync.bars.get b {}
  let s := k.arrivals.foldl (fun s a => finishJob s a.1 a.2) s
  let g := if k.cascade then (k.gen + 1) % 2 ^ 24 else k.gen
  { s with sync := { s.sync with bars := s.sync.bars.put b { k with
      count := 0
      cascade := false
      arrivals := []
      sent := false
      gen := g
      heard := k.heard.filter fun h => h.2 != k.gen || !k.cascade } } }

/-- On the headland every rank's ARRIVE for the generation in progress has been counted. -/
def allHeard (s : State) (b : Nat) : Bool :=
  let k := s.sync.bars.get b {}
  (List.range s.cas.ranks).all fun r => k.heard.contains (r, k.gen)

/-- The headland sends RELEASE and releases its own arrivals, unless the barrier is the commit barrier (14 R453). -/
def tryRelease (s : State) (b : Nat) : State :=
  let k := s.sync.bars.get b {}
  if !k.sent || !allHeard s b || isCommitBar s b then s
  else
    let s := (tab (s.cas.ranks - 1) fun i => i + 1).foldl (fun s r =>
      sendMsg s 0 (mkMsg s 0x11 r 0 0 (b + k.gen <<< 8) 0 [])) s
    releaseBar s b

/-- The local count of a cascade barrier is reached: ARRIVE goes to the headland (14 R453). -/
def sendArrive (s : State) (b : Nat) : State :=
  let k := s.sync.bars.get b {}
  let put (k : Barrier) : State := { s with sync := { s.sync with bars := s.sync.bars.put b k } }
  if s.cas.rank == 0 then tryRelease (put { k with sent := true, heard := (0, k.gen) :: k.heard.erase (0, k.gen) }) b
  else sendMsg (put { k with sent := true }) 0 (mkMsg s 0x10 0 0 0 (b + k.gen <<< 8) 0 [])

/-- A generation whose arrivals reach its count. -/
def barrierFull (s : State) (b : Nat) : State :=
  let k := s.sync.bars.get b {}
  if k.count == 0 || k.sent || decide (k.arrivals.length < k.count) then s
  else if k.cascade then sendArrive s b
  else releaseBar s b

/-- An arrival is counted (13 R429). While a generation that has sent ARRIVE is not released, the next arrival waits. -/
def arriveBar (s : State) (j : Job) : State :=
  let b := fld (j.body 0) 0 6
  let n := fld (j.body 0) 8 6 + 1
  let k := s.sync.bars.get b {}
  if k.arrivals.contains (j.q, j.n) || k.sent then s
  else if k.count != 0 && k.count != n then malform s j 1 0x11 0
  else
    barrierFull { s with sync := { s.sync with bars := s.sync.bars.put b { k with
      count := n
      cascade := if k.count == 0 then bit (j.body 0) 16 else k.cascade
      arrivals := k.arrivals ++ [(j.q, j.n)] } } } b

/-- BARRIER_ARRIVAL (13 R429). -/
def barrierArrival (q : BitVec 6) (n : BitVec 16) (s : State) : State :=
  s.withJob q.toNat n.toNat fun s j =>
    if j.op == 0x31 && j.phase == .running && !s.earlier j then arriveBar s j else s

/-- BARRIER (13 R429): the command is issued, and arrives at once when no earlier command of its queue is incomplete. -/
def barrierRow (q : BitVec 6) (n : BitVec 16) (s : State) : State :=
  s.withJob q.toNat n.toNat fun s j =>
    if j.op != 0x31 || !mayStart s j then s
    else
      let j := { j with phase := .running }
      let s := s.setJob j
      if s.earlier j then s else arriveBar s j

/-- NOP. -/
def execNop (q : BitVec 6) (n : BitVec 16) (s : State) : Host.Outcome State Fault Refusal := .next (nopRow q n s)
/-- FENCE. -/
def execFence (q : BitVec 6) (n : BitVec 16) (s : State) : Host.Outcome State Fault Refusal := .next (fenceRow q n s)
/-- BARRIER. -/
def execBarrier (q : BitVec 6) (n : BitVec 16) (s : State) : Host.Outcome State Fault Refusal := .next (barrierRow q n s)
/-- BARRIER_ARRIVAL. -/
def execBarrierArrival (q : BitVec 6) (n : BitVec 16) (s : State) : Host.Outcome State Fault Refusal :=
  .next (barrierArrival q n s)
/-- SIGNAL. -/
def execSignal (q : BitVec 6) (n : BitVec 16) (s : State) : Host.Outcome State Fault Refusal := .next (signalRow q n s)
/-- WAIT. -/
def execWaitCmd (q : BitVec 6) (n : BitVec 16) (s : State) : Host.Outcome State Fault Refusal := .next (waitRow q n s)

end Sys2Proof.Machine
end

