-- ==== Sys2Proof/Machine/Table.lean ====
section
/-! DEFINITION. Table domains: banks, reloads and epoch switches (02 R74; 08 R238, R249-R255; 13 R421). -/
namespace Sys2Proof.Machine

/-- Bytes of a bank image (13 R421, 18 R560). -/
def bankSize (sfu : Bool) : Nat := if sfu then 0x5040 else 0x800
/-- The active bank is B: bit 0 of the domain's epoch count (08 R255). -/
def activeB (t : Tables) (sfu : Bool) : Bool := bit (if sfu then t.sfuEpoch else t.dqEpoch) 0
/-- A bank image. -/
def bankOf (t : Tables) (sfu b : Bool) : Memory := if sfu then (if b then t.sfuB else t.sfuA) else (if b then t.dqB else t.dqA)
/-- Replaces a bank image. -/
def putBank (t : Tables) (sfu b : Bool) (m : Memory) : Tables :=
  match sfu, b with
  | false, false => { t with dqA := m }
  | false, true => { t with dqB := m }
  | true, false => { t with sfuA := m }
  | true, true => { t with sfuB := m }
/-- The pending bit of a domain (08 R255). -/
def tblPend (t : Tables) (sfu : Bool) : Bool := if sfu then t.sfuPend else t.dqPend
/-- Sets the pending bit. -/
def putPend (t : Tables) (sfu p : Bool) : Tables := if sfu then { t with sfuPend := p } else { t with dqPend := p }

/-- The active function bank (08 R238, 13 R421). -/
def fnBank (s : State) : FnBank :=
  let m := bankOf s.tbl true (activeB s.tbl true)
  ⟨fun i => m.num (8 * i) 8, fun t e => m.num (0x1000 + 0x400 * t + 4 * e) 4, fun c => m.num (0x5000 + 4 * c) 4⟩
/-- Entry `e` of dequantisation table `t` in the active bank (02 R74, 13 R421). -/
def dqEntry (s : State) (t e : Nat) : Nat := (bankOf s.tbl false (activeB s.tbl false)).num (32 * t + 2 * e) 2

/-- A byte of a bank image that TABLE may write (13 R421). -/
def bankWritable (sfu : Bool) (o : Nat) : Bool :=
  if sfu then (decide (0x600 ≤ o) && decide (o ≤ 0x9FF)) || (decide (0x4000 ≤ o) && decide (o ≤ 0x503F))
  else decide (o ≤ 0x7FF)

/-- One item of an entry list: offset, length, reserved word, source (13 R421). -/
structure TblItem where
  off : Nat
  len : Nat
  rsv : Nat
  src : Nat
  deriving DecidableEq, Repr

/-- The items of a TABLE (13 R412, R421). -/
def tblItems (s : State) (j : Job) : List TblItem :=
  tab (fld (j.body 0x10) 0 16) fun i =>
    let a := j.body 8 + 16 * i
    ⟨s.rd a 2, s.rd (a + 2) 2, s.rd (a + 4) 4, s.rd (a + 8) 8⟩

/-- An item in form: offset and length are multiples of 4, the rest reserved or an address. -/
def TblItem.formed (i : TblItem) : Bool := i.off % 4 == 0 && i.len % 4 == 0 && i.rsv == 0 && decide (i.src < 2 ^ 48)
/-- The first offset of an item that TABLE may not write. -/
def TblItem.outside (sfu : Bool) (i : TblItem) : Option Nat := ((List.range i.len).map (i.off + ·)).find? fun o => !bankWritable sfu o

/-- The failing offset of the check of a function bank (08 R241, R250; readings DEDUCED, log 10). -/
def bankBad (m : Memory) : Option Nat :=
  let b : FnBank := ⟨fun i => m.num (8 * i) 8, fun _ _ => 0, fun c => m.num (0x5000 + 4 * c) 4⟩
  (List.range 16).findSome? fun c =>
    let w := b.entry c
    let first := fld w 0 9
    let n := fld w 9 7
    if !bit w 31 then none
    else if first < 192 ∨ 319 < first + n - 1 ∨ n < 1 ∨ 64 < n ∨ fld w 16 15 ≠ 0 then some (0x5000 + 4 * c)
    else if !programOk (b.program c) then some (8 * first)
    else none

/-- An earlier TABLE of the domain still has its switch to make (08 R253). -/
def earlierReload (s : State) (j : Job) : Bool :=
  s.jobs.any fun k => k.reloads (bit (j.body 0) 0) && decide (k.take < j.take)

/-- Steps 1 to 4 of a reload; with no entries the shadow bank stands as software wrote it (08 R250, R255). -/
def reload (s : State) (j : Job) : State :=
  let sfu := bit (j.body 0) 0
  let act := activeB s.tbl sfu
  let items := tblItems s j
  let ok := items.filter fun i => (i.outside sfu).isNone
  let m := ok.foldl (fun (m : Memory) i => m.write i.off (readT1 s j.ctx i.src i.len).1) (bankOf s.tbl sfu (act == !items.isEmpty))
  let t := putBank s.tbl sfu (!act) m
  let bad := match items.findSome? fun i => i.outside sfu with
    | some o => some o
    | none => if sfu then bankBad m else none
  match bad with
  | some o => malform { s with tbl := t } { j with stage := 1 } 6 o 0
  | none => ({ s with tbl := putPend t sfu true }).setJob { j with phase := .running, stage := 2 }

/-- A TABLE that has been issued begins its step 1 when no earlier switch of its domain is pending (08 R250, R253). -/
def tryReload (s : State) (q n : Nat) : State :=
  s.withJob q n fun s j =>
    if j.op == 0x3C && j.phase == .running && j.stage == 0 && !earlierReload s j then reload s j else s

/-- TABLE (08 R250). -/
def tableRow (q : BitVec 6) (n : BitVec 16) (s : State) : State :=
  s.withJob q.toNat n.toNat fun s j =>
    if j.op != 0x3C || !mayStart s j then s
    else if (tblItems s j).any fun i => !i.formed then reject s j 1 0xFF (j.body 8)
    else tryReload (s.setJob { j with phase := .running }) j.q j.n

/-- TABLE_RELOAD_START (08 R253). -/
def tableReloadStart (q : BitVec 6) (n : BitVec 16) (s : State) : State := if s.awake then tryReload s q.toNat n.toNat else s

/-- Every command taken before the TABLE that uses its domain has ended (08 R252). -/
def usersDone (s : State) (j : Job) : Bool :=
  s.jobs.all fun k => !(decide (k.take < j.take) && usesDomain s k (bit (j.body 0) 0))

/-- EPOCH_SWITCH (08 R250, R252). -/
def epochSwitch (sfu : Bool) (s : State) : State :=
  match s.jobs.find? fun j => j.reloads sfu && j.stage == 2 with
  | none => s
  | some j =>
    if !usersDone s j then s
    else
      let t := putPend s.tbl sfu false
      let t := if sfu then { t with sfuEpoch := (t.sfuEpoch + 1) % 256 } else { t with dqEpoch := (t.dqEpoch + 1) % 256 }
      finish { s with tbl := t } { j with stage := 3 }

/-- TABLE. -/
def execTableCmd (q : BitVec 6) (n : BitVec 16) (s : State) : Host.Outcome State Fault Refusal := .next (tableRow q n s)
/-- TABLE_RELOAD_START. -/
def execTableReloadStart (q : BitVec 6) (n : BitVec 16) (s : State) : Host.Outcome State Fault Refusal :=
  .next (tableReloadStart q n s)
/-- EPOCH_SWITCH. -/
def execEpochSwitch (sfu : Bool) (s : State) : Host.Outcome State Fault Refusal := .next (epochSwitch sfu s)

end Sys2Proof.Machine
end

