-- ==== Sys2Proof/Machine/Elem.lean ====
section
/-! DEFINITION. Elementwise work: shapes and broadcasting, converted input elements, output rows, and tiles
(07 R218-R221, R227-R233; 12 R376, R388, R389). -/
namespace Sys2Proof.Machine

/-- A command or program entry that has passed its checks: the tensors it reads and writes, what each part of it reads, and how its tiles
come about. -/
structure Prep where
  ins : List Tensor
  outs : List Tensor
  parts : List Part
  run : State → List Tile × Option (Nat × Nat × Nat)

/-- A tensor reference that must be given; `o` is the field's offset in the command. -/
def need (s : State) (x : Ctx) (u : Use) (r o : Nat) : Except Bad Tensor :=
  if fld r 0 48 == 0 then .error (badField o) else tensor s x u (fld r 0 48)

/-- A check that answers a violation when it fails. -/
def check (b : Bool) (e : Bad) : Except Bad Unit := if b then .ok () else .error e

/-- The extents of a tensor, innermost first. -/
def Tensor.dims (t : Tensor) : List Nat := [t.d0, t.d1, t.d2, t.d3]
/-- The shape rules of a pass: in each dimension the input's extent is the output's or 1 (07 R218). -/
def fits (o t : Tensor) : Bool := (t.dims.zip o.dims).all fun d => d.1 == d.2 || d.1 == 1
/-- Equal shapes. -/
def sameShape (a b : Tensor) : Bool := a.dims == b.dims

/-- The element of an input that an output element reads (07 R218). -/
def castElem (o t : Tensor) (e : Nat) : Nat :=
  let i0 := e % o.d0
  let r := e / o.d0
  let i1 := r % o.d1
  let i2 := r / o.d1 % o.d2
  let i3 := r / o.d1 / o.d2
  let k (d i : Nat) : Nat := if d == 1 then 0 else i
  k t.d0 i0 + t.d0 * (k t.d1 i1 + t.d1 * (k t.d2 i2 + t.d2 * k t.d3 i3))

/-- Two ranges meet. -/
def meet (a b : Nat × Nat) : Bool := decide (a.1 < b.1 + b.2) && decide (b.1 < a.1 + a.2)

/-- The address extents of a dense tensor, its scale plane among them: whether in a state copy, from where, and the length. -/
def Tensor.extents (x : Ctx) (t : Tensor) : List (Bool × Nat × Nat) :=
  if t.space == 2 then [(true, t.addr, t.dense), (true, t.aux, t.scaleLen)] else (t.source x).map fun r => (false, r)

/-- An output may stand exactly on an input of the same format and shape, or not meet it at all (07 R221). -/
def overlapOk (x : Ctx) (inOut : Bool) (o t : Tensor) : Bool :=
  if o.list || t.list then true
  else
    let same := inOut && o.space == t.space && o.addr == t.addr && o.fmt == t.fmt && sameShape o t && (o.fmt != .log8 || o.aux == t.aux)
    same || !((o.extents x).any fun a => (t.extents x).any fun b => a.1 == b.1 && meet a.2 b.2)

/-- The violation of a block list whose walk broke off (12 R376). -/
def walkBad (s : State) (x : Ctx) (t : Tensor) : Nat × Nat × Nat :=
  match (walk s x.q t.dense t.addr t.dense).2.2 with
  | .owner sid => (3, 0, sid)
  | _ => (1, 0xFF, t.addr % 2 ^ 32)

/-- The first of some tensors whose stream does not give an element that is needed, with the walk's violation. -/
def missing (s : State) (x : Ctx) (l : List (Tensor × Nat)) : Option (Nat × Nat × Nat) :=
  (l.find? fun p => !p.1.gives p.2).map fun p => walkBad s x p.1

/-- Output elements among some that a poisoned block descriptor leaves unwritten (12 R376). -/
def unassured (t : Tensor) (es : List Nat) : Nat :=
  if t.list && t.lost then
    (es.filter fun e => !((List.range t.fmt.planes).all fun p => let a := t.at e p; decide (a.1 + a.2.1 ≤ t.bytes))).length
  else 0

/-- The DLOG32 output mode of a tensor (13 R407). -/
def Tensor.mode (t : Tensor) : DMode := (dmodeOf t.dmode).getD .direct

/-- An FP32 value in an output's format, with the flags of the conversion (07 R231). -/
def Tensor.enc (t : Tensor) (v : Nat) : Nat × Flags := vout t.fmt t.sat t.mode t.auxVal v

/-- A run of FP32 values of one row of an output: its writes and the flags of each element's conversion. A LOG8 run starts on
a block of 32 (07 R231). -/
def Tensor.emit (s : State) (x : Ctx) (t : Tensor) (row col : Nat) (vs : List (Nat × Bool)) : List Wr × List Flags :=
  let cs := vs.map fun v => (t.enc v.1, v.2)
  let w := t.putOut s x row col (cs.map fun c => (c.1.1, c.2))
  (w.1, (cs.zip w.2).map fun z => z.1.1.2 ||| z.2)

/-- The reports of a run of elements of a row in a unit (07 R229). -/
def rowRep (u : OUnit) (row col kg : Nat) (fl : List Flags) : Rep :=
  Rep.all (fl.zipIdx.map fun f => Rep.of f.1 u row (col + f.2) kg)

/-- A tile without extra counts, one work item on the core that its number gives (07 R219). -/
def plainTile (num index : Nat) (wr : List Wr) (rep : Rep) (poison : Nat) : Tile :=
  ⟨num, index, wr, rep, poison, num % Config.cores, 0, 0, 0, 0, [], 0, 0, num,
    [(num % Config.cores, false)]⟩

/-- Work items of a command in order until one needs what a broken walk does not give (12 R376). -/
def takeTiles (l : List (Option (Nat × Nat × Nat) × (Unit → Tile))) : List Tile × Option (Nat × Nat × Nat) :=
  match l with
  | [] => ([], none)
  | (some f, _) :: _ => ([], some f)
  | (none, t) :: r => let u := takeTiles r; (t () :: u.1, u.2)

/-- Runs a checked command: operands prepared, tiles computed, commits to come (03 R98). -/
def runPrep (s : State) (j : Job) (x : Ctx) (p : Prep) : State :=
  withOperands s j x p.ins p.parts fun s j => let r := p.run s; runTiles s j r.1 r.2

/-- The pieces of a row of `n` elements at `k` each: start and length. -/
def rowPieces (k n : Nat) : List (Nat × Nat) := tab (cdiv n k) fun i => (i * k, min k (n - i * k))

/-- The blocks of an output in order: row, first column, length (07 R219). -/
def Tensor.blocks (o : Tensor) : List (Nat × Nat × Nat) := (List.range o.rows).flatMap fun r => (rowPieces 4096 o.d0).map fun c => (r, c)

/-- What the blocks of an elementwise operation read of its inputs (07 R218, R221). -/
def blockParts (o : Tensor) (ins : List Tensor) : List Part :=
  o.blocks.zipIdx.map fun b =>
    let elems := tab b.1.2.2 fun i => b.1.1 * o.d0 + b.1.2.1 + i
    { unit := b.2, core := b.2 % Config.cores, elems := ins.flatMap fun t => elems.map fun e => (t, castElem o t e) }

/-- What the rows of a row operation read, block by block; a row is one part of the command (07 R219). -/
def rowParts (src : Tensor) (ins : List Tensor) : List Part :=
  (blockParts src (src :: ins)).zip src.blocks |>.map fun b => { b.1 with unit := b.2.1 }

end Sys2Proof.Machine
end

