-- ==== Sys2Proof/Machine/Vector.lean ====
section
/-! DEFINITION. Vector passes, COPY and FILL (02 R51, R570; 07 R217-R236; 13 R412, R420, R425). -/
namespace Sys2Proof.Machine

/-- A stage word of a pass program (07 R222). -/
structure Stage where
  op : Nat
  am : Nat
  a : Nat
  bm : Nat
  b : Nat
  cm : Nat
  c : Nat
  fmt : Nat
  sat : Bool
  rsv : Nat
  deriving DecidableEq, Repr

/-- Reads a stage word. -/
def Stage.ofNat (w : Nat) : Stage :=
  ⟨fld w 0 6, fld w 6 2, fld w 8 6, fld w 14 2, fld w 16 6, fld w 22 2, fld w 24 6, fld w 30 5, bit w 35, fld w 36 28⟩

/-- A pass program (07 R222). -/
structure Pass where
  ctrl : Nat
  out : Nat
  ks : List Nat
  stages : List Stage
  rsv : Nat
  deriving DecidableEq, Repr

/-- Reads the pass program at an address; `rsv` gathers the reserved bits of every stage word and the reserved bytes (07 R222). -/
def readPass (s : State) (a : Nat) : Pass :=
  let b := (s.t1.fetch a 128).1
  let w (o n : Nat) : Nat := ofLe ((b.drop o).take n)
  ⟨w 0 4, w 4 4, tab 8 fun i => w (8 + 4 * i) 4, tab (fld (w 0 4) 0 3 + 1) fun i => Stage.ofNat (w (0x28 + 8 * i) 8),
    w 0x68 24 + (tab 8 fun i => fld (w (0x28 + 8 * i) 8) 36 28).foldl (· + ·) 0⟩

/-- `NIN`. -/
def Pass.nin (p : Pass) : Nat := fld p.ctrl 3 2
/-- `NOUT`. -/
def Pass.nout (p : Pass) : Nat := fld p.ctrl 5 2
/-- `COMPACT`. -/
def Pass.compact (p : Pass) : Bool := bit p.ctrl 18
/-- Input mode of stream `i`. -/
def Pass.inMode (p : Pass) (i : Nat) : Nat := fld p.ctrl (8 + 2 * i) 2
/-- Output mode of output `i`. -/
def Pass.outMode (p : Pass) (i : Nat) : Nat := fld p.ctrl (14 + 2 * i) 2
/-- Source of output `i`. -/
def Pass.outSrc (p : Pass) (i : Nat) : Nat := fld p.out (8 * i) 6

/-- No operand (07 R223). -/
def srcNone : Nat := 0x3F

/-- The type of a source for a stage with `types` of the stages before it: predicate or value; none when it may not be named
(07 R223). -/
def srcType (nin : Nat) (types : List Bool) (c : Nat) : Option Bool :=
  if c < 3 then (if c < nin then some false else none)
  else if 8 ≤ c ∧ c < 16 then some false
  else if 16 ≤ c ∧ c < 24 then types[c - 16]?
  else none

/-- A used operand: its type, when its source and modifier are allowed (07 R223, R224). -/
def operandType (nin : Nat) (types : List Bool) (m c : Nat) : Option Bool :=
  match srcType nin types c with
  | none => none
  | some p => if p && decide (2 ≤ m) then none else some p

/-- The formats that `CVT` accepts (07 R225). -/
def cvtOk (f : Nat) : Bool := [0, 1, 2, 3, 4, 5, 8].contains f
/-- A maintenance opcode (07 R225). -/
def isScanOp (op : Nat) : Bool := op == 0x20 || op == 0x21 || op == 0x22

/-- The type of a stage's result, when the stage keeps the rules of 07 R223-R225. -/
def stageType (nin : Nat) (types : List Bool) (g : Stage) : Option Bool :=
  let A := operandType nin types g.am g.a
  let B := operandType nin types g.bm g.b
  let C := operandType nin types g.cm g.c
  let noB := g.b == srcNone && g.bm == 0
  let noC := g.c == srcNone && g.cm == 0
  let plain := g.fmt == 0 && !g.sat
  let val : Option Bool := some false
  if g.rsv != 0 then none
  else match g.op with
  | 0x01 => if A == val && B == val && noC && plain then some false else none
  | 0x02 => if A == val && B == val && noC && plain then some false else none
  | 0x03 => if A == val && B == val && C == val && plain then some false else none
  | 0x10 => if A == some true && B.isSome && B == C && plain then B else none
  | 0x11 => if A == val && B == val && noC && plain then some false else none
  | 0x12 => if A == val && B == val && noC && plain then some false else none
  | 0x18 => if A == val && noB && noC && cvtOk g.fmt && (!g.sat || g.fmt == 3) then some false else none
  | 0x20 => if A == val && noB && noC && plain then some false else none
  | 0x21 => if A == val && noB && noC && plain then some false else none
  | 0x22 => if A == val && B == some true && noC && plain then some false else none
  | op => if 8 ≤ op ∧ op ≤ 13 then (if A == val && B == val && noC && plain then some true else none) else none

/-- The types of a program's stages. -/
def stageTypes (nin : Nat) : List Stage → List Bool → Option (List Bool)
  | [], ts => some ts
  | g :: gs, ts => match stageType nin ts g with
    | none => none
    | some t => stageTypes nin gs (ts ++ [t])

/-- A pass program keeps the rules of form (07 R222-R225, R231, R236). -/
def Pass.ok (p : Pass) : Bool :=
  fld p.ctrl 19 13 == 0 && !bit p.ctrl 7 && fld p.out 14 18 == 0 && fld p.out 6 2 == 0 && p.rsv == 0 &&
    (p.nout == 1 || p.nout == 2) &&
    (match stageTypes p.nin p.stages [] with
    | none => false
    | some ts =>
      (List.range p.nout).all (fun i => (srcType p.nin ts (p.outSrc i)).isSome) &&
        (!p.compact || (p.nout == 2 && srcType p.nin ts (p.outSrc 1) == some true)))

/-- A pass has a scan stage (07 R235). -/
def Pass.scans (p : Pass) : Bool := p.stages.any fun g => isScanOp g.op

/-- A pass uses what only the maintenance state allows (07 R234). -/
def Pass.maint (p : Pass) : Bool := p.compact || p.scans

/-- A value or predicate (1 or 0) with its poison. -/
abbrev Lane := Nat × Bool

/-- Applies a modifier (07 R224). -/
def modify (pred : Bool) (m v : Nat) : Nat :=
  if pred then (if m == 1 then 1 - v else v)
  else match m with
    | 1 => fneg v
    | 2 => fabs v
    | 3 => fabs v + 2 ^ 31
    | _ => v

/-- `CVT` (07 R225). -/
def cvt (f : Nat) (sat : Bool) (a : Nat) : Nat × Flags :=
  match f with
  | 0 => (a, 0)
  | 5 => let r := f32ToLog16 a; let b := log16To32 r.1; (b.1, r.2 ||| b.2)
  | 8 => let r := f32ToInt 8 0x4000 a; ((intTo32 (sgn 8 r.1)).1, r.2)
  | _ => match fmtOf f with
    | some g => let r := f32ToIeee g.ieee sat a; ((ieeeTo32 g.ieee r.1).1, r.2)
    | none => (a, 0)

/-- What a scan stage carries along a row: the sum so far if it has begun, the element still to be added by an exclusive sum,
and the poison so far (07 R235). -/
structure ScanAcc where
  sum : Option Nat
  last : Option Nat
  poison : Bool
  deriving DecidableEq, Repr

/-- One element of a scan stage (07 R235). -/
def scanStep (op : Nat) (k : ScanAcc) (a b : Lane) : Lane × Flags × ScanAcc :=
  match op with
  | 0x20 =>
    let r := match k.sum with | none => (a.1, f0) | some v => fadd v a.1
    let p := k.poison || a.2
    ((r.1, p), r.2, ⟨some r.1, none, p⟩)
  | 0x21 =>
    let r := match k.last with | none => (k.sum.getD 0, f0) | some v => fadd (k.sum.getD 0) v
    let p := k.poison || a.2
    ((r.1, p), r.2, ⟨some r.1, some a.1, p⟩)
  | _ =>
    let start := b.1 == 1
    let r := if start then (a.1, f0) else match k.sum with | none => (a.1, f0) | some v => fadd v a.1
    let p := (if start && !b.2 then false else k.poison) || a.2 || b.2
    ((r.1, p), r.2, ⟨some r.1, none, p⟩)

/-- The value of a source. -/
def srcLane (p : Pass) (ins res : List Lane) (c : Nat) : Lane :=
  if c < 3 then ins.getD c (0, false)
  else if 8 ≤ c ∧ c < 16 then (p.ks.getD (c - 8) 0, false)
  else res.getD (c - 16) (0, false)

/-- One stage on one element: its result, its flags and its scan state (07 R225, R228, R233). -/
def stageLane (p : Pass) (types : List Bool) (ins res : List Lane) (g : Stage) (k : ScanAcc) : Lane × Flags × ScanAcc :=
  let op (m c : Nat) : Lane :=
    let l := srcLane p ins res c
    (modify ((srcType 3 types c).getD false) m l.1, l.2)
  let a := op g.am g.a
  let b := op g.bm g.b
  let c := op g.cm g.c
  let two (r : Nat × Flags) : Lane × Flags × ScanAcc := ((r.1, a.2 || b.2), r.2, k)
  match g.op with
  | 0x01 => two (fadd a.1 b.1)
  | 0x02 => two (fmul a.1 b.1)
  | 0x03 => let r := ffma a.1 b.1 c.1; ((r.1, a.2 || b.2 || c.2), r.2, k)
  | 0x10 => ((if a.1 == 1 then b.1 else c.1, a.2 || b.2 || c.2), 0, k)
  | 0x11 => two (fminmax false a.1 b.1)
  | 0x12 => two (fminmax true a.1 b.1)
  | 0x18 => let r := cvt g.fmt g.sat a.1; ((r.1, a.2), r.2, k)
  | 0x20 => scanStep 0x20 k a b
  | 0x21 => scanStep 0x21 k a b
  | 0x22 => scanStep 0x22 k a b
  | o => two (b2n (compareBy o a.1 b.1), cmpFlags a.1 b.1)

/-- All stages on one element: results, the flags of each stage, scan states. -/
def stagesLane (p : Pass) (types : List Bool) (ins : List Lane) :
    List (Stage × ScanAcc) → List Lane → List Lane × List Flags × List ScanAcc
  | [], res => (res, [], [])
  | (g, k) :: gs, res =>
    let r := stageLane p types ins res g k
    let u := stagesLane p types ins gs (res ++ [r.1])
    (u.1, r.2.1 :: u.2.1, r.2.2 :: u.2.2)

/-- One element of a pass: the sources of its outputs as FP32 values, the flags of its input conversions and stages, and
whether its O1 predicate holds. -/
structure PassElem where
  outs : List Lane
  flags : List Flags
  deriving DecidableEq, Repr

/-- One element: input conversion, stages, output sources (07 R226-R228). -/
def passElem (s : State) (x : Ctx) (p : Pass) (types : List Bool) (ins : List Tensor) (o : Tensor) (e : Nat)
    (ks : List ScanAcc) : PassElem × List ScanAcc :=
  let iv := ins.zipIdx.map fun t => t.1.vec s x (p.inMode t.2 == 1) (castElem o t.1 e)
  let lanes := iv.map fun v => (v.1, v.2.2)
  let r := stagesLane p types lanes (p.stages.zip ks) []
  let src (i : Nat) : Lane :=
    let c := p.outSrc i
    let l := srcLane p lanes r.1 c
    if (srcType 3 types c).getD false then (if l.1 == 1 then one32 else 0, l.2) else l
  (⟨(List.range p.nout).map src, iv.map (fun v => v.2.1) ++ r.2.1⟩, r.2.2)

/-- The part of a pass that an element belongs to: its block, or with a scan stage its row's first block (07 R219, R235). -/
def Pass.unitOf (p : Pass) (o : Tensor) (row col : Nat) : Nat := row * cdiv o.d0 4096 + if p.scans then 0 else col / 4096

/-- The elements of one row in ascending index. -/
def passRow (s : State) (x : Ctx) (p : Pass) (types : List Bool) (ins : List Tensor) (o : Tensor) (row : Nat) :
    Nat → Nat → List ScanAcc → List PassElem
  | 0, _, _ => []
  | k + 1, col, ks =>
    let r := passElem s (x.atBlock (p.unitOf o row col)) p types ins o (row * o.d0 + col) ks
    r.1 :: passRow s x p types ins o row k (col + 1) r.2

/-- The reports of an element's input conversions and stages. -/
def PassElem.rep (row col : Nat) (e : PassElem) : Rep := Rep.all (e.flags.map fun f => Rep.of f .vector row col noKgrp)

/-- The writes and reports of one output of a block without `COMPACT`. -/
def passOut (s : State) (x : Ctx) (i : Nat) (o : Tensor) (row col : Nat) (es : List PassElem) : List Wr × Rep × Nat :=
  let vs := es.map fun e => e.outs.getD i (0, false)
  let w := o.emit s x row col vs
  (w.1, rowRep .vector row col noKgrp w.2, poisonCount vs + unassured o (tab es.length fun k => row * o.d0 + col + k))

/-- A packed element of a compacting pass: its place in O1, its block, its value and poison (07 R236). -/
structure Packed where
  at_ : Nat
  block : Nat
  row : Nat
  col : Nat
  lane : Lane
  deriving DecidableEq, Repr

/-- Packs the elements of a pass whose O1 predicate holds, in ascending index (07 R236). -/
def packElems (d0 : Nat) : List (Nat × PassElem) → Nat → Bool → List Packed
  | [], _, _ => []
  | (e, v) :: es, k, bad =>
    let pr := v.outs.getD 1 (0, false)
    let bad := bad || pr.2
    let o := v.outs.getD 0 (0, false)
    if pr.1 == one32 then
      ⟨k, e / d0 * cdiv d0 4096 + e % d0 / 4096, e / d0, e % d0, (o.1, o.2 || bad)⟩ :: packElems d0 es (k + 1) bad
    else packElems d0 es k bad

/-- The writes of packed elements into O1: a LOG8 block goes with its last element, any other element alone. -/
def packedWrites (s : State) (x : Ctx) (o : Tensor) (ps : List Packed) (block : Nat) : List Wr × Rep × Nat :=
  let g := if o.fmt == .log8 then 32 else 1
  let groups := (ps.map fun p => (p.at_ / o.d0, p.at_ % o.d0 / g)).eraseDups
  groups.foldl (fun (a : List Wr × Rep × Nat) k =>
    let m := ps.filter fun p => p.at_ / o.d0 == k.1 && p.at_ % o.d0 / g == k.2
    match m.getLast? with
    | none => a
    | some l =>
      if l.block != block then a
      else
        let w := o.emit s x k.1 (k.2 * g) (m.map Packed.lane)
        let rep := Rep.all ((m.zip w.2).map fun z => Rep.of z.2 .vector z.1.row z.1.col noKgrp)
        (a.1 ++ w.1, a.2.1.and rep, a.2.2 + poisonCount (m.map Packed.lane) + unassured o (m.map Packed.at_)))
    ([], Rep.nil, 0)

/-- The tiles of a pass: one for each vector block; the blocks of a row with a scan stage are one work item on the core of the first
(07 R219, R232, R235). -/
def passTiles (p : Pass) (types : List Bool) (x : Ctx) (ins outs : List Tensor) (s : State) :
    List Tile × Option (Nat × Nat × Nat) :=
  match outs with
  | [] => ([], none)
  | o :: _ =>
    let k0 : List ScanAcc := p.stages.map fun _ => ⟨none, none, false⟩
    let rows := tab o.rows fun r => passRow s x p types ins o r o.d0 0 k0
    let packed := if p.compact then packElems o.d0 (rows.zipIdx.flatMap fun r => r.1.zipIdx.map fun e => (r.2 * o.d0 + e.2, e.1)) 0 false
      else []
    let o1 := outs.getD 1 o
    takeTiles (o.blocks.zipIdx.map fun b =>
      let row := b.1.1
      let col := b.1.2.1
      let n := b.1.2.2
      let es := ((rows.getD row []).drop col).take n
      let elems := tab n fun k => row * o.d0 + col + k
      let used := (ins.flatMap fun t => elems.map fun e => (t, castElem o t e)) ++
        (if p.compact then (packed.filter fun q => q.block == b.2).map fun q => (o1, q.at_)
          else outs.flatMap fun t => elems.map fun e => (t, e))
      (missing s x used, fun _ =>
        let own := Rep.all (es.zipIdx.map fun e => e.1.rep row (col + e.2))
        let ws := if p.compact then [packedWrites s x o1 packed b.2]
          else outs.zipIdx.map fun t => passOut s x t.2 t.1 row col es
        let t := plainTile b.2 (row * o.d0 + col + n - 1) (ws.flatMap fun w => w.1)
          (own.and (Rep.all (ws.map fun w => w.2.1))) (ws.foldl (fun a w => a + w.2.2) 0)
        let first := p.unitOf o row col
        { t with
          result := if p.compact then (packed.filter fun q => q.block == b.2).length else 0
          core := first % Config.cores
          unit := first
          items := if b.2 == first then [(first % Config.cores, false)] else [] }))

/-- What each part of a pass reads. -/
def passParts (p : Pass) (ins : List Tensor) (o : Tensor) : List Part :=
  (blockParts o ins).zip o.blocks |>.map fun b =>
    let u := p.unitOf o b.2.1 b.2.2.1
    { b.1 with unit := u, core := u % Config.cores }

/-- VEC's checks (07 R217-R236; 13 R408, R412). -/
def prepVec (s : State) (x : Ctx) (c : List Byte) : Except Bad Prep := do
  let pa := bw c 5
  let p := readPass s pa
  check (pa % 64 == 0) (badField 0x38)
  check p.ok (badRef pa)
  let ins ← (List.range p.nin).mapM fun i => need s x .vin (bw c i) (0x10 + 8 * i)
  let outs ← (List.range p.nout).mapM fun i => need s x .vout (bw c (3 + i)) (0x28 + 8 * i)
  let o := outs.getD 0 ⟨.fp32, 0, 0, false, 0, false, 0, 0, 0, 1, 1, 1, 1, [], 0, false⟩
  check (outs.all (sameShape o) && ins.all (fits o)) (badField 0x28)
  check (ins.zipIdx.all fun t => if t.1.fmt == .dlog32 then decide (p.inMode t.2 < 2) else p.inMode t.2 == 0) (badRef pa)
  check (outs.zipIdx.all fun t => if t.1.fmt == .dlog32 then p.outMode t.2 == t.1.dmode else p.outMode t.2 == 0) (badRef pa)
  check (p.nout == 2 || p.outMode 1 == 0) (badRef pa)
  check (outs.all fun a => ins.all (overlapOk x true a)) (badField 0x28)
  check (match outs with | [a, b] => overlapOk x false a b | _ => true) (badField 0x30)
  check (!p.maint || s.life.maint) ⟨0x0A, 0, 0⟩
  return ⟨ins, outs, passParts p ins o, passTiles p ((stageTypes p.nin p.stages []).getD []) x ins outs⟩

/-- VEC (07 R217). -/
def vecRow (q : BitVec 6) (n : BitVec 16) (s : State) : State :=
  startRow 0x10 q.toNat n.toNat s (fun s j => prepVec s j.ctx j.cmd) (fun s j p => runPrep s j j.ctx p)

/-! ### COPY and FILL -/

/-- The part of a row that lies in one 64 KiB tile of a destination's first plane: tile, row, first column, columns
(13 R425). -/
def copySegs (t : Tensor) : List (Nat × Nat × Nat × Nat) :=
  let rb := rowBytes t.fmt t.d0
  (List.range t.rows).flatMap fun r =>
    let b := r * rb
    let lo := b / 65536
    (tab ((b + rb - 1) / 65536 + 1 - lo) fun i =>
      let k := lo + i
      let c0 := cdiv ((65536 * k - b) * 8) t.fmt.bits
      let c1 := min t.d0 (cdiv ((65536 * (k + 1) - b) * 8) t.fmt.bits)
      (k, r, c0, c1 - c0)).filter fun g => g.2.2.2 != 0

/-- A destination row: the codes of each plane, the poison and the flags of each element, and the LOG8 scale bytes. -/
structure CopyRow where
  planes : List (List Nat)
  poison : List Bool
  flags : List Flags
  scales : List (Nat × Bool)
  deriving DecidableEq, Repr

/-- A row copied byte for byte (02 R51, R570). -/
def sameRow (s : State) (x : Ctx) (src dst : Tensor) (r : Nat) : CopyRow :=
  let el (c p : Nat) : Nat × Bool := src.raw s x (castElem dst src (r * dst.d0 + c)) p
  let k := scaleRow dst.d0
  let sr := castElem dst src (r * dst.d0) / src.d0
  let sc := if dst.fmt == .log8 then tab k fun i =>
      let b := src.readAux s x (k * src.rows) (sr * k + i) 1
      (ofLe b.1, b.2.any id)
    else []
  let ps := (List.range dst.fmt.planes).map fun p => tab dst.d0 fun c => el c p
  ⟨ps.map fun l => l.map Prod.fst,
   tab dst.d0 fun c => (ps.any fun l => (l.getD c (0, false)).2) || (sc.getD (c / 32) (0, false)).2,
   [], sc⟩

/-- A row of FP32 values in the destination's format (02 R51, R62, R72, R78). The input and the output conversion of an element count as one
occurrence (DESIGN CHOICE, log 35). -/
def convRow (dst : Tensor) (vs : List (Nat × Flags × Bool)) : CopyRow :=
  let poison := vs.map fun v => v.2.2
  match dst.fmt with
  | .log16x2 =>
    let r := vs.map fun v => split3 v.1
    ⟨[r.map fun a => a.1.1, r.map fun a => a.1.2.1], poison, (vs.zip r).map fun z => z.1.2.1 ||| z.2.2, []⟩
  | .log16x3 =>
    let r := vs.map fun v => split3 v.1
    ⟨[r.map fun a => a.1.1, r.map fun a => a.1.2.1, r.map fun a => a.1.2.2], poison,
     (vs.zip r).map fun z => z.1.2.1 ||| z.2.2, []⟩
  | .log8 =>
    let r := vs.map fun v => dst.enc v.1
    let bl := chunksOf 32 (r.length + 1) (r.zip poison)
    let sc := bl.map fun b => (log8Scale (b.map fun z => z.1.1), b.any Prod.snd)
    let el := (bl.zip sc).flatMap fun z => z.1.map fun a => log16To8 a.1.1 z.2.1
    ⟨[el.map Prod.fst], poison, ((vs.zip r).zip el).map fun z => z.1.1.2.1 ||| z.1.2.2 ||| z.2.2, sc⟩
  | _ =>
    let r := vs.map fun v => dst.enc v.1
    ⟨[r.map Prod.fst], poison, (vs.zip r).map fun z => z.1.2.1 ||| z.2.2, []⟩

/-- The writes of a segment of a destination row: each plane, and the scale bytes of the blocks that begin in it. -/
def segWrites (s : State) (x : Ctx) (dst : Tensor) (row col n : Nat) (r : CopyRow) : List Wr :=
  let cut {α : Type} (l : List α) : List α := (l.drop col).take n
  let ps := r.planes.zipIdx.flatMap fun p => dst.putRow s x row col p.2 ((cut p.1).zip (cut r.poison))
  let b0 := cdiv col 32
  let b1 := cdiv (col + n) 32
  let sc := (r.scales.drop b0).take (b1 - b0)
  if sc.isEmpty then ps
  else
    let k := scaleRow dst.d0
    ps ++ dst.putAux s x (k * dst.rows) (row * k + b0) (sc.map fun z => BitVec.ofNat 8 z.1) (sc.map Prod.snd) 0

/-- The tiles of a COPY or FILL whose destination rows are given (13 R425). -/
def copyTiles (x : Ctx) (src : Option Tensor) (dst : Tensor) (row : State → Nat → CopyRow) (once : Option Rep) (s : State) :
    List Tile × Option (Nat × Nat × Nat) :=
  let rows := tab dst.rows (row s)
  let segs := copySegs dst
  let nt := (segs.foldl (fun a g => max a g.1) 0) + 1
  takeTiles (tab nt fun k =>
    let mine := segs.filter fun g => g.1 == k
    let elems := mine.flatMap fun g => tab g.2.2.2 fun i => g.2.1 * dst.d0 + g.2.2.1 + i
    let used := (match src with
      | none => []
      | some t => elems.map fun e => (t, castElem dst t e)) ++ elems.map fun e => (dst, e)
    (missing s x used, fun _ =>
      let parts := mine.map fun g =>
        let r := rows.getD g.2.1 ⟨[], [], [], []⟩
        let ps := (r.poison.drop g.2.2.1).take g.2.2.2
        (segWrites s x dst g.2.1 g.2.2.1 g.2.2.2 r, rowRep .vector g.2.1 g.2.2.1 noKgrp ((r.flags.drop g.2.2.1).take g.2.2.2),
          (ps.filter id).length)
      let rep := match once with
        | some r => if k == 0 then r else Rep.nil
        | none => Rep.all (parts.map fun p => p.2.1)
      plainTile k (elems.foldl max 0) (parts.flatMap fun p => p.1) rep (parts.foldl (fun a p => a + p.2.2) 0 + unassured dst elems)))

/-- What each tile of a COPY reads (13 R425). -/
def copyParts (src dst : Tensor) : List Part :=
  (copySegs dst).map fun g =>
    { unit := g.1, core := g.1 % Config.cores
      elems := tab g.2.2.2 fun i => (src, castElem dst src (g.2.1 * dst.d0 + g.2.2.1 + i)) }

/-- The sequence that a `SEQW` names, owned by the queue (09 R275, 13 R420). -/
def seqWord (s : State) (q w : Nat) : Except Bad (Option Slot) :=
  if !bit w 20 then .ok none
  else match seqRec s (fld w 0 20) with
    | none => .error ⟨3, 0, fld w 0 20⟩
    | some y => if y.owner == q then .ok (some y) else .error ⟨3, 0, fld w 0 20⟩

/-- The context of a COPY or FILL. -/
def seqCtx (j : Job) : Ctx := { j.ctx with sid := if bit (j.body 0x28) 20 then some (fld (j.body 0x28) 0 20) else none }

/-- COPY's checks (02 R51, R570). -/
def prepCopy (s : State) (x : Ctx) (c : List Byte) : Except Bad Prep := do
  let _ ← seqWord s x.q (bw c 5)
  let src ← need s x .any (bw c 0) 0x10
  let df := fld (s.rd (fld (bw c 1) 0 48 + 6) 2) 0 5
  let same := fmtOf df == some src.fmt
  let dst ← need s x (if same then .copySame else .copyDst) (bw c 1) 0x18
  check (same || src.fmt.okVin) (badField 0x10)
  check (fits dst src) (badField 0x18)
  let packed := dst.fmt == .log8 || dst.fmt == .int4 || dst.fmt == .int2 || dst.fmt == .log16x2 || dst.fmt == .log16x3
  check (!(same && packed) || src.d0 == dst.d0) (badField 0x18)
  let row (s : State) (r : Nat) : CopyRow :=
    if same then sameRow s x src dst r
    else convRow dst (tab dst.d0 fun k => src.vec s x false (castElem dst src (r * dst.d0 + k)))
  return ⟨[src], [dst], copyParts src dst, copyTiles x (some src) dst row none⟩

/-- FILL's checks (02 R51). -/
def prepFill (s : State) (x : Ctx) (c : List Byte) : Except Bad Prep := do
  let _ ← seqWord s x.q (bw c 5)
  let dst ← need s x .fillDst (bw c 1) 0x18
  let v := fld (bw c 2) 0 32
  let one := convRow dst [(v, 0, false)]
  let row (_ : State) (_ : Nat) : CopyRow :=
    { (convRow dst (List.replicate dst.d0 (v, 0, false))) with flags := [] }
  return ⟨[], [dst], [], copyTiles x none dst row (some (Rep.of (one.flags.headD 0) .vector 0 0 noKgrp))⟩

/-- A named sequence is parked or `IDLE`, so that its copy of record stands still (09 R278). -/
def seqStill (s : State) (x : Ctx) : Bool :=
  match x.sid with
  | none => true
  | some sid => match slotOf s sid with
    | none => true
    | some (_, y) => y.state == 1

/-- Runs a COPY or FILL; what it does to its sequence's `POISON` is settled at its commits (13 R420). -/
def runSeqCopy (s : State) (j : Job) (p : Prep) : State :=
  let x := seqCtx j
  if !seqStill s x then s
  else
    let dst := p.outs.headD ⟨.fp32, 0, 0, false, 0, false, 0, 0, 0, 1, 1, 1, 1, [], 0, false⟩
    let whole := dst.addr == 0 && decide (stateSize s x ≤ dst.dense)
    let work := match x.sid with | some sid => if dst.space == 2 then [sid, b2n whole] else [] | none => []
    runPrep (s.setJob { j with work := work }) { j with work := work } x p

/-- COPY. -/
def copyRow (q : BitVec 6) (n : BitVec 16) (s : State) : State :=
  startRow 0x18 q.toNat n.toNat s (fun s j => prepCopy s (seqCtx j) j.cmd) runSeqCopy
/-- FILL. -/
def fillRow (q : BitVec 6) (n : BitVec 16) (s : State) : State :=
  startRow 0x19 q.toNat n.toNat s (fun s j => prepFill s (seqCtx j) j.cmd) runSeqCopy

/-- VEC. -/
def execVec (q : BitVec 6) (n : BitVec 16) (s : State) : Host.Outcome State Fault Refusal := .next (vecRow q n s)
/-- COPY. -/
def execCopy (q : BitVec 6) (n : BitVec 16) (s : State) : Host.Outcome State Fault Refusal := .next (copyRow q n s)
/-- FILL. -/
def execFill (q : BitVec 6) (n : BitVec 16) (s : State) : Host.Outcome State Fault Refusal := .next (fillRow q n s)

end Sys2Proof.Machine
end

