-- ==== Sys2Proof/Machine/Slots.lean ====
section
/-! DEFINITION. Slots: placement, parking, unparking, migration, and the waits of admissions (01 R38; 06 R193-R196;
09 R278-R290, R306). -/
namespace Sys2Proof.Machine

/-- The number of slots. -/
def slotMax : Nat := 4096

/-! ### Placement (09 R280, 06 R194) -/

/-- Where a sequence is placed: its core and the places of its two copies. -/
structure Spot where
  core : Nat
  st0 : Nat
  st1 : Nat
  deriving DecidableEq, Repr

/-- The sequences in slots whose core is `c`. -/
def coreLoad (s : State) (c : Nat) : Nat := (s.slots.recs.filter fun p => p.2.core == c).length

/-- The ranges of a core's state store that pairs occupy or have been reserved for a move. -/
def storeUse (s : State) (c : Nat) : List (Nat × Nat) :=
  (s.slots.recs.flatMap fun p =>
    if p.2.resid != 1 then []
    else
      let here := if p.2.core == c then [(p.2.st0, p.2.size), (p.2.st1, p.2.size)] else []
      match s.slots.moveTo.find p.1 with
      | some m => if m.1 == c then here ++ [(m.2.1, p.2.size), (m.2.2, p.2.size)] else here
      | none => here)

/-- The end of the part of a core's state store that pairs may occupy (06 R194). -/
def storeTop (s : State) (c : Nat) : Nat :=
  if s.slots.recs.any fun p => p.2.resid == 2 && p.2.core == c then 0xA0000 else 0x100000

/-- The lowest place of `n` bytes below `top` that meets none of the ranges. -/
def firstFit (used : List (Nat × Nat)) (n top : Nat) : Option Nat :=
  (0 :: used.map fun r => r.1 + r.2).foldl (fun (b : Option Nat) a =>
    if decide (top < a + n) || used.any (fun r => decide (a < r.1 + r.2) && decide (r.1 < a + n)) then b
    else match b with
      | none => some a
      | some v => some (min a v)) none

/-- Room for the pair of a `RESIDENT` sequence on a core (06 R194). -/
def storeFit (s : State) (c size : Nat) : Option (Nat × Nat) :=
  match firstFit (storeUse s c) size (storeTop s c) with
  | none => none
  | some a => (firstFit ((a, size) :: storeUse s c) size (storeTop s c)).map fun b => (a, b)

/-- Nothing of a pair lies in the part of a core's state store that is the staging area for `STREAMED` sequences (06 R194). -/
def stageFree (s : State) (c : Nat) : Bool := (storeUse s c).all fun r => decide (r.1 + r.2 ≤ 0xA0000)

/-- The core with the fewest sequences among those that a test allows, the lowest index winning a tie. -/
def leastLoaded (s : State) (ok : Nat → Bool) : Option Nat :=
  ((List.range Config.cores).foldl (fun (b : Option (Nat × Nat)) c =>
    let n := coreLoad s c
    match b with
    | some v => if decide (n < v.2) && ok c then some (c, n) else b
    | none => if ok c then some (c, n) else none) none).map Prod.fst

/-- Places a sequence of a residency and state size, a `STREAMED` one where the staging area can be reserved (06 R194; 09 R280; DEDUCED,
log 23). -/
def place (s : State) (resid size : Nat) : Option Spot :=
  if resid == 1 then
    match leastLoaded s fun c => (storeFit s c size).isSome with
    | none => none
    | some c => (storeFit s c size).map fun r => ⟨c, r.1, r.2⟩
  else
    let n := cdiv size 65536
    (leastLoaded s (stageFree s)).map fun c => ⟨c, 2 ^ 24 - 2 * n, 2 ^ 24 - n⟩

/-- The lowest free slot. -/
def freeSlot (s : State) : Option Nat :=
  let i := lowestFree (s.slots.recs.map Prod.fst) 0
  if i < slotMax then some i else none

/-- A record takes a slot in a state, and the directory entry says so (09 R274). -/
def fillSlot (s : State) (i : Nat) (x : Slot) (st : Nat) : State :=
  let s := setSlotState s i x st
  s.wr (dirAddr s x.sid) (leBytes 4 (i + 9 <<< 28) ++ leBytes 4 x.sid ++ List.replicate 56 0)

/-- Placements made one after another, each counting the ones before it, when all can be made. -/
def placeAll : State → Nat → List (Nat × Nat) → Option (List Spot)
  | _, _, [] => some []
  | s, k, (resid, size) :: l =>
    match place s resid size with
    | none => none
    | some p =>
      let x : Slot := { resid := resid, core := p.core, st0 := p.st0, st1 := p.st1, size := size }
      let s := { s with slots := { s.slots with recs := s.slots.recs.put (slotMax + k) x } }
      (placeAll s (k + 1) l).map (p :: ·)

/-! ### Parking and unparking (09 R281-R286) -/

/-- A COPY, FILL or SCAN in progress works on the sequence's copy of record, so it keeps its place (DEDUCED, log 23). -/
def seqBusy (s : State) (sid : Nat) : Bool := s.jobs.any fun j => j.phase == .running && (jobSids s j).contains sid

/-- The sequences that may be parked for others, least recently used first (09 R282). -/
def victims (s : State) (named : List Nat) : List (Nat × Slot) :=
  sortBy (fun (a b : Nat × Slot) => decide (a.2.lastLt < b.2.lastLt) || (a.2.lastLt == b.2.lastLt && decide (a.2.sid < b.2.sid)))
    (s.slots.recs.filter fun p => p.2.state == 1 && !p.2.pin && !named.contains p.2.sid && !seqBusy s p.2.sid)

/-- A slot's park or unpark is one of the 64 that run (09 R284). -/
def moving (s : State) (i : Nat) : Bool := (s.slots.transit.take 64).contains i
/-- Slots that parks in progress will free. -/
def parkingSlots (s : State) : Nat := (s.slots.recs.filter fun p => p.2.state == 4).length

/-- A slot's park begins. -/
def startPark (s : State) (i : Nat) (x : Slot) : State := setSlotState s i x 4

/-- A park ends: the copy of record of a `RESIDENT` sequence goes to its park pages, the record to the directory, and the slot is
free (09 R283). -/
def finishPark (s : State) (i : Nat) : State :=
  match s.slots.recs.find i with
  | none => s
  | some x =>
    if x.state != 4 then s
    else
      let ps := if x.resid == 1 then (tab (statePages x) fun k => (x.sid, 2 ^ 24 - statePages x + k)) else []
      let a := touchAll s x.core none ps
      if !a.1 then a.2
      else
        let s := a.2
        let w := if x.resid == 1 then
            let d := s.t0.fetch (t0Addr x.core 1 0 + copyBase x x.sel) x.size
            let s := noteCopy s x x.sel 0 x.size
            writeSpace s x.sid (parkBase x) 2 0 d.1 d.2
          else some s
        match w with
        | none => s
        | some s =>
          let y := (s.slots.recs.find i).getD x
          setSlotState (s.wr (dirAddr s x.sid) (y.bytes 8)) i { y with state := 0 } 0

/-- PARK_COMPLETE (09 R283, R284). -/
def parkComplete (i : BitVec 12) (s : State) : State := if s.awake && moving s i.toNat then finishPark s i.toNat else s

/-- A parked sequence takes a slot and a place, and its unpark begins (09 R280, R283). -/
def startUnpark (s : State) (sid : Nat) : Option State :=
  match seqRec s sid, freeSlot s with
  | some x, some i =>
    (place s x.resid x.size).map fun p =>
      let y := if x.resid == 1 then { x with core := p.core, st0 := p.st0, st1 := p.st1 } else { x with core := p.core }
      fillSlot s i y 5
  | _, _ => none

/-- An unpark ends: a `RESIDENT` sequence's copy of record is back in its state store (09 R283, R276). -/
def finishUnpark (s : State) (i : Nat) : State :=
  match s.slots.recs.find i with
  | none => s
  | some x =>
    if x.state != 5 then s
    else
      let ps := if x.resid == 1 then (tab (statePages x) fun k => (x.sid, 2 ^ 24 - statePages x + k)) else []
      let a := touchAll s x.core none ps
      if !a.1 then a.2
      else
        let s := a.2
        let s := if x.resid == 1 then
            let d := readSpace s x.sid (parkBase x) x.size
            { s with t0 := s.t0.store (t0Addr x.core 1 0 + copyBase x x.sel) d.1 d.2 }
          else s
        setSlotState s i { x with lastLt := s.life.lt } 1

/-- UNPARK_COMPLETE (09 R283, R284). -/
def unparkComplete (i : BitVec 12) (s : State) : State := if s.awake && moving s i.toNat then finishUnpark s i.toNat else s

/-! ### Waiting for slots (09 R282, R287-R290) -/

/-- A command waits for slots, a STEP also while it runs. -/
def Job.wantsSlot (j : Job) : Bool :=
  (j.phase == .waiting || (j.phase == .running && j.op == 0x09)) && (j.slotWait || j.stage == 1) &&
    [0x20, 0x22, 0x21, 0x09, 0x0A, 0x08].contains j.op
/-- A FORK's parent. -/
def Job.forkParent (j : Job) : Nat := fld (j.body 0) 0 20
/-- An ADMIT that may run, or a FORK that has its parent in `FORKING`: an admission that is ready (01 R32). -/
def admitReady (s : State) (j : Job) : Bool :=
  (j.op == 0x20 && mayRun s j) || (j.op == 0x22 && j.phase == .waiting && j.work == [j.forkParent])
/-- The order in which waiting admissions are served (01 R32). -/
def Job.before (a b : Job) : Bool :=
  decide (b.prio < a.prio) || (a.prio == b.prio && (decide (a.q < b.q) || (a.q == b.q && decide (a.take < b.take))))
/-- No admission that is served earlier is ready or waits (01 R32, 09 R287). -/
def slotTurn (s : State) (j : Job) : Bool :=
  !(s.jobs.any fun k => k.take != j.take && k.before j && (k.wantsSlot || admitReady s k))
/-- Free slots. -/
def freeSlots (s : State) : Nat := slotMax - s.slots.recs.length

/-- `j` waits in `SLOT_WAIT`. -/
def waitSlot (s : State) (j : Job) : State := s.setJob { j with slotWait := true, stage := 0 }

/-- Makes `need` slots free for a command that names `named`: `true` when they are, else what is done towards it
(09 R282, R287). -/
def slotsReady (s : State) (j : Job) (need : Nat) (named : List Nat) : Bool × State :=
  if need == 0 then (true, s)
  else if !slotTurn s j then (false, waitSlot s j)
  else if need ≤ freeSlots s then (true, s)
  else
    let more := need - freeSlots s - parkingSlots s
    let vs := victims s named
    if vs.length < more then (false, waitSlot s j)
    else
      let s := (vs.take more).foldl (fun s v => startPark s v.1 v.2) s
      (false, s.setJob { j with stage := 1, slotWait := false })

/-- The parked sequences among some. -/
def parkedOf (s : State) (sids : List Nat) : List Nat := sids.filter fun a => (slotOf s a).isNone
/-- The residency and size of sequences. -/
def shapesOf (s : State) (sids : List Nat) : List (Nat × Nat) := sids.filterMap fun a => (seqRec s a).map fun x => (x.resid, x.size)

/-- The parked sequences among those that a command names begin their unparks, all at once (09 R285, R287): `true` when none is
parked. No sequence among `named` is parked for them (09 R282). -/
def unparkAll (s : State) (j : Job) (sids named : List Nat) : Bool × State :=
  let ps := parkedOf s sids
  if ps.isEmpty then (true, if j.slotWait || j.stage == 1 then s.setJob { j with slotWait := false, stage := 0 } else s)
  else
    let r := slotsReady s j ps.length named
    if !r.1 then r
    else match ps.foldl (fun (o : Option State) a => o.bind fun s => startUnpark s a) (some r.2) with
      | none => (false, waitSlot r.2 j)
      | some s => (false, s.withJob j.q j.n fun s j => s.setJob { j with slotWait := false, stage := 0 })

/-- Every named sequence stands in a slot in `IDLE` (09 R278). -/
def allStill (s : State) (sids : List Nat) : Bool :=
  sids.all fun a => match slotOf s a with | some (_, x) => x.state == 1 | none => false

/-- Brings the sequences that a command names into slots and waits until each is `IDLE`. -/
def bringIn (s : State) (j : Job) (sids : List Nat) : Bool × State :=
  let r := unparkAll s j sids sids
  (r.1 && allStill r.2 sids, r.2)

/-- The queue owns an admitted sequence (09 R275). -/
def owns (s : State) (q sid : Nat) : Bool := match seqRec s sid with | some x => x.owner == q | none => false
/-- Every named sequence is owned by the queue; else the violation of the first that is not. -/
def ownAll (s : State) (q : Nat) (sids : List Nat) : Except Bad Unit :=
  match sids.find? fun a => !owns s q a with
  | none => .ok ()
  | some a => .error ⟨3, 0, a⟩

/-- The SIDs of a list tensor, all owned by the queue (09 R275, 13 R412). -/
def ownedList (s : State) (j : Job) (o : Nat) : Except Bad (List Nat) := do
  let t ← need s j.ctx .index (j.body o) (0x10 + o)
  let l := t.ints s j.ctx
  ownAll s j.q l
  return l

/-- A command of its own kind starts, runs to its end or waits; `go` is given what the checks found. -/
def controlRow {α : Type} (op sub : Nat) (q : BitVec 6) (n : BitVec 16) (s : State) (chk : State → Job → Except Bad α)
    (go : State → Job → α → State) : State :=
  s.withJob q.toNat n.toNat fun s j =>
    if op == 0x21 && j.op == 0x21 && fld (j.body 0x28) 0 2 != sub then s else startRow op j.q j.n s chk go

/-! ### Acts on one sequence in take order (09 R301, R307) -/

/-- The siblings of a sequence from `sid` on. -/
def siblings (s : State) : Nat → Nat → List Nat
  | 0, _ => []
  | f + 1, sid =>
    match seqRec s sid with
    | none => []
    | some x => sid :: (if x.sibling == noSid then [] else siblings s f x.sibling)
/-- The children of a sequence in list order. -/
def kidsOf (s : State) (x : Slot) : List Nat := if x.child == noSid then [] else siblings s 64 x.child

/-- A sequence's subtree in post-order, itself last; `fuel` bounds its depth. -/
def postOrder (s : State) : Nat → Nat → List Nat
  | 0, sid => [sid]
  | f + 1, sid =>
    match seqRec s sid with
    | none => []
    | some x => (kidsOf s x).flatMap (postOrder s f) ++ [sid]
/-- A sequence's whole subtree in post-order: no chain is longer than the admitted sequences (09 R298). -/
def subtree (s : State) (sid : Nat) : List Nat := postOrder s s.slots.sids.length sid

/-- The sequences of the members that have not ended. -/
def Job.liveSids (j : Job) : List Nat := (j.members.filter fun m => m.phase != .ended).map Member.sid
/-- The sequences of a set command: those of its set, or of its members that have not ended. -/
def liveSet (s : State) (j : Job) : List Nat := if j.members.isEmpty then setSids s j.ctx (bw j.cmd 0) else j.liveSids

/-- The sequences that a STEP, FORK, PARK or RETIRE still has to act on. -/
def actSids (s : State) (k : Job) : List Nat :=
  let list (_ : Unit) : List Nat := setSids s k.ctx (bw k.cmd 0)
  match k.op with
  | 0x09 => liveSet s k
  | 0x22 => [k.forkParent]
  | 0x21 => if fld (k.body 0x28) 0 2 == 0 then (list ()).drop (k.work.headD 0) ++ k.work.tail else []
  | 0x23 => ((list ()).drop (k.work.headD 0)).flatMap fun a => if bit (k.body 0x28) 1 then subtree s a else [a]
  | _ => []

/-- A STEP, FORK, PARK or RETIRE taken before number `take` has not ended its act on a sequence (09 R301, R307; DEDUCED, log 23). -/
def actBefore (s : State) (take sid : Nat) : Bool :=
  s.jobs.any fun k => decide (k.take < take) && k.phase != .done && (actSids s k).contains sid

/-! ### PARK and its operations (09 R286) -/

/-- What a sequence's park still needs. -/
inductive ParkStep where
  | done | started (s : State) | wait

/-- Starts the park of one named sequence, after the acts on it that were taken before. -/
def parkOne (s : State) (take sid : Nat) : ParkStep :=
  match slotOf s sid with
  | none => .done
  | some (i, x) => if x.state == 1 && !seqBusy s sid && !actBefore s take sid then .started (startPark s i x) else if x.state == 4 then .started s else .wait

/-- Starts the parks of a list in order from index `i` until one must wait: the index reached and the parks begun. -/
def parkList (take : Nat) : State → List Nat → Nat → List Nat → State × Nat × List Nat
  | s, [], i, ps => (s, i, ps)
  | s, a :: l, i, ps =>
    match parkOne s take a with
    | .done => parkList take s l (i + 1) ps
    | .started s => parkList take s l (i + 1) (ps ++ [a])
    | .wait => (s, i, ps)

/-- Starts the unparks of a list in order likewise. -/
def unparkList (j : Job) (named : List Nat) : State → List Nat → Nat → List Nat → State × Nat × List Nat
  | s, [], i, ps => (s, i, ps)
  | s, a :: l, i, ps =>
    match slotOf s a, seqRec s a with
    | some (_, x), _ => if x.state == 4 then (s, i, ps) else unparkList j named s l (i + 1) (ps ++ [a])
    | none, none => unparkList j named s l (i + 1) ps
    | none, some _ =>
      let r := slotsReady s j 1 named
      if !r.1 then (r.2, i, ps)
      else match startUnpark r.2 a with
        | none => (waitSlot r.2 j, i, ps)
        | some s =>
          unparkList j named (s.withJob j.q j.n fun s j => s.setJob { j with slotWait := false, stage := 0 }) l (i + 1) (ps ++ [a])

/-- A list operation that waits on slot states: what has begun is remembered in `work`, and the command ends when every sequence
has left state `st`. -/
def listRow (s : State) (j : Job) (sids : List Nat) (st : Nat)
    (go : State → List Nat → Nat → List Nat → State × Nat × List Nat) : State :=
  let i := j.work.headD 0
  let r := go s (sids.drop i) i j.work.tail
  let left := r.2.2.filter fun a => match slotOf r.1 a with | some (_, x) => x.state == st | none => false
  r.1.withJob j.q j.n fun s j =>
    if r.2.1 == sids.length && left.isEmpty then finish s j
    else s.setJob { j with work := r.2.1 :: left }

/-- The row of one PARK operation. -/
def parkRow (sub : Nat) (q : BitVec 6) (n : BitVec 16) (s : State) : State :=
  controlRow 0x21 sub q n s (fun s j => if j.work.isEmpty then ownedList s j 0 else
      (need s j.ctx .index (j.body 0) 0x10).map fun t => t.ints s j.ctx) fun s j l =>
    match sub with
    | 0 => listRow s j l 4 (parkList j.take)
    | 1 => listRow s j l 5 (unparkList j l)
    | k => finish (l.foldl (fun s a => match seqRec s a with | some x => putSeq s a { x with pin := k == 2 } | none => s) s) j

/-! ### Migration (01 R38; 06 R196; 09 R306) -/

/-- The core that holds a sequence or that it is moving to. -/
def heldBy (s : State) (p : Nat × Slot) : Nat := match s.slots.moveTo.find p.1 with | some m => m.1 | none => p.2.core

/-- The sequences in slots that are members of the next STEP: the first taken that has members to issue, else all (09 R306; DEDUCED, log 23). -/
def nextMembers (s : State) : List (Nat × Slot) :=
  match s.jobs.find? fun j => j.op == 0x09 && j.phase != .done && j.members.any fun m => m.phase == .waiting with
  | none => s.slots.recs
  | some j => s.slots.recs.filter fun p => j.members.any fun m => m.phase == .waiting && m.sid == p.2.sid

/-- The members that each core holds, counting moves in progress as made. -/
def loads (s : State) : List Nat := tab Config.cores fun c => ((nextMembers s).filter fun p => heldBy s p == c).length

/-- A sequence moves to a core: by the slot update alone when it is `STREAMED`, else its copy begins (06 R196). -/
def startMove (s : State) (i : Nat) (x : Slot) (c : Nat) : Option State :=
  if x.resid == 1 then
    (storeFit s c x.size).map fun r =>
      let s := setSlotState s i x 6
      { s with slots := { s.slots with moveTo := s.slots.moveTo.put i (c, r.1, r.2) } }
  else if stageFree s c then some { s with slots := { s.slots with recs := s.slots.recs.put i { x with core := c } } }
  else none

/-- SEQUENCE_BALANCE (09 R306): while the fullest and emptiest cores are two or more apart, a sequence between steps moves from one of the
fullest to one of the emptiest, the lowest core first. -/
def sequenceBalance (s : State) : State :=
  let l := loads s
  let hi := l.foldl max 0
  let lo := l.foldl min hi
  if !s.awake || hi < lo + 2 then s
  else
    let full := (List.range Config.cores).filter fun c => l.getD c 0 == hi
    let low := (List.range Config.cores).filter fun c => l.getD c 0 == lo
    let ok := full.flatMap fun c => (nextMembers s).filter fun p => p.2.core == c && p.2.state == 1 && !seqBusy s p.2.sid
    (ok.findSome? fun p => low.findSome? fun c => startMove s p.1 p.2 c).getD s

/-- MIGRATION_COMPLETE (01 R38; 09 R278): the copy of record stands in the new core's store. -/
def migrationComplete (i : BitVec 12) (s : State) : State :=
  let i := i.toNat
  match s.slots.recs.find i, s.slots.moveTo.find i with
  | some x, some m =>
    if !s.awake || x.state != 6 then s
    else
      let d := s.t0.fetch (t0Addr x.core 1 0 + copyBase x x.sel) x.size
      let y : Slot := { x with core := m.1, st0 := m.2.1, st1 := m.2.2 }
      let s := noteCopy s x x.sel 0 x.size
      let s := { s with
        t0 := s.t0.store (t0Addr y.core 1 0 + copyBase y y.sel) d.1 d.2
        slots := { s.slots with moveTo := s.slots.moveTo.del i } }
      setSlotState s i y 1
  | _, _ => s

/-- PARK. -/
def execPark (q : BitVec 6) (n : BitVec 16) (s : State) : Host.Outcome State Fault Refusal := .next (parkRow 0 q n s)
/-- UNPARK. -/
def execUnpark (q : BitVec 6) (n : BitVec 16) (s : State) : Host.Outcome State Fault Refusal := .next (parkRow 1 q n s)
/-- PIN. -/
def execPin (q : BitVec 6) (n : BitVec 16) (s : State) : Host.Outcome State Fault Refusal := .next (parkRow 2 q n s)
/-- UNPIN. -/
def execUnpin (q : BitVec 6) (n : BitVec 16) (s : State) : Host.Outcome State Fault Refusal := .next (parkRow 3 q n s)
/-- PARK_COMPLETE. -/
def execParkComplete (i : BitVec 12) (s : State) : Host.Outcome State Fault Refusal := .next (parkComplete i s)
/-- UNPARK_COMPLETE. -/
def execUnparkComplete (i : BitVec 12) (s : State) : Host.Outcome State Fault Refusal := .next (unparkComplete i s)
/-- SEQUENCE_BALANCE. -/
def execSequenceBalance (s : State) : Host.Outcome State Fault Refusal := .next (sequenceBalance s)
/-- MIGRATION_COMPLETE. -/
def execMigrationComplete (i : BitVec 12) (s : State) : Host.Outcome State Fault Refusal := .next (migrationComplete i s)

end Sys2Proof.Machine
end

