-- ==== Sys2Proof/Machine/Admit.lean ====
section
/-! DEFINITION. ADMIT with the first set-up of the page system, FORK, RETIRE, and the end of slot waits (09 R279-R299, R307;
10 R314, R316; 11 R346). -/
namespace Sys2Proof.Machine

/-! ### The page system's set-up (10 R314, 11 R346) -/

/-- The structures that may not overlap (11 R346). -/
def pageAreas (s : State) : List (Nat × Nat) :=
  let p := s.pg
  let t := s.tier
  let lists := stackLen p.descCount + stackLen p.frameCount + stackLen (4096 * Config.cores) + stackLen t.shelfCount +
    stackLen t.neapSlots
  [(s.slots.dirBase, 2 ^ 26), (p.descBase, 16 * p.descCount), (p.frameBase, 65536 * p.frameCount), (p.listBase, lists)] ++
    (if t.shelfEn then [(t.sideBase, 32 * p.descCount)] else []) ++
    (if t.neapSlots != 0 then [(t.neapBase, 34816 * t.neapSlots)] else [])

/-- Two of some ranges meet. -/
def anyMeet : List (Nat × Nat) → Bool
  | [] => false
  | a :: l => l.any (meet a) || anyMeet l

/-- The control address of the first register out of its range or alignment (10 R314). -/
def pageRegBad (s : State) : Option Nat :=
  let p := s.pg
  let t := s.tier
  let bad (on ok : Bool) (a : Nat) : List Nat := if on && !ok then [a] else []
  (bad true (p.descBase % 65536 == 0) 0x8100 ++ bad true (decide (1 ≤ p.descCount) && decide (p.descCount ≤ 2 ^ 28)) 0x8108 ++
    bad true (p.frameBase % 65536 == 0) 0x8110 ++ bad true (decide (1 ≤ p.frameCount) && decide (p.frameCount ≤ 2 ^ 24)) 0x8118 ++
    bad true (decide (p.perCore * Config.cores < p.frameCount)) 0x8120 ++ bad true (p.listBase % 65536 == 0) 0x8130 ++
    bad t.shelfEn (t.shelfBase % 65536 == 0) 0x9408 ++ bad t.shelfEn (decide (t.shelfCount ≤ 2 ^ 28)) 0x9410 ++
    bad t.shelfEn (t.sideBase % 4096 == 0) 0x9418 ++ bad t.neapEn (t.neapBase % 1024 == 0) 0x9420 ++
    bad t.neapEn (decide (t.neapSlots ≤ 2 ^ 24)) 0x9428).head?

/-- The check of the page system's structures and registers. -/
def pageCheck (s : State) : Except Bad Unit :=
  if s.pg.init then .ok ()
  else if anyMeet (pageAreas s) then .error ⟨8, 0, 0⟩
  else match pageRegBad s with
    | some a => .error ⟨1, 0xFF, a⟩
    | none => .ok ()

/-- A stack of indices in descending order from `hi - 1` to `lo`. -/
def stackBytes (lo hi : Nat) : List Byte := (tab (hi - lo) fun i => hi - 1 - i).flatMap (leBytes 4)

/-- The page system is set up before the first ADMIT (10 R314). -/
def pageInit (s : State) : State :=
  if s.pg.init then s
  else
    let p := s.pg
    let t := s.tier
    let held := p.perCore * Config.cores
    let m := (s.t1.clear s.slots.dirBase (2 ^ 26)).clear p.descBase (16 * p.descCount)
    let m := if t.shelfEn then m.clear t.sideBase (32 * p.descCount) else m
    let m := m.put (stackBase s 1) (stackBytes 0 p.descCount)
    let m := m.put (stackBase s 2) (stackBytes held p.frameCount)
    let m := (List.range Config.cores).foldl (fun (m : PMem) c =>
      m.put (stackBase s 3 + 4 * 4096 * c) ((tab p.perCore fun i => c * p.perCore + i).flatMap (leBytes 4))) m
    let m := m.put (stackBase s 4) (stackBytes 0 t.shelfCount)
    let m := m.put (stackBase s 5) (stackBytes 0 t.neapSlots)
    { s with
      t1 := m
      pg := { p with
        free := p.frameCount - held
        descFree := p.descCount
        resFree := if p.perCore == 0 then [] else tab Config.cores fun c => (c, p.perCore)
        clock := 0
        init := true
        nodePages := []
        falls := []
        rises := [] }
      tier := { t with shelfFree := t.shelfCount, neapFree := t.neapSlots } }

/-! ### ADMIT (09 R279-R281; 10 R316) -/

/-- A checked ADMIT: residency, pin, tag, position, state size, deadline, adopted root and initial state. -/
structure AdmitOp where
  resid : Nat
  pin : Bool
  tag : Nat
  pos : Nat
  size : Nat
  deadline : Nat
  root : Nat
  init : Option Tensor
  deriving DecidableEq, Repr

/-- A root may be adopted by the queue (10 R316). -/
def adoptOk (s : State) (q na : Nat) : Bool :=
  na % 2048 == 0 && nodeOk s (nodeFam s na) na &&
    (match s.slots.fams.find (nodeFam s na) with
    | some f => decide (0 < f.members) && f.queue == q
    | none => false)

/-- ADMIT's checks (06 R193, R194; 09 R274, R279; 10 R314, R316; 13 R420). -/
def prepAdmit (s : State) (j : Job) : Except Bad AdmitOp := do
  let w := j.body 0x18
  let size := fld (j.body 0x20) 0 32
  let resid := fld w 23 2
  let pos := fld w 0 23
  check (s.slots.dirBase != 0) ⟨1, 0xFF, 0x8000⟩
  check (decide (pos ≤ 4194304)) (badField 0x28)
  check (resid != 3) (badField 0x2A)
  check (size != 0 && size % 64 == 0) (badField 0x30)
  let r := if resid == 0 then (if 2 * size ≤ 2 ^ 20 then 1 else 2) else resid
  check (r != 1 || decide (2 * size ≤ 2 ^ 20)) (badField 0x30)
  let t ← tensorOpt s j.ctx .any (j.body 0)
  check (match t with | some t => decide (t.dense ≤ size) | none => true) (badField 0x10)
  let root := fld (j.body 8) 0 48
  check (root == 0 || adoptOk s j.q root) ⟨3, 0, root % 2 ^ 32⟩
  pageCheck s
  return {
    resid := r
    pin := bit w 25
    tag := fld w 32 32
    pos := pos
    size := size
    deadline := j.body 0x10
    root := root
    init := t }

/-- The lowest free family number, if one is free (10 R316). -/
def freeFamily (s : State) : Option Nat :=
  let f := lowestFree (s.slots.fams.map Prod.fst) 0
  if f < 65536 then some f else none
/-- The lowest free SID, if one is free (09 R273). -/
def freeSid (s : State) : Option Nat :=
  let a := lowestFree s.slots.sids 0
  if a < 2 ^ 20 then some a else none

/-- One more member of a family. -/
def joinFamily (s : State) (f q : Nat) : State :=
  let x := s.slots.fams.get f ⟨q, 0⟩
  { s with slots := { s.slots with fams := s.slots.fams.put f { x with members := x.members + 1 } } }

/-- Maps `n` fresh park pages in a sequence's page table (09 R281, R296): the root it then has. -/
def freshParks (s : State) (root fam n : Nat) : Option (Nat × State) :=
  (List.range n).foldl (fun (o : Option (Nat × State)) k => o.bind fun a =>
    (ownPage a.2 a.1 fam (2 ^ 24 - n + k) 2 true).map fun r => (r.1, r.2.2)) (some (root, s))

/-- The root of an admitted sequence: the adopted one, counted once more, or a new one. -/
def admitRoot (s : State) (o : AdmitOp) (fam : Nat) : Option (Nat × State) :=
  if o.root == 0 then newNode s fam else some (o.root, putNodeCount s o.root (nodeCount s o.root + 1))

/-- The initial copy 0: the tensor's bytes and then zero bytes, with their poison (09 R279). -/
def admitBytes (s : State) (j : Job) (o : AdmitOp) : List Byte × List Bool :=
  let d := match o.init with
    | some t => t.read s j.ctx 0 t.dense
    | none => ([], [])
  (d.1 ++ List.replicate (o.size - d.1.length) 0, d.2 ++ List.replicate (o.size - d.2.length) false)

/-- Creates the sequence in a slot; `none` when a page it needs cannot be had. -/
def createSeq (s : State) (j : Job) (o : AdmitOp) (slot sid fam : Nat) (p : Spot) : Option State :=
  match admitRoot s o fam with
  | none => none
  | some (root, s) =>
    let parks := if o.resid == 1 then cdiv o.size 65536 else 0
    match freshParks s root fam parks with
    | none => none
    | some (root, s) =>
      let d := admitBytes s j o
      let x : Slot := {
        pin := o.pin
        poison := d.2.any id
        resid := o.resid
        owner := j.q
        core := p.core
        sid := sid
        pos := o.pos
        st0 := p.st0
        st1 := p.st1
        size := o.size
        root := root
        deadline := o.deadline
        lastLt := s.life.lt
        parent := noSid
        child := noSid
        sibling := noSid
        tag := o.tag }
      let s := fillSlot s slot x 1
      let s := joinFamily { s with slots := { s.slots with sids := insNat sid s.slots.sids } } fam j.q
      writeCopy s { x with state := 1 } false 0 d.1 d.2

/-- The state pages of an adopted root are reached before a `STREAMED` sequence's initial state is written into them (10 R320). -/
def reachAdopted (s : State) (j : Job) (o : AdmitOp) (p : Spot) : Bool × State :=
  if o.root == 0 || o.resid == 1 then (true, s)
  else (tab (cdiv o.size 65536) fun k => p.st0 + k).foldl (touchVpn p.core (some (j.q, j.n)) o.root) (true, s)

/-- The slots and places of an ADMIT are had together, its pages as they come free (09 R279-R290; 10 R327). -/
def admitNow (s : State) (j : Job) (o : AdmitOp) : State :=
  let r := slotsReady s j 1 []
  if !r.1 then r.2
  else
    let s := r.2
    let fam := if o.root == 0 then freeFamily s else some (nodeFam s o.root)
    match fam, freeSid s, freeSlot s, place s o.resid o.size with
    | some fam, some sid, some slot, some p =>
      let a := reachAdopted s j o p
      if !a.1 then a.2
      else a.2.withJob j.q j.n fun s j => match takePages s j fun s => (createSeq s j o slot sid fam p).map fun s => (s, ()) with
        | (none, s) => s.withJob j.q j.n fun s j => s.setJob { j with slotWait := false, stage := 0 }
        | (some _, s) => s.withJob j.q j.n fun s j => finish s { j with result := sid }
    | _, _, _, _ => waitSlot s j

/-- ADMIT sets up the page system, fetches its initial state and creates the sequence (09 R279; 10 R314; 12 R381). -/
def runAdmit (s : State) (j : Job) (o : AdmitOp) : State :=
  withOperands (pageInit s) j j.ctx o.init.toList
    (o.init.toList.map fun t => { unit := 0, core := j.core, elems := t.all }) fun s j => admitNow s j o

/-- ADMIT. -/
def admitRow (q : BitVec 6) (n : BitVec 16) (s : State) : State := controlRow 0x20 0 q n s prepAdmit runAdmit

/-! ### FORK (09 R291-R297) -/

/-- A FORK's number of children. -/
def Job.forkKids (j : Job) : Nat := fld (j.body 0) 20 6 + 1

/-- An earlier FORK of the same parent has not ended (09 R307). -/
def earlierFork (s : State) (j : Job) : Bool :=
  s.jobs.any fun k => k.op == 0x22 && decide (k.take < j.take) && k.phase != .done && k.forkParent == j.forkParent

/-- FORK's checks (09 R275, R291). -/
def prepFork (s : State) (j : Job) : Except Bad Slot :=
  match seqRec s j.forkParent with
  | none => .error ⟨3, 0, j.forkParent⟩
  | some x =>
    if x.owner != j.q then .error ⟨3, 0, j.forkParent⟩
    else if x.state == 7 then .error (badField 0x10)
    else if !earlierFork s j && decide (64 < x.nchild + j.forkKids) then .error (badField 0x12)
    else .ok x

/-- A child's root: a copy of the parent's root whose targets count one more (09 R293). -/
def copyRoot (s : State) (fam root : Nat) : Option (Nat × State) :=
  (newNode s fam).map fun r =>
    let s := r.2.wr r.1 (r.2.t1.fetch root 2048).1
    (r.1, (List.range 256).foldl (fun s i => match interior s fam (r.1 + 8 * i) with
      | some na => putNodeCount s na (nodeCount s na + 1)
      | none => s) s)

/-- Creates child `i` of a FORK, of a parent `x`; `sib` is its next sibling. -/
def forkChild (s : State) (j : Job) (x : Slot) (i sid sib : Nat) (p : Spot) : Option State :=
  let fam := seqFam s x
  match copyRoot s fam x.root, freeSlot s with
  | some (root, s), some slot =>
    (freshParks s root fam (if x.resid == 1 then statePages x else 0)).map fun r =>
      let s := r.2
      let y : Slot := { x with
        pin := bit (j.body 0) 26
        core := p.core
        nchild := 0
        sid := sid
        st0 := p.st0
        st1 := p.st1
        root := r.1
        deadline := if j.body 8 == 0 then x.deadline else j.body 8
        lastLt := s.life.lt
        parent := x.sid
        child := noSid
        sibling := sib
        tag := (fld (j.body 0x10) 0 32 + i) % 2 ^ 32 }
      let s := joinFamily (fillSlot { s with slots := { s.slots with sids := insNat sid s.slots.sids } } slot y 1) fam x.owner
      if x.resid == 1 then
        let d := s.t0.fetch (t0Addr x.core 1 0 + copyBase x x.sel) x.size
        let s := noteCopy s x x.sel 0 x.size
        { s with t0 := s.t0.store (t0Addr y.core 1 0 + copyBase y y.sel) d.1 d.2 }
      else s
  | _, _ => none

/-- The lowest `k` free SIDs. -/
def freeSids : Nat → List Nat → List Nat
  | 0, _ => []
  | k + 1, used => let a := lowestFree used 0; a :: freeSids k (insNat a used)

/-- All children of a FORK are created, or a page is short. -/
def makeKids (s : State) (j : Job) (x : Slot) (sids : List Nat) (spots : List Spot) : Option State :=
  let sibs := sids.tail ++ [x.child]
  ((sids.zip (sibs.zip spots)).zipIdx).foldl (fun (o : Option State) c => o.bind fun s =>
    forkChild s j x c.2 c.1.1 c.1.2.1 c.1.2.2) (some s)

/-- A FORK whose parent is in `FORKING` and whose slots are free: its children are admitted (09 R291-R296). -/
def forkKids (s : State) (j : Job) (i : Nat) (x : Slot) : State :=
  let k := j.forkKids
  let sids := freeSids k s.slots.sids
  match placeAll s 0 (List.replicate k (x.resid, x.size)), sids.getLast? with
  | some spots, some last =>
    if 2 ^ 20 ≤ last then waitSlot s j
    else match takePages s j fun s => (makeKids s j x sids spots).map fun s => (s, ()) with
    | (none, s) => s.withJob j.q j.n fun s j => s.setJob { j with slotWait := false, stage := 0 }
    | (some _, s) =>
      let y : Slot := { x with nchild := x.nchild + k, child := sids.headD noSid }
      let s := setSlotState s i y 1
      let s := (writeRuns false j.q j.n j.core 0 s [⟨.t1, fld (j.body 0x18) 0 48, sids.flatMap (leBytes 4),
        List.replicate (4 * k) false, 32, 0⟩]).getD s
      pumpWrites (s.withJob j.q j.n fun s j => finish s { j with result := sids.headD 0 + k <<< 32 })
  | _, _ => waitSlot s j

/-- A FORK brings its parent in, takes it to `FORKING`, and waits for the slots of all its children (09 R287, R291). -/
def runFork (s : State) (j : Job) (_ : Slot) : State :=
  if actBefore s j.take j.forkParent then s
  else
    let sid := j.forkParent
    match slotOf s sid with
    | none => (bringIn s j [sid]).2
    | some (i, x) =>
      let go (s : State) (j : Job) (x : Slot) : State :=
        let r := slotsReady s j j.forkKids [sid]
        if r.1 then forkKids r.2 j i x else r.2
      if x.state == 3 && j.work == [sid] then go s j x
      else if x.state == 1 then
        let j := { j with work := [sid] }
        go ((setSlotState s i x 3).setJob j) j { x with state := 3 }
      else s

/-- FORK. -/
def forkRow (q : BitVec 6) (n : BitVec 16) (s : State) : State := controlRow 0x22 0 q n s prepFork runFork

/-! ### RETIRE (09 R298, R299, R307) -/

/-- Takes a sequence out of its parent's child list (09 R298). -/
def unlink (s : State) (x : Slot) : State :=
  match if x.parent == noSid then none else seqRec s x.parent with
  | none => s
  | some p =>
    let less : Slot := { p with nchild := p.nchild - 1 }
    if p.child == x.sid then putSeq s x.parent { less with child := x.sibling }
    else
      let s := putSeq s x.parent less
      match (kidsOf s p).find? fun a => match seqRec s a with | some y => y.sibling == x.sid | none => false with
      | none => s
      | some a => match seqRec s a with
        | none => s
        | some y => putSeq s a { y with sibling := x.sibling }

/-- One member of a family less. -/
def leaveFamily (s : State) (f : Nat) : State :=
  match s.slots.fams.find f with
  | none => s
  | some x =>
    let l := if x.members ≤ 1 then s.slots.fams.del f else s.slots.fams.put f ⟨x.queue, x.members - 1⟩
    { s with slots := { s.slots with fams := l } }

/-- The members of commands that a sequence still has are `CANCELLED` (09 R298, R301). -/
def cancelMembers (s : State) (sid : Nat) : State :=
  s.jobs.foldl (fun s j =>
    if j.phase == .done then s
    else match j.members.findIdx? fun m => m.sid == sid && m.phase != .ended with
      | some i => settle (endMember s j.q j.n i 1) j.q j.n
      | none => s) s

/-- A sequence that is `IDLE` or parked is retired (09 R298): the pages freed. A member of a later STEP that names it is `CANCELLED`. -/
def retireSeq (s : State) (sid : Nat) : Nat × State :=
  let s := cancelMembers s sid
  match seqRec s sid with
  | none => (0, s)
  | some x =>
    let fam := seqFam s x
    let s := match slotOf s sid with | some (i, y) => setSlotState s i y 7 | none => s
    let s := unlink s x
    let s := (kidsOf s x).foldl (fun s a => match seqRec s a with
      | some y => putSeq s a { y with parent := noSid, sibling := noSid }
      | none => s) s
    let r := releaseRoot s x.root
    let s := leaveFamily r.2 fam
    let s := match slotOf s sid with | some (i, y) => setSlotState s i y 0 | none => s
    (r.1, { s with
      t1 := s.t1.clear (dirAddr s sid) 64
      slots := { s.slots with sids := s.slots.sids.erase sid } })

/-- Cancel ends the steps in flight for a sequence, and a FORK that waits for slots with it as parent (09 R298, R307). -/
def cancelSeq (s : State) (sid : Nat) : State :=
  let s := cancelMembers s sid
  match s.jobs.find? fun j => j.op == 0x22 && j.phase == .waiting && !j.dry && j.work == [sid] with
  | some j => dropFork (malform (dropHold s j.q j.n) { j with hold := ([], []) } 1 0x10 0) j
  | none => s

/-- A sequence can be retired now: it is parked or `IDLE`, nothing works on its copy of record, and without cancel the acts on it that were
taken before have ended (09 R298, R307). -/
def retirable (s : State) (cancel : Bool) (take sid : Nat) : Bool :=
  !seqBusy s sid && (cancel || !actBefore s take sid) && (match slotOf s sid with | some (_, x) => x.state == 1 | none => true)

/-- Retires sequences in order until one must wait: how many remain, how many were retired, the pages freed. -/
def retireList (cancel : Bool) (take : Nat) : List Nat → State → Nat × Nat × Nat × State
  | [], s => (0, 0, 0, s)
  | a :: l, s =>
    if !s.slots.sids.contains a then retireList cancel take l s
    else
      let s := if cancel then cancelSeq s a else s
      if !retirable s cancel take a then (l.length + 1, 0, 0, s)
      else
        let r := retireSeq s a
        let u := retireList cancel take l r.2
        (u.1, u.2.1 + 1, u.2.2.1 + r.1, u.2.2.2)

/-- Retires the named sequences from list place `i` on, each with its subtree when asked: the place reached, the counts. -/
def retireNamed (cancel sub : Bool) (take : Nat) : List Nat → Nat → Nat × Nat → State → Nat × (Nat × Nat) × State
  | [], i, c, s => (i, c, s)
  | a :: l, i, c, s =>
    let r := retireList cancel take (if sub then subtree s a else [a]) s
    let c := (c.1 + r.2.1, c.2 + r.2.2.1)
    if r.1 == 0 then retireNamed cancel sub take l (i + 1) c r.2.2.2 else (i, c, r.2.2.2)

/-- RETIRE proceeds as far as it can; `work` holds its place and counts, which its record reports however it ends (09 R299). -/
def runRetire (s : State) (j : Job) (l : List Nat) : State :=
  let f := j.body 0x28
  let r := retireNamed (bit f 0) (bit f 1) j.take (l.drop (j.work.headD 0)) (j.work.headD 0) (j.work.getD 1 0, j.work.getD 2 0) s
  r.2.2.withJob j.q j.n fun s j =>
    let j := { j with result := min r.2.1.1 0xFFFFFFFF + r.2.1.2 <<< 32 }
    if r.1 == l.length then finish s j else s.setJob { j with work := [r.1, r.2.1.1, r.2.1.2] }

/-- RETIRE. -/
def retireRow (q : BitVec 6) (n : BitVec 16) (s : State) : State :=
  controlRow 0x23 0 q n s (fun s j => if j.work.isEmpty then ownedList s j 0 else
    (need s j.ctx .index (j.body 0) 0x10).map fun t => t.ints s j.ctx) runRetire

/-! ### SLOT_WAIT_END (09 R287, R290) -/

/-- The sequences that a command must have in slots: those of a set, a FORK's parent, a bound SCAN's, the next that an UNPARK
names. -/
def namedSids (s : State) (j : Job) : List Nat :=
  match j.op with
  | 0x09 => liveSet s j
  | 0x0A => liveSet s j
  | 0x22 => [j.forkParent]
  | 0x21 => (setSids s j.ctx (bw j.cmd 0)).drop (j.work.headD 0)
  | 0x08 => jobSids s j
  | _ => []

/-- The placements that a waiting command needs at once. -/
def wanted (s : State) (j : Job) : List (Nat × Nat) :=
  let ps := shapesOf s (parkedOf s (namedSids s j))
  match j.op with
  | 0x20 =>
    let size := fld (j.body 0x20) 0 32
    let r := fld (j.body 0x18) 23 2
    [(if r == 0 then (if 2 * size ≤ 2 ^ 20 then 1 else 2) else r, size)]
  | 0x22 => if ps.isEmpty then (match seqRec s j.forkParent with | some x => List.replicate j.forkKids (x.resid, x.size) | none => [])
    else ps
  | 0x21 => ps.take 1
  | _ => ps

/-- The wait of a command in `SLOT_WAIT` is over: enough slots are free or can be made free, every place is to be had, and for
ADMIT a family number is free. -/
def slotWaitOver (s : State) (j : Job) : Bool :=
  let w := wanted s j
  slotTurn s j && decide (w.length ≤ freeSlots s + parkingSlots s + (victims s (namedSids s j)).length) &&
    (decide (freeSlots s < w.length) || (placeAll s 0 w).isSome) &&
    (j.op != 0x20 || fld (j.body 8) 0 48 != 0 || (freeFamily s).isSome)

/-- SLOT_WAIT_END. -/
def slotWaitEnd (q : BitVec 6) (n : BitVec 16) (s : State) : State :=
  s.withJob q.toNat n.toNat fun s j =>
    if s.awake && j.slotWait && slotWaitOver s j then s.setJob { j with slotWait := false } else s

/-- ADMIT. -/
def execAdmit (q : BitVec 6) (n : BitVec 16) (s : State) : Host.Outcome State Fault Refusal := .next (admitRow q n s)
/-- FORK. -/
def execFork (q : BitVec 6) (n : BitVec 16) (s : State) : Host.Outcome State Fault Refusal := .next (forkRow q n s)
/-- RETIRE. -/
def execRetire (q : BitVec 6) (n : BitVec 16) (s : State) : Host.Outcome State Fault Refusal := .next (retireRow q n s)
/-- SLOT_WAIT_END. -/
def execSlotWaitEnd (q : BitVec 6) (n : BitVec 16) (s : State) : Host.Outcome State Fault Refusal := .next (slotWaitEnd q n s)

end Sys2Proof.Machine
end

