-- ==== Sys2Proof/Machine/Special.lean ====
section
/-! DEFINITION. Special functions and row statistics: fused forms, SFN, NORM, SMAX and TOPK (03 R88; 08 R243-R272). -/
namespace Sys2Proof.Machine

/-- A checked fused form: the function, the bias tensor, and the scale tensor with whether one value serves all (08 R247,
13 R414). -/
structure Fused where
  func : Nat
  bias : Option Tensor
  scale : Option (Tensor × Bool)
  deriving DecidableEq, Repr

/-- No stage of the fused form. -/
def Fused.plain : Fused := ⟨0, none, none⟩

/-- An operand of a fused form: FP32, with `cols` columns or just one element. `at'` is the offset of the OPR address in the command. -/
def formTensor (s : State) (x : Ctx) (opr at' i cols : Nat) : Except Bad Tensor := do
  check (opr != 0) (badField at')
  let r := s.rd (opr + 8 * i) 8
  check (fld r 0 48 != 0 && fld r 48 16 == 0) (badRef opr)
  let t ← tensor s x .vin r
  check (t.fmt == .fp32 && (t.d0 == cols || cols == 0)) (badRef (fld r 0 48))
  return t

/-- Checks a fused form over `cols` columns, with the offsets of the form word and of the OPR address in the command (08 R243, R247, R272). -/
def prepFused (s : State) (x : Ctx) (compat : Bool) (form opr cols o at' : Nat) : Except Bad Fused := do
  let f := fld form 0 8
  let sc := fld form 10 2
  check (fnValid (fnBank s) f) (badField o)
  check (!bit form 8 && sc != 3 && fld form 12 4 == 0) (badField (o + 1))
  check (fld form 16 16 == 0) (badField (o + 2))
  check (!compat || (f != 7 && decide (f < 0x10) && (f != 0 || sc == 0) && s.boot.tsu2)) (badField o)
  let b ← if bit form 9 then (formTensor s x opr at' 0 cols).map some else .ok none
  let c ← if sc == 0 then .ok none else (formTensor s x opr at' 1 (if sc == 2 then cols else 0)).map fun t => some (t, sc == 1)
  return ⟨f, b, c⟩

/-- The value of an FP32 operand element, a signalling NaN as it stands, with its poison. -/
def Tensor.word (s : State) (x : Ctx) (t : Tensor) (e : Nat) : Lane := t.raw s x e 0

/-- Stages 2 to 4 on one value at column `col`: the value and its poison, and the flags of each stage (04 R140, 08 R247). -/
def Fused.apply (s : State) (x : Ctx) (b : FnBank) (compat : Bool) (f : Fused) (col : Nat) (v : Lane) :
    Lane × Flags × Flags × Flags :=
  let r1 : Lane × Flags := match f.bias with
    | none => (v, 0)
    | some t => let k := t.word s x col; let r := faddQ v.1 k.1; ((r.1, v.2 || k.2), r.2)
  let r2 := if f.func == 0 then (r1.1.1, f0) else
    let sn := fIf (snan32 r1.1.1) fIV
    let r := evalFn b compat f.func r1.1.1
    (r.1, r.2 ||| sn)
  let v2 : Lane := (r2.1, r1.1.2)
  match f.scale with
  | none => (v2, r1.2, r2.2, 0)
  | some (t, one) =>
    let k := t.word s x (if one then 0 else col)
    let r := fmul v2.1 k.1
    ((r.1, v2.2 || k.2), r1.2, r2.2, r.2)

/-- The formats that a command in compatibility mode takes (08 R272). -/
def compatFmt (f : Fmt) : Bool := f == .fp32 || f == .fp16 || f == .bf16

/-- The checks of compatibility mode on a row command's input (08 R272). -/
def compatIn (s : State) (compat : Bool) (t : Tensor) : Bool :=
  !compat || (compatFmt t.fmt && decide (t.d0 ≤ 2 ^ 20) && s.boot.tsu2)

/-- `COMPAT` of a command or entry. -/
def compatOf (c : List Byte) : Bool := bit (hfOf c) 0

/-- SFN's tiles: one for each vector block (07 R232, 08 R243). -/
def sfnTiles (x : Ctx) (compat : Bool) (f : Fused) (src dst : Tensor) (s : State) : List Tile × Option (Nat × Nat × Nat) :=
  let b := fnBank s
  takeTiles (dst.blocks.zipIdx.map fun g =>
    let x := x.atBlock g.2
    let row := g.1.1
    let col := g.1.2.1
    let n := g.1.2.2
    let elems := tab n fun i => row * dst.d0 + col + i
    (missing s x (elems.flatMap fun e => [(src, e), (dst, e)]), fun _ =>
      let es := elems.map fun e =>
        let i := src.vec s x false e
        let r := f.apply s x b compat (e % dst.d0) (i.1, i.2.2)
        (r.1, [i.2.1, r.2.1, r.2.2.1, r.2.2.2])
      let w := dst.emit s x row col (es.map Prod.fst)
      let rep := Rep.all ((es.zip w.2).zipIdx.map fun z =>
        Rep.all ((z.1.1.2 ++ [z.1.2]).map fun fl => Rep.of fl .sfu row (col + z.2) noKgrp))
      plainTile g.2 (row * dst.d0 + col + n - 1) w.1 rep (poisonCount (es.map Prod.fst) + unassured dst elems)))

/-- SFN's checks (08 R243, R247, R272). -/
def prepSfn (s : State) (x : Ctx) (c : List Byte) : Except Bad Prep := do
  let src ← need s x .vin (bw c 0) 0x10
  let dst ← need s x .vout (bw c 1) 0x18
  check (sameShape src dst) (badField 0x18)
  check (compatIn s (compatOf c) src) (badField 1)
  let f ← prepFused s x (compatOf c) (fld (bw c 3) 0 32) (bw c 2) dst.d0 0x28 0x20
  let ins := [src] ++ f.bias.toList ++ (f.scale.map Prod.fst).toList
  return ⟨ins, [dst], blockParts dst ins, sfnTiles x (compatOf c) f src dst⟩

/-- SFN. -/
def sfnRow (q : BitVec 6) (n : BitVec 16) (s : State) : State :=
  startRow 0x11 q.toNat n.toNat s (fun s j => prepSfn s j.ctx j.cmd) (fun s j p => runPrep s j j.ctx p)

/-! ### Row sums (08 R256, R271) -/

/-- The compensated sum of terms in order. -/
def chain (l : List Acc) : Acc × Flags :=
  l.foldl (fun a t => let r := cadd a.1 t; (r.1, a.2 ||| r.2)) (Acc.none, f0)

/-- Every `k`-th element. -/
def every (k : Nat) (i : Nat) (l : List Acc) : List Acc :=
  (l.zipIdx.filter fun p => p.2 % k == i).map Prod.fst

/-- The sum of one block: 64 lanes, then the tree (08 R256). -/
def blockSum (l : List Acc) : Acc × Flags :=
  let parts := tab (min 64 l.length) fun i => chain (every 64 i l)
  let t := tree .cf32 (parts.map Prod.fst)
  (t.1, parts.foldl (fun f p => f ||| p.2) t.2)

/-- The sum along a row: blocks of 4,096, then the tree over block sums (08 R256). -/
def rowSum (l : List Acc) : Acc × Flags :=
  let bs := (chunksOf 4096 (l.length + 1) l).map blockSum
  let t := tree .cf32 (bs.map Prod.fst)
  (t.1, bs.foldl (fun f p => f ||| p.2) t.2)

/-- F32 terms left to right. -/
def chain32 (l : List Acc) : Acc × Flags :=
  l.foldl (fun a t => let r := addF32 a.1 t; (r.1, a.2 ||| r.2)) (Acc.none, f0)

/-- The Tsuron 2 sum: F32, left to right within blocks of 256, block sums in ascending order (08 R271). -/
def rowSum2 (l : List Acc) : Acc × Flags :=
  let bs := (chunksOf 256 (l.length + 1) l).map chain32
  let t := chain32 (bs.map Prod.fst)
  (t.1, bs.foldl (fun f p => f ||| p.2) t.2)

/-- A row sum as a rounded FP32 value: the sum and its one outcome (03 R93). -/
def sumOf (compat : Bool) (vs : List Nat) : Nat × Flags :=
  let r := (if compat then rowSum2 else rowSum) (vs.map Acc.ofTerm)
  let o := r.1.outcome
  (o.1, r.2 ||| o.2)

/-! ### NORM (08 R257-R261) -/

/-- What a row's statistics give: mean, variance, mean square, and the occurrences of the row, each as its flags. -/
structure RowStat where
  mean : Nat
  var : Nat
  ms : Nat
  flags : List Flags
  deriving DecidableEq, Repr

/-- Clamps a variance (08 R258). -/
def clampVar (v : Nat) : Nat := if isNan32 v then v else if bit v 31 then 0 else v

/-- Mean and variance of a finite row (08 R258, R271). -/
def meanVar (compat : Bool) (xs : List Nat) : RowStat :=
  let n := xs.length
  if compat then
    let s1 := sumOf true xs
    let m := fdivNat s1.1 n
    let d := xs.map fun x => fsub x m.1
    let sq := d.map fun y => fmul y.1 y.1
    let s2 := sumOf true (sq.map Prod.fst)
    let v := fdivNat s2.1 n
    ⟨m.1, if xs.all (· == xs.headD 0) then 0 else clampVar v.1, 0, [s1.2, m.2] ++ d.map Prod.snd ++ sq.map Prod.snd ++ [s2.2, v.2]⟩
  else
    let c := xs.headD 0
    let d := xs.map fun x => fsub x c
    let sq := d.map fun y => fmul y.1 y.1
    let s1 := sumOf false (d.map Prod.fst)
    let s2 := sumOf false (sq.map Prod.fst)
    let m1 := fdivNat s1.1 n
    let m2 := fdivNat s2.1 n
    let mean := faddQ c m1.1
    let var := ffmaQ (fneg m1.1) m1.1 m2.1
    ⟨mean.1, clampVar var.1, 0,
     d.map Prod.snd ++ sq.map Prod.snd ++ [s1.2, s2.2, m1.2, m2.2, mean.2, var.2]⟩

/-- The mean square of a row (08 R261). -/
def meanSquare (compat : Bool) (xs : List Nat) : RowStat :=
  let sq := xs.map fun x => fmul x x
  let t := sumOf compat (sq.map Prod.fst)
  let m := fdivNat t.1 xs.length
  ⟨0, 0, m.1, sq.map Prod.snd ++ [t.2, m.2]⟩

/-- The mean of a row that holds an infinity and no NaN (08 R260). -/
def infMean (xs : List Nat) : Nat × Flags :=
  let a : Acc := ⟨false, xs.contains inf32, xs.contains (inf32 + 0x80000000), false, 0, 0⟩
  a.outcome

/-- The values that NORM gives for one row: the row results for O0 and O1 or the elements of O0, and the flags of every
operation by column (08 R258-R261). γ and β give the operands of a column. -/
structure NormRow where
  o0 : List Nat
  o1 : List Nat
  flags : List (Nat × Flags)
  deriving DecidableEq, Repr

/-- A normalised element of LAYERNORM or RMSNORM (08 R261). -/
def normElem (layer : Bool) (v r : Nat) (mean : Nat) (g b : Option Nat) : Nat × List Flags :=
  let t := if layer then fsubQ v mean else (v, f0)
  let u := fmul t.1 r
  if layer then
    let y := match g, b with
      | some g, some b => ffmaQ u.1 g b
      | some g, none => fmul u.1 g
      | none, some b => faddQ u.1 b
      | none, none => (u.1, f0)
    (y.1, [t.2, u.2, y.2])
  else
    let y := match g with | some g => fmul u.1 g | none => (u.1, f0)
    (y.1, [u.2, y.2])

/-- One row of NORM (08 R257-R261). -/
def normRowOf (b : FnBank) (compat : Bool) (op eps : Nat) (xs : List Nat) (g be : Nat → Option Nat) : NormRow :=
  let n := xs.length
  let nan := xs.any isNan32
  let inf := xs.any fun v => v % 2 ^ 31 == inf32
  let elems := op == 4 || op == 5
  let all (v : Nat) : List Nat := if elems then List.replicate n v else [v]
  let at0 (fs : List Flags) : List (Nat × Flags) := fs.map fun f => (0, f)
  if nan then ⟨all nan32, [nan32], []⟩
  else if inf then
    let mu := infMean xs
    match op with
    | 0 => ⟨[mu.1], [], at0 [mu.2]⟩
    | 1 => ⟨[nan32], [], at0 [fIV]⟩
    | 2 => ⟨[mu.1], [nan32], at0 [fIV, mu.2]⟩
    | 3 => ⟨[inf32], [], []⟩
    | _ => ⟨all nan32, [], at0 [fIV]⟩
  else
    let st := if op == 3 || op == 5 then meanSquare compat xs else meanVar compat xs
    match op with
    | 0 => ⟨[st.mean], [], at0 st.flags⟩
    | 1 => ⟨[st.var], [], at0 st.flags⟩
    | 2 => ⟨[st.mean], [st.var], at0 st.flags⟩
    | 3 =>
      if st.ms == 0 then ⟨[0], [], at0 st.flags⟩
      else
        let r := evalFn b compat 4 st.ms
        let y := fmul st.ms r.1
        ⟨[y.1], [], at0 (st.flags ++ [r.2, y.2])⟩
    | _ =>
      let e := fadd (if op == 4 then st.var else st.ms) eps
      let r := evalFn b compat 4 e.1
      let es := xs.zipIdx.map fun v => normElem (op == 4) v.1 r.1 st.mean (g v.2) (be v.2)
      ⟨es.map Prod.fst, [], at0 (st.flags ++ [e.2, r.2]) ++ es.zipIdx.flatMap fun v => v.1.2.map fun f => (v.2, f)⟩

/-- The block index of a row's first block (07 R219), which places the row's item. -/
def rowCore (n row : Nat) : Nat := row * cdiv n 4096 % Config.cores

/-- The input conversions of a row that every output of the row depends on: each is charged to the row's first output (03 R102). -/
def convIn (u : OUnit) (row : Nat) (iv : List (Nat × Flags × Bool)) : Rep := Rep.all (iv.map fun v => Rep.of v.2.1 u row 0 noKgrp)

/-- A row's tile: its blocks of 4,096 elements are the work items, and they are combined on the core of the first (07 R219; 08 R256, R265). -/
def rowTile (n row : Nat) (wr : List Wr) (rep : Rep) (poison : Nat) : Tile :=
  { (plainTile row row wr rep poison) with
    core := rowCore n row
    items := tab (cdiv n 4096) fun i => ((row * cdiv n 4096 + i) % Config.cores, false) }

/-- NORM's tiles: one for each row (13 R425). -/
def normTiles (x : Ctx) (compat : Bool) (op eps : Nat) (src o0 : Tensor) (o1 : Option Tensor) (g be : Option Tensor)
    (s : State) : List Tile × Option (Nat × Nat × Nat) :=
  let b := fnBank s
  takeTiles (tab src.rows fun row =>
    let elems := tab src.d0 fun i => row * src.d0 + i
    let outElems := tab o0.d0 fun i => row * o0.d0 + i
    (missing s x (elems.map (fun e => (src, e)) ++ outElems.map (fun e => (o0, e)) ++
        (match o1 with | some t => [(t, row)] | none => []) ++ (g.toList ++ be.toList).flatMap Tensor.all), fun _ =>
      let iv := elems.map fun e => src.vec s (x.atBlock (row * cdiv src.d0 4096 + e % src.d0 / 4096)) false e
      let poison := iv.any fun v => v.2.2
      let col (t : Option Tensor) (i : Nat) : Option Nat := t.map fun t => (t.word s x i).1
      let r := normRowOf b compat op eps (iv.map fun v => v.1) (col g) (col be)
      let bad (i : Nat) : Bool := poison || ((op == 4 || op == 5) &&
        ([g, be].any fun t => match t with | some t => (t.word s x i).2 | none => false))
      let w0 := o0.emit s x row 0 (r.o0.zipIdx.map fun v => (v.1, bad v.2))
      let w1 := match o1 with
        | some t => t.emit s x row 0 (r.o1.map fun v => (v, poison))
        | none => ([], [])
      let rep := Rep.all (convIn .sfu row iv :: r.flags.map (fun f => Rep.of f.2 .sfu row f.1 noKgrp) ++ [rowRep .sfu row 0 noKgrp w0.2, rowRep .sfu row 0 noKgrp w1.2])
      let pc := ((List.range r.o0.length).filter bad).length + (if poison && o1.isSome then 1 else 0)
      rowTile src.d0 row (w0.1 ++ w1.1) rep (pc + unassured o0 outElems)))

/-- NORM's checks (08 R257, R272). -/
def prepNorm (s : State) (x : Ctx) (c : List Byte) : Except Bad Prep := do
  let op := fld (bw c 5) 0 3
  let eps := fld (bw c 5) 32 32
  let src ← need s x .vin (bw c 0) 0x10
  check (decide (op < 6)) (badField 0x38)
  check (decide (eps < inf32)) (badField 0x3C)
  let o0 ← need s x .vout (bw c 1) 0x18
  let o1 ← if op == 2 then (need s x .vout (bw c 2) 0x20).map some else .ok none
  check (op == 2 || bw c 2 == 0) (badField 0x20)
  let dims := if op == 4 || op == 5 then src.dims else [1, src.d1, src.d2, src.d3]
  check (o0.dims == dims) (badField 0x18)
  check (match o1 with | some t => t.dims == dims | none => true) (badField 0x20)
  let g ← tensorOpt s x .vin (bw c 3)
  let be ← tensorOpt s x .vin (bw c 4)
  check (match g with | some t => t.fmt == .fp32 && t.d0 == src.d0 | none => true) (badField 0x28)
  check (match be with | some t => t.fmt == .fp32 && t.d0 == src.d0 | none => true) (badField 0x30)
  check (compatIn s (compatOf c) src) (badField 1)
  let more := g.toList ++ be.toList
  return ⟨src :: more, [o0] ++ o1.toList, rowParts src more, normTiles x (compatOf c) op eps src o0 o1 g be⟩

/-- NORM. -/
def normRow (q : BitVec 6) (n : BitVec 16) (s : State) : State :=
  startRow 0x12 q.toNat n.toNat s (fun s j => prepNorm s j.ctx j.cmd) (fun s j p => runPrep s j j.ctx p)

/-! ### Softmax (08 R263-R268) -/

/-- `δ × κ × log2 e` rounded to 24 fractional bits, as a wide factor (08 R264, R265). -/
def expFactor (κ : Nat) (δ : Dy) : Wide :=
  let p := (dec32 κ).dy.mul δ
  .ord (rneInt (p.m * (log2eFix : Int)) (p.e + 24 - 512)).1

/-- The exact difference of two finite values. -/
def diff (a b : Nat) : Dy := (dec32 a).dy.add ⟨-(dec32 b).dy.m, (dec32 b).dy.e⟩

/-- A term against a finite maximum: none when it is empty, with its flags (08 R264). It is exact only at the maximum. -/
def smTerm (κ v m : Nat) : Option Nat × Flags :=
  if v == inf32 + 0x80000000 then (none, 0)
  else
    let d := diff v m
    if d.m == 0 then (some one32, 0)
    else
      let r := applyWide (expFactor κ d) one32 none
      if r.drop then (none, 0) else (some r.val, r.flags ||| fIX)

/-- The maximum of a list by 03 R87, from −∞. -/
def maxOf (l : List Nat) : Nat := l.foldl (fun a v => (fminmax true a v).1) (inf32 + 0x80000000)

/-- The running state of a softmax row: the maximum and the sum (08 R265). -/
structure SmState where
  m : Nat
  s : Acc
  fl : Flags
  deriving DecidableEq, Repr

/-- Rescales a sum from maximum `a` to the greater `b`. -/
def smScale (κ a b : Nat) (s : Acc) : Acc × Flags :=
  let r := s.scale (expFactor κ (diff a b))
  if r.2.2 then (⟨false, false, false, false, 0, 0⟩, 0) else (r.1, r.2.1 &&& ~~~ fUF)

/-- Combines one block into the running state (08 R265). -/
def smBlock (κ : Nat) (a : SmState) (vs : List Nat) : SmState :=
  let mb := maxOf vs
  let ts := vs.map fun v => if mb == inf32 + 0x80000000 then (none, f0) else smTerm κ v mb
  let sb := blockSum (ts.map fun t => match t.1 with | some v => Acc.ofTerm v | none => Acc.none)
  let fl := ts.foldl (fun f t => f ||| t.2) (a.fl ||| sb.2)
  let mn := (fminmax true a.m mb).1
  let s1 := if !a.s.empty && fltV a.m mn then smScale κ a.m mn a.s else (a.s, f0)
  let s2 := if !sb.1.empty && fltV mb mn then smScale κ mb mn sb.1 else (sb.1, f0)
  let r := cadd s1.1 s2.1
  ⟨mn, r.1, fl ||| s1.2 ||| s2.2 ||| r.2⟩

/-- The first pass over a row (08 R265). -/
def smPass (κ : Nat) (vs : List Nat) : SmState :=
  (chunksOf 4096 (vs.length + 1) vs).foldl (smBlock κ) ⟨inf32 + 0x80000000, Acc.none, 0⟩

/-- A row of scores' outputs with the flags of each element's operations, the flags of the row's operations, and whether it was fully
masked (08 R265-R267, R271). -/
def smRow (b : FnBank) (compat : Bool) (κ : Nat) (vs : List Nat) : List (Nat × List Flags) × List Flags × Bool :=
  let all (v : Nat) : List (Nat × List Flags) := vs.map fun _ => (v, [])
  let m := maxOf vs
  if vs.any isNan32 then (all nan32, [], false)
  else if m == inf32 then (all nan32, [fIV], false)
  else if m == inf32 + 0x80000000 then (all 0, [], true)
  else if compat then
    let ts := vs.map fun v =>
      let d := fsub v m
      let a := fmul κ d.1
      let e := evalFn b true 1 a.1
      if v == inf32 + 0x80000000 then (0, []) else (e.1, [d.2, a.2, e.2])
    let t := sumOf true (ts.map Prod.fst)
    let q := evalFn b true 3 t.1
    (ts.map fun e => let y := fmul e.1 q.1; (y.1, [y.2]), ts.flatMap Prod.snd ++ [t.2, q.2], false)
  else
    let p := smPass κ vs
    let o := p.s.outcome
    let q := evalFn b false 3 o.1
    (vs.map fun v =>
      let t := smTerm κ v m
      match t.1 with
      | some e => let y := fmul e q.1; (y.1, [t.2, y.2])
      | none => (0, if v == inf32 + 0x80000000 then [] else [fUF ||| fIX]), [p.fl, o.2, q.2], false)

/-- SMAX's tiles: one for each row (13 R425). -/
def smaxTiles (x : Ctx) (compat : Bool) (κ : Nat) (src dst : Tensor) (s : State) : List Tile × Option (Nat × Nat × Nat) :=
  let b := fnBank s
  takeTiles (tab src.rows fun row =>
    let elems := tab src.d0 fun i => row * src.d0 + i
    (missing s x (elems.flatMap fun e => [(src, e), (dst, e)]), fun _ =>
      let iv := elems.map fun e => src.vec s (x.atBlock (row * cdiv src.d0 4096 + e % src.d0 / 4096)) false e
      let poison := iv.any fun v => v.2.2
      let r := smRow b compat κ (iv.map fun v => v.1)
      let w := dst.emit s x row 0 (r.1.map fun y => (y.1, poison))
      let rep := Rep.all (convIn .sfu row iv :: r.1.zipIdx.map (fun y => Rep.all (y.1.2.map fun f => Rep.of f .sfu row y.2 noKgrp)) ++
        r.2.1.map (fun f => Rep.of f .sfu row 0 noKgrp) ++ [rowRep .sfu row 0 noKgrp w.2])
      { (rowTile src.d0 row w.1 rep ((if poison then src.d0 else 0) + unassured dst elems)) with masked := b2n r.2.2 }))

/-- SMAX's checks (08 R263, R272). -/
def prepSmax (s : State) (x : Ctx) (c : List Byte) : Except Bad Prep := do
  let κ := fld (bw c 5) 32 32
  let src ← need s x .vin (bw c 0) 0x10
  let dst ← need s x .vout (bw c 1) 0x18
  check (sameShape src dst) (badField 0x18)
  check (decide (0 < κ) && decide (κ < inf32)) (badField 0x3C)
  check (compatIn s (compatOf c) src) (badField 1)
  return ⟨[src], [dst], rowParts src [], smaxTiles x (compatOf c) κ src dst⟩

/-- SMAX. -/
def smaxRow (q : BitVec 6) (n : BitVec 16) (s : State) : State :=
  startRow 0x13 q.toNat n.toNat s (fun s j => prepSmax s j.ctx j.cmd) (fun s j p => runPrep s j j.ctx p)

/-! ### TOPK (03 R88; 04 R143; 13 R412) -/

/-- TOPK's tiles: one for each row. A row with fewer than `k` elements is filled up as 04 R143 gives. -/
def topkTiles (x : Ctx) (k : Nat) (mag : Bool) (src vals pos : Tensor) (s : State) : List Tile × Option (Nat × Nat × Nat) :=
  takeTiles (tab src.rows fun row =>
    let elems := tab src.d0 fun i => row * src.d0 + i
    let outs := tab k fun i => row * k + i
    (missing s x (elems.map (fun e => (src, e)) ++ outs.flatMap fun e => [(vals, e), (pos, e)]), fun _ =>
      let iv := elems.map fun e => src.vec s (x.atBlock (row * cdiv src.d0 4096 + e % src.d0 / 4096)) false e
      let poison := iv.any fun v => v.2.2
      let xs := iv.map fun v => v.1
      let top := topRank mag k xs
      let ent := tab k fun i => match top[i]? with
        | some e => (xs.getD e 0, e)
        | none => (0, 0xFFFFFFFF)
      let w := vals.emit s x row 0 (ent.map fun e => (e.1, poison))
      let wp := pos.putRow s x row 0 0 (ent.map fun e => (e.2, poison))
      let rep := (convIn .vector row iv).and (rowRep .vector row 0 noKgrp w.2)
      rowTile src.d0 row (w.1 ++ wp) rep ((if poison then 2 * k else 0) + unassured vals outs + unassured pos outs)))

/-- TOPK's checks (03 R88, 13 R412). -/
def prepTopk (s : State) (x : Ctx) (c : List Byte) : Except Bad Prep := do
  let k := fld (bw c 5) 0 4 + 1
  let src ← need s x .vin (bw c 0) 0x10
  let vals ← need s x .vout (bw c 1) 0x18
  let pos ← need s x .index (bw c 2) 0x20
  check (vals.dims == [k, src.d1, src.d2, src.d3]) (badField 0x18)
  check (sameShape vals pos) (badField 0x20)
  return ⟨[src], [vals, pos], rowParts src [], topkTiles x k (bit (bw c 5) 4) src vals pos⟩

/-- TOPK. -/
def topkRow (q : BitVec 6) (n : BitVec 16) (s : State) : State :=
  startRow 0x14 q.toNat n.toNat s (fun s j => prepTopk s j.ctx j.cmd) (fun s j p => runPrep s j j.ctx p)

/-- SFN. -/
def execSfn (q : BitVec 6) (n : BitVec 16) (s : State) : Host.Outcome State Fault Refusal := .next (sfnRow q n s)
/-- NORM. -/
def execNorm (q : BitVec 6) (n : BitVec 16) (s : State) : Host.Outcome State Fault Refusal := .next (normRow q n s)
/-- SMAX. -/
def execSmax (q : BitVec 6) (n : BitVec 16) (s : State) : Host.Outcome State Fault Refusal := .next (smaxRow q n s)
/-- TOPK. -/
def execTopk (q : BitVec 6) (n : BitVec 16) (s : State) : Host.Outcome State Fault Refusal := .next (topkRow q n s)

end Sys2Proof.Machine
end

