-- ==== Sys2Proof/Machine/Array.lean ====
section
/-! DEFINITION. Array operations: operands, products, sums, the integer retry and the output path of MMA, DMM and CONV
(02 R74-R82, R568; 03 R90-R95, R102; 04 R115-R143, R569; 05 R149-R180; 13 R413-R415). -/
namespace Sys2Proof.Machine

/-- The three array commands. -/
inductive ArrKind where
  | mma | dmm | conv
  deriving DecidableEq, Repr

/-- The parameters of a convolution (05 R170). -/
structure Geom where
  kd : Nat
  kh : Nat
  kw : Nat
  sd : Nat
  sh : Nat
  sw : Nat
  ed : Nat
  eh : Nat
  ew : Nat
  pd : Nat
  ph : Nat
  pw : Nat
  deriving DecidableEq, Repr

/-- Reads `GEOM` and the leading padding PW (13 R415). -/
def geomOf (w pw : Nat) : Geom :=
  ⟨fld w 0 5 + 1, fld w 5 5 + 1, fld w 10 5 + 1, fld w 15 3 + 1, fld w 18 3 + 1, fld w 21 3 + 1, fld w 24 5 + 1, fld w 29 5 + 1,
   fld w 34 5 + 1, fld w 39 10, fld w 49 10, pw⟩

/-- A checked array operation: its tensors, fused stages, shape, summation and extents. `cols` is the column count of one
group, `m` the rows of one batch, `k` the reduction length, `ow` and `oh` the inner output extents of a convolution. -/
structure ArrOp where
  kind : ArrKind
  a : Tensor
  w : Tensor
  y : Option Tensor
  dec : Option Tensor
  form : Fused
  compat : Bool
  elt : Nat
  et : Option Tensor
  topk : Option (Nat × Nat)
  shape : Nat
  stat : Nat
  trans : Bool
  shadow : Bool
  g : Nat
  p : Nat
  split : Nat
  acc : Nat
  int : Bool
  rows : Nat
  reduce : Bool
  batch : Nat
  m : Nat
  n : Nat
  cols : Nat
  k : Nat
  geom : Geom
  ow : Nat
  oh : Nat
  deriving DecidableEq, Repr

/-! ### Shapes and tiles (04 R122, R123; 05 R150-R156) -/

/-- Cells per K-chain of a shape (04 R122). -/
def shapeC : Nat → Nat
  | 0 => 32 | 1 => 16 | 2 => 16 | 3 => 8 | 4 => 4 | _ => 1
/-- Groups per cell in force (04 R123). -/
def groupsOf (acc : Nat) (shadow : Bool) : Nat := (if acc == 2 then 4 else 8) / (if shadow then 2 else 1)
/-- Passes of a split (02 R79). -/
def passCount : Nat → Nat
  | 0 => 1 | 1 => 3 | _ => 6
/-- Which pieces each pass multiplies (02 R79). -/
def passPairs : Nat → List (Nat × Nat)
  | 0 => [(0, 0)]
  | 1 => [(0, 0), (0, 1), (1, 0)]
  | _ => [(0, 0), (0, 1), (1, 0), (0, 2), (1, 1), (2, 0)]

/-- Cells per K-chain. -/
def ArrOp.c (o : ArrOp) : Nat := shapeC o.shape
/-- Terms of a K-group (04 R122). -/
def ArrOp.gk (o : ArrOp) : Nat := o.c * o.g
/-- K-groups. -/
def ArrOp.nkg (o : ArrOp) : Nat := cdiv o.k o.gk
/-- Output slots of a tile: a wave's outputs, a quadrant's in Q16 (04 R122, 05 R151). -/
def ArrOp.outs (o : ArrOp) : Nat := (if o.shape == 1 then 16 else 1024 / o.c) * (16 / o.g) * o.p
/-- Output rows of a full tile (05 R154-R156). -/
def ArrOp.tileRows (o : ArrOp) : Nat := if o.stat == 2 then o.outs else o.rows
/-- Output columns of a full tile. -/
def ArrOp.tileCols (o : ArrOp) : Nat := if o.stat == 2 then o.rows else o.outs
/-- Row tiles of one batch. -/
def ArrOp.rowTiles (o : ArrOp) : Nat := cdiv o.m o.tileRows
/-- Column tiles of one group. -/
def ArrOp.groupTiles (o : ArrOp) : Nat := cdiv o.cols o.tileCols
/-- Column tiles. -/
def ArrOp.colTiles (o : ArrOp) : Nat := o.groupTiles * (o.n / o.cols)
/-- Output tiles (13 R415). -/
def ArrOp.tiles (o : ArrOp) : Nat := o.batch * o.rowTiles * o.colTiles
/-- Output rows over all batches. -/
def ArrOp.allRows (o : ArrOp) : Nat := o.batch * o.m

/-- The place of one output tile: batch, first row in the batch and row count, first column and column count, group, and
number of its column tile. -/
structure TileBox where
  b : Nat
  m0 : Nat
  nr : Nat
  n0 : Nat
  nc : Nat
  grp : Nat
  ct : Nat
  deriving DecidableEq, Repr

/-- Tile `t`, in row-major order over batch, row tile and column tile; the column tiles of a convolution lie in its groups in
turn (13 R415, 05 R172). -/
def ArrOp.box (o : ArrOp) (t : Nat) : TileBox :=
  let ct := t % o.colTiles
  let rt := t / o.colTiles % o.rowTiles
  let b := t / o.colTiles / o.rowTiles
  let grp := ct / o.groupTiles
  let c0 := ct % o.groupTiles * o.tileCols
  let m0 := rt * o.tileRows
  ⟨b, m0, min o.tileRows (o.m - m0), grp * o.cols + c0, min o.tileCols (o.cols - c0), grp, ct⟩

/-- The first flattened output row of a tile. -/
def ArrOp.row0 (o : ArrOp) (x : TileBox) : Nat := x.b * o.m + x.m0

/-! ### Checks (05 R150-R156, R172, R177; 13 R413-R415) -/

/-- The element-wise tensor of stage 5 (04 R140, 13 R414). -/
def prepElt (s : State) (x : Ctx) (elt opr at' : Nat) (dims : List Nat) : Except Bad (Option Tensor) := do
  if elt == 0 then return none
  check (opr != 0) (badField at')
  let r := s.rd (opr + 16) 8
  check (fld r 0 48 != 0 && fld r 48 16 == 0) (badRef opr)
  let t ← tensor s x .vin r
  check (t.dims == dims) (badRef (fld r 0 48))
  return some t

/-- The extents of an operation: batch, rows, all columns, columns of a group, reduction length (13 R415; 05 R170, R177). A convolution takes
any D, H and W extents of Y, taps outside the input being empty (DESIGN CHOICE, log 36). -/
def arrExtents (kind : ArrKind) (trans : Bool) (a w : Tensor) (y : Option Tensor) (gm : Geom) :
    Except Bad (Nat × Nat × Nat × Nat × Nat) := do
  let wn := if trans then w.d1 else w.d0
  let wk := if trans then w.d0 else w.d1
  match kind with
  | .mma =>
    check (wk == a.d0 && (w.d2 == 1 || w.d2 == a.d2) && w.d3 == 1 && a.d3 == 1) (badField 0x18)
    return (a.d2, a.d1, wn, wn, a.d0)
  | .dmm =>
    check (a.d0 == a.d1 && a.d3 == 1 && decide (a.d0 ≤ 65536)) (badField 0x10)
    check (wk == a.d0 && w.d2 == a.d2 && w.d3 == 1) (badField 0x18)
    return (a.d2, a.d1, wn, wn, a.d0)
  | .conv =>
    let groups := a.d0 / wk
    check (a.d0 % wk == 0 && decide (0 < groups) && wn % groups == 0 && w.d2 == gm.kd * gm.kh * gm.kw && w.d3 == 1 &&
      decide (w.d2 * wk ≤ 2 ^ 24)) (badField 0x18)
    check (decide (gm.pd ≤ (gm.kd - 1) * gm.ed) && decide (gm.ph ≤ (gm.kh - 1) * gm.eh)) (badField 0x38)
    check (decide (gm.pw ≤ (gm.kw - 1) * gm.ew)) (badField 0x16)
    match y with
    | none => .error (badField 0x20)
    | some y => return (1, y.d1 * y.d2 * y.d3, wn, wn / groups, w.d2 * wk)

/-- The extents that Y must have. -/
def arrOutDims (kind : ArrKind) (batch m n : Nat) (y : Tensor) : List Nat :=
  match kind with
  | .conv => [n, y.d1, y.d2, y.d3]
  | _ => [n, m, batch, 1]

/-- Both operands are integer with `PATH` direct (02 R568). -/
def intPair (a w : Tensor) : Bool := a.fmt.isInt && w.fmt.isInt && a.path == 0 && w.path == 0

/-- The operand paths are among those of 02 R568. -/
def pathsOk (a w : Tensor) : Bool := !w.fmt.isInt || w.path != 0 || intPair a w

/-- Weights packed in a lane (04 R119), by the weight's format also in `INPUT` mode, where activations are stationary (DESIGN CHOICE,
log 36). -/
def packOf (int : Bool) (f : Fmt) : Nat := if int then (match f with | .int4 => 2 | .int2 => 4 | _ => 1) else 1

/-- The checks of an array command or entry (02 R568; 04 R123, R124, R138, R141; 05 R150-R156, R172, R177; 08 R272;
13 R413-R415; 14 R456). `prog` allows `ROUND`. -/
def prepArray (s : State) (x : Ctx) (c : List Byte) : Except Bad ArrOp := do
  let kind := match opOf c with | 1 => ArrKind.mma | 2 => ArrKind.dmm | _ => ArrKind.conv
  let cw := fld (bw c 4) 0 32
  let form := fld (bw c 4) 32 32
  let opr := if kind == .dmm then bw c 5 else bw c 3
  let at' := if kind == .dmm then 0x38 else 0x28
  let compat := compatOf c
  let shadow := bit (hfOf c) 1
  let shape := fld cw 0 3
  let stat := fld cw 3 2
  let trans := bit cw 5
  let lg := fld cw 6 2
  let acc := fld cw 8 2
  let split := fld cw 10 2
  let elt := fld cw 12 2
  let topk := bit cw 14
  let only := bit cw 15
  let round := fld cw 20 2
  let reduce := bit cw 22
  let rows := fld cw 24 8 + 1
  let g := 4 * 2 ^ lg
  check (decide (shape < 6) && stat != 3 && lg != 3 && (stat != 1 || (decide (shape < 2) && g == 16)) && (kind != .dmm || stat == 0))
    (badField 0x30)
  check (acc != 3 && split != 3 && elt != 3 && (kind != .dmm || split == 0) && (!only || topk)) (badField 0x31)
  check ((round == 0 || x.prog) && round != 3 && (!reduce || kind == .mma)) (badField 0x32)
  let a ← need s x .act (fld (bw c 0) 0 48) 0x10
  let w ← need s x .weight (bw c 1) 0x18
  check (pathsOk a w) (badField 0x18)
  let int := intPair a w
  check ((int && acc == 0 && split == 0 && kind != .dmm) || (!int && acc != 0)) (badField 0x31)
  let p := packOf int w.fmt
  check (decide (rows ≤ shapeC shape * groupsOf acc shadow * g / (16 * p))) (badField 0x33)
  check (!compat || (compatIn s true a && compatIn s true w)) (badField 1)
  check (!only || bw c 2 == 0) (badField 0x20)
  let y ← if only then .ok none else (need s x .aout (bw c 2) 0x20).map some
  let gm := geomOf (bw c 5) (fld (bw c 0) 48 10)
  let e ← arrExtents kind trans a w y gm
  let batch := e.1
  let m := e.2.1
  let n := e.2.2.1
  check (w.path == 0 || w.aux == 0 || w.auxFits s x ((if w.path == 1 then 2 else 4) * n)) (badRef (fld (bw c 1) 0 48))
  let dims := match y with | some t => arrOutDims kind batch m n t | none => [n, m, batch, 1]
  check (match y with | some t => t.dims == dims | none => true) (badField 0x20)
  let plain := fld form 0 8 == 0 && !bit form 9 && fld form 10 2 == 0 && elt == 0
  check (match y with
    | some t => (t.fmt != .int32 || (plain && ((t.aux != 0) == int))) && (t.fmt != .cf32 || (plain && !topk)) &&
        (!reduce || t.fmt == .fp32 || (t.fmt == .bf16 && !bit (bw c 5) 8))
    | none => !reduce) (badField 0x20)
  let fm ← prepFused s x compat form opr n 0x34 at'
  let et ← prepElt s x elt opr at' dims
  check (!topk || opr != 0) (badField at')
  let reg := s.rd (opr + 24) 8
  check (!topk || decide (reg < 2 ^ 48)) (badRef opr)
  let dec ← if kind == .dmm then (need s x .decay (bw c 3) 0x28).map some else .ok none
  check (match dec with | some t => t.fmt == .dlog32 && t.d0 == a.d0 && t.rows == batch | none => true) (badField 0x28)
  return {
    kind := kind
    a := a
    w := w
    y := y
    dec := dec
    form := fm
    compat := compat
    elt := elt
    et := et
    topk := if topk then some (fld cw 16 4 + 1, reg) else none
    shape := shape
    stat := stat
    trans := trans
    shadow := shadow
    g := g
    p := p
    split := split
    acc := acc
    int := int
    rows := rows
    reduce := reduce
    batch := batch
    m := m
    n := n
    cols := e.2.2.2.1
    k := e.2.2.2.2
    geom := gm
    ow := match y with | some t => t.d1 | none => 1
    oh := match y with | some t => t.d2 | none => 1 }

/-- The tensors that an operation reads. -/
def ArrOp.ins (o : ArrOp) : List Tensor :=
  [o.a, o.w] ++ o.dec.toList ++ o.form.bias.toList ++ (o.form.scale.map Prod.fst).toList ++ o.et.toList

/-- The runs of the weight scales of output columns `n0` to `n0 + nc - 1` (02 R74, R76; 13 R410). -/
def ArrOp.scaleRuns (o : ArrOp) (x : Ctx) (n0 nc : Nat) : List Run :=
  let of (b : Nat) : List Run := (o.w.auxRange x (b * o.n)).flatMap fun r => runPieces [⟨none, r.1, r.2⟩] (b * n0) (b * nc)
  if o.w.path == 1 then (if o.w.aux == 0 then [] else of 2)
  else if o.w.path == 2 then of 4
  else []

/-! ### Operands -/

/-- Piece `i` of an operand. -/
def Opd.piece (d : Opd) : Nat → Nat
  | 0 => d.p1 | 1 => d.p2 | _ => d.p3
/-- A single LOG16 code with its flags. -/
def Opd.one (c : Nat × Flags) (bad : Bool) : Opd := ⟨c.1, 0, 0, 0, c.2, bad⟩

/-- A poisoned operand reads as +0 or 0 (12 R388). -/
def Opd.lost : Opd := ⟨0, 0, 0, 0, 0, true⟩

/-- Element `e` in plane `p`, which is not read when the split does not use it (02 R82). -/
def planeOf (s : State) (x : Ctx) (t : Tensor) (split e p : Nat) : Nat × Bool :=
  if p == 0 || (decide (p ≤ split) && decide (p < t.fmt.planes)) then t.raw s x e p else (0, false)

/-- An element of a logarithmic or floating format as LOG16 pieces (02 R67, R78, R82; 05 R166). A LOG8 element is converted, and saturates,
by itself before its product (04 R117); a poisoned element is +0 in every piece (12 R388). -/
def logOpd (s : State) (x : Ctx) (t : Tensor) (split e : Nat) : Opd :=
  let c := t.raw s x e 0
  match t.fmt with
  | .log16 => Opd.one (c.1, 0) c.2
  | .log8 => let k := t.scale s x e; if c.2 || k.2 then Opd.lost else Opd.one (log8To16 c.1 k.1) false
  | .log16x2 => let q := planeOf s x t split e 1; if c.2 || q.2 then Opd.lost else ⟨c.1, q.1, 0, 0, 0, false⟩
  | .log16x3 =>
    let q := planeOf s x t split e 1
    let r := planeOf s x t split e 2
    if c.2 || q.2 || r.2 then Opd.lost else ⟨c.1, q.1, r.1, 0, 0, false⟩
  | f =>
    let v := ieeeTo32 f.ieee c.1
    let p := split3 v.1
    ⟨p.1.1, p.1.2.1, p.1.2.2, 0, v.2 ||| p.2, c.2⟩

/-- An integer activation as LOG16 under the tensor's scale (02 R77): beyond the range it raises OF and IX (02 R67). -/
def intActOpd (v : Int) (scale : Nat) (bad : Bool) : Opd :=
  let c := scaleWeight (unsgn 8 v) 0 scale
  Opd.one (c.1, c.2 ||| fIf (c.2 &&& fOF != 0) fIX) bad

/-- An activation element (02 R77, R568). -/
def actOpd (s : State) (x : Ctx) (o : ArrOp) (e : Nat) : Opd :=
  let c := o.a.raw s x e 0
  let v := sgn o.a.fmt.bits c.1
  if o.int then ⟨0, 0, 0, v, 0, c.2⟩
  else if o.a.fmt.isInt then intActOpd v o.a.auxVal c.2
  else logOpd s x o.a o.split e

/-- A weight element of output column `col` (02 R74-R76, R568). -/
def weightOpd (s : State) (x : Ctx) (o : ArrOp) (e col : Nat) : Opd :=
  let c := o.w.raw s x e 0
  if o.int then ⟨0, 0, 0, sgn o.w.fmt.bits c.1, 0, c.2⟩
  else if o.w.path == 1 then
    let t := dqEntry s o.w.auxVal (c.1 % 2 ^ o.w.fmt.bits)
    if o.w.aux == 0 then Opd.one (tableWeight t none) c.2
    else
      let k := o.w.readAux s x (2 * o.n) (2 * col) 2
      if k.2.any id then Opd.lost else Opd.one (tableWeight t (some (ofLe k.1))) c.2
  else if o.w.path == 2 then
    let k := o.w.readAux s x (4 * o.n) (4 * col) 4
    if k.2.any id then Opd.lost else Opd.one (scaleWeight c.1 (fld (ofLe k.1) 0 8) (fld (ofLe k.1) 16 16)) c.2
  else logOpd s x o.w o.split e

/-- The coordinate of a tap along one axis, when it lies in the input (05 R170, R171). -/
def tapAt (i stride kd dil pad ext : Nat) : Option Nat :=
  let z := i * stride + kd * dil
  if z < pad ∨ pad + ext ≤ z then none else some (z - pad)

/-- The input element of output row `m` and reduction index `k` in a group (05 R170, R171, R176); none where the valid bit is
clear. -/
def ArrOp.actElem (o : ArrOp) (bx : TileBox) (m k : Nat) : Option Nat :=
  match o.kind with
  | .mma => some (k + o.k * (m + o.m * bx.b))
  | .dmm => if m < k then none else some (k + o.k * (m + o.m * bx.b))
  | .conv =>
    let g := o.geom
    let cg := o.k / (g.kd * g.kh * g.kw)
    let tap := k / cg
    let x := tapAt (m % o.ow) g.sw (tap % g.kw) g.ew g.pw o.a.d1
    let y := tapAt (m / o.ow % o.oh) g.sh (tap / g.kw % g.kh) g.eh g.ph o.a.d2
    let z := tapAt (m / o.ow / o.oh) g.sd (tap / g.kw / g.kh) g.ed g.pd o.a.d3
    match z, y, x with
    | some z, some y, some x => some (bx.grp * cg + k % cg + o.a.d0 * (x + o.a.d1 * (y + o.a.d2 * z)))
    | _, _, _ => none

/-- The weight element of reduction index `k` and column `n`, along either axis (05 R163, R170). -/
def ArrOp.weightElem (o : ArrOp) (bx : TileBox) (k n : Nat) : Nat :=
  let b := if o.w.d2 == 1 then 0 else bx.b
  match o.kind with
  | .conv =>
    let cg := o.k / (o.geom.kd * o.geom.kh * o.geom.kw)
    if o.trans then k % cg + cg * (n + o.n * (k / cg)) else n + o.n * k
  | _ => if o.trans then k + o.k * (n + o.n * b) else n + o.n * (k + o.k * b)

/-! ### Decay masks (03 R92; 05 R177-R180) -/

/-- What the feeders hold of a chunk's decays at a position: the running sum, the latest `ZERO` and `INVALID`, and whether some
decay so far is poisoned. -/
structure DecPos where
  lam : Int
  z : Int
  v : Int
  bad : Bool
  deriving DecidableEq, Repr

/-- The next position's record from a decay and its poison (05 R178). -/
def DecPos.next (p : DecPos) (t : Nat) (d : Nat × Bool) : DecPos :=
  if d.1 == dlZero then { p with z := t, bad := p.bad || d.2 }
  else if d.1 == dlInvalid then { p with v := t, bad := p.bad || d.2 }
  else { p with lam := p.lam + sgn 32 d.1, bad := p.bad || d.2 }

/-- The records of positions 0 to `n` of a chunk (05 R178). -/
def decPos (ds : List (Nat × Bool)) : List DecPos :=
  (ds.drop 1).zipIdx.foldl (fun acc d => acc ++ [(acc.getLastD ⟨0, -1, -1, false⟩).next (d.2 + 1) d.1]) [⟨0, -1, -1, false⟩]

/-- The mask of a pair s ≤ t (05 R179). -/
def decayMask (t s : DecPos) (si : Nat) : LogVal :=
  if (si : Int) < t.v then .nan
  else if (si : Int) < t.z then .zero false
  else .fin false (max (-131072) (min 131071 (rneShift (t.lam - s.lam) 17).1))

/-! ### Products (03 R90-R92; 04 R116-R118) -/

/-- The sign of a log value. -/
def LogVal.sign : LogVal → Bool
  | .nan => false | .inf s => s | .zero s => s | .fin s _ => s
/-- A NaN. -/
def LogVal.isNan : LogVal → Bool
  | .nan => true | _ => false
/-- An infinity. -/
def LogVal.isInf : LogVal → Bool
  | .inf _ => true | _ => false
/-- A zero. -/
def LogVal.isZero : LogVal → Bool
  | .zero _ => true | _ => false
/-- Finite and not zero. -/
def LogVal.isFin : LogVal → Bool
  | .fin .. => true | _ => false
/-- The log of a finite value. -/
def LogVal.log : LogVal → Int
  | .fin _ l => l | _ => 0

/-- The product of logarithmic operands (03 R90, R91). -/
def prodLog (l : List LogVal) : Nat × Flags :=
  let sg := l.foldl (fun b v => b != v.sign) false
  if l.any LogVal.isNan then (nan32, 0)
  else if l.any LogVal.isInf then (if l.any LogVal.isZero then (nan32, fIV) else (inf32 + sg32 sg, 0))
  else if l.any LogVal.isZero then (sg32 sg, 0)
  else antilog sg (l.foldl (fun a v => a + v.log) 0)

/-- What an operand brings to a pass: piece `i` for the pass on pieces `pr`, none where its valid bit is clear. Passes after a1b1 take
no part where an operand's first piece is zero, infinite or NaN, or where their own piece is zero (02 R79, R80). An operand stored with a
zero first piece and another piece that is not zero counts as zero (DESIGN CHOICE, log 35). -/
def Opd.onPass (d : Opd) (pr : Nat × Nat) (i : Nat) : Option Opd :=
  if pr == (0, 0) then some { d with p2 := 0, p3 := 0 }
  else if !(dec16 d.p1).isFin || (dec16 (d.piece i)).isZero then none
  else some { d with p1 := d.piece i, p2 := 0, p3 := 0, fl := 0 }

/-- The product of two fields of a pass under a mask, none where a valid bit is clear (03 R90-R92). -/
def pairProd (a w : Option Opd) (mask : List LogVal) : Option (Nat × Flags) :=
  match a, w with
  | some a, some w => some (prodLog (dec16 a.p1 :: dec16 w.p1 :: mask))
  | _, _ => none

/-- The product of a pass, none where its valid bit is clear (02 R79, R80). -/
def passProd (a w : Opd) (mask : List LogVal) (pr : Nat × Nat) : Option (Nat × Flags) :=
  pairProd (a.onPass pr pr.1) (w.onPass pr pr.2) mask

/-! ### Sums (04 R125-R129, R135-R137) -/

/-- The partial sum of one pass over a K-group: a tree for each cell, added down the chain (04 R125). -/
def passPart (f : AccFmt) (g : Nat) (ps : List (Option (Nat × Flags))) : Acc × Flags :=
  (chunksOf g (ps.length + 1) ps).foldl (fun (p : Acc × Flags) l =>
    let t := tree f (l.map fun v => match v with | some v => Acc.ofTerm v.1 | none => Acc.none)
    let r := addAcc f p.1 t.1
    (r.1, p.2 ||| t.2 ||| r.2)) (Acc.none, f0)

/-- One K-group of a log-path output from the products of its passes: the group and its report. `old` says whether an overflow of this
output has been reported (03 R102; 04 R125). -/
def logPasses (f : AccFmt) (g row col kg : Nat) (old : Bool) (a : Acc) (pss : List (List (Option (Nat × Flags)))) : Acc × Rep :=
  let r := pss.foldl (fun (r : Acc × Flags × Rep) ps =>
    let part := passPart f g ps
    let u := addAcc f r.1 part.1
    let rep := ps.foldl (fun q p => match p with | some v => q.and (Rep.of v.2 .array row col kg) | none => q) r.2.2
    (u.1, r.2.1 ||| part.2 ||| u.2, rep)) (a, f0, Rep.nil)
  let ofl := fIf (r.2.1 &&& fOF != 0 && !old) fOF ||| fIf (r.1.clash && !a.clash) fIV
  (r.1, (r.2.2.and (Rep.of ofl .accum row col kg)).and ⟨r.2.1, []⟩)

/-- One K-group of a log-path output from whole operands. -/
def logKg (f : AccFmt) (g split row col kg : Nat) (old : Bool) (a : Acc) (ts : List (Option (Opd × Opd × List LogVal))) :
    Acc × Rep :=
  logPasses f g row col kg old a ((passPairs split).map fun pr => ts.map fun t => t.bind fun t => passProd t.1 t.2.1 t.2.2 pr)

/-- The INT32 range. -/
def inInt32 (v : Int) : Bool := decide (-(2 ^ 31) ≤ v) && decide (v < 2 ^ 31)

/-- One K-group of an integer output under shift `r`: the exact sum, which may leave the range, and whether an activation
was rounded (04 R129, R135). -/
def intKg (r : Nat) (v : Int) (as ws : List (Option Opd)) : Int × Bool :=
  (as.zip ws).foldl (fun (a : Int × Bool) t => match t with
    | (some x, some w) => let k := rneShift x.i r; (a.1 + k.1 * w.i, a.2 || (k.2 && decide (r ≠ 0)))
    | _ => a) (v, false)

/-- The empty group. -/
def ArrOp.empty (o : ArrOp) : Group := if o.int then .int false 0 else .log Acc.none

/-- A fresh open set for tile `t` with shift `r` in a half (04 R131, R133, R136). -/
def ArrOp.fresh (o : ArrOp) (t r restarts : Nat) (half : Bool) : OpenSet :=
  let bx := o.box t
  ⟨t, 0, o.nkg, r, restarts, false, List.replicate (bx.nr * bx.nc) o.empty, Rep.nil, List.replicate bx.nr false,
   List.replicate bx.nc false, half⟩

/-! ### Streamed and stationary operands (05 R153-R157, R163, R165) -/

/-- The reduction indices of a K-group. -/
def ArrOp.ks (o : ArrOp) (kg : Nat) : List Nat := tab (min o.gk (o.k - kg * o.gk)) fun i => kg * o.gk + i

/-- One line of an operand over a K-group: an output row of the activation, or an output column of the weight. -/
def ArrOp.line (s : State) (x : Ctx) (o : ArrOp) (bx : TileBox) (kg : Nat) (weight : Bool) (r : Nat) : List (Option Opd) :=
  (o.ks kg).map fun k =>
    if weight then some (weightOpd s x o (o.weightElem bx k (bx.n0 + r)) (bx.n0 + r))
    else (o.actElem bx (bx.m0 + r) k).map (actOpd s x o)

/-- The lines that stream past the cells: weight columns in `INPUT` mode, else activation rows (05 R153). -/
def ArrOp.streams (o : ArrOp) (bx : TileBox) : Nat := if o.stat == 2 then bx.nc else bx.nr
/-- The lines of the other operand. -/
def ArrOp.stays (o : ArrOp) (bx : TileBox) : Nat := if o.stat == 2 then bx.nr else bx.nc

/-- The fields of a line on each pass; the streamed line's piece of a pass is that of its operand. -/
def ArrOp.onPasses (o : ArrOp) (weight : Bool) (l : List (Option Opd)) : List (List (Option Opd)) :=
  (passPairs o.split).map fun pr => l.map fun d => d.bind fun d => d.onPass pr (if weight then pr.2 else pr.1)

/-- A K-group's operands as the cells meet them: by line and then by pass, the activation rows and the weight columns. -/
structure KgOps where
  acts : List (List (List (Option Opd)))
  ws : List (List (List (Option Opd)))

/-- The operands of a K-group read straight from their tensors. -/
def ArrOp.kgOps (s : State) (x : Ctx) (o : ArrOp) (bx : TileBox) (kg : Nat) : KgOps :=
  ⟨tab bx.nr fun i => o.onPasses false (o.line s x bx kg false i), tab bx.nc fun j => o.onPasses true (o.line s x bx kg true j)⟩

/-- The report of conversions: an activation at its row and the set's first column, a weight at the set's first row and its column, each
once for the K-group (03 R102). -/
def feedRep (o : ArrOp) (bx : TileBox) (kg : Nat) (u : KgOps) : Rep :=
  let conv (row col : Nat) (l : List (List (Option Opd))) : Rep :=
    Rep.all ((l.headD []).map fun d => match d with | some d => Rep.of d.fl .feeder row col kg | none => Rep.nil)
  (Rep.all (u.acts.zipIdx.map fun r => conv (o.row0 bx + r.2) bx.n0 r.1)).and
    (Rep.all (u.ws.zipIdx.map fun c => conv (o.row0 bx) (bx.n0 + c.2) c.1))

/-- Some field of a line's first pass is poisoned. -/
def lineBad (l : List (List (Option Opd))) : Bool := (l.headD []).any fun d => match d with | some d => d.bad | none => false

/-- Runs the next K-group of an open set on its operands (04 R125, R129, R136; 12 R388). -/
def ArrOp.runKg (s : State) (x : Ctx) (o : ArrOp) (u : KgOps) (st : OpenSet) : OpenSet :=
  let bx := o.box st.tile
  let ks := o.ks st.kg
  let dp := match o.dec with
    | some t => decPos (tab o.k fun i => t.raw s x (bx.b * o.k + i) 0)
    | none => []
  let dz : DecPos := ⟨0, -1, -1, false⟩
  let masks := tab bx.nr fun i => ks.map fun k =>
    if o.kind == .dmm then [decayMask (dp.getD (bx.m0 + i) dz) (dp.getD k dz) k] else []
  let step (p : Group × Nat) : Group × Rep × Bool :=
    let i := p.2 / bx.nc
    let j := p.2 % bx.nc
    let as := u.acts.getD i []
    let ws := u.ws.getD j []
    let row := o.row0 bx + i
    let col := bx.n0 + j
    match p.1 with
    | .log a =>
      let old := st.rep.occs.any fun u => u.unit == .accum && u.row == row && u.col == col && u.fl &&& fOF != 0
      let pss := (as.zip ws).map fun q => ((q.1.zip q.2).zip (masks.getD i [])).map fun t => pairProd t.1.1 t.1.2 t.2
      let r := logPasses (if o.acc == 2 then .cf32 else .f32) o.g row col st.kg old a pss
      (.log r.1, r.2, false)
    | .int true v => (.int true v, Rep.nil, false)
    | .int false v =>
      let r := intKg st.shift v (as.headD []) (ws.headD [])
      (.int false r.1, ⟨fIf r.2 fIX, []⟩, !inInt32 r.1)
  let rs := st.groups.zipIdx.map step
  { st with
    kg := st.kg + 1
    satHit := rs.any fun r => r.2.2
    groups := rs.map fun r => r.1
    rep := (st.rep.and (feedRep o bx st.kg u)).and (Rep.all (rs.map fun r => r.2.1))
    rowBad := ((st.rowBad.zip u.acts).zipIdx).map fun r => r.1.1 || lineBad r.1.2 || (dp.getD (bx.m0 + r.2) dz).bad
    colBad := (st.colBad.zip u.ws).map fun c => c.1 || lineBad c.2 }

/-- A saturation event is resolved: a restart with a larger shift, or the limit in each group that left the range at the last
one. Answers the K-groups discarded, none when the set goes on (04 R136, R137, R139). -/
def ArrOp.resolve (o : ArrOp) (st : OpenSet) : OpenSet × Option Nat :=
  if st.shift < 4 then (o.fresh st.tile (st.shift + 1) (st.restarts + 1) st.half, some st.kg)
  else
    let bx := o.box st.tile
    let clamp (g : Group) : Group := match g with
      | .int false v => if inInt32 v then g else .int true (if v < 0 then -(2 ^ 31) else 2 ^ 31 - 1)
      | g => g
    let occ (p : Group × Nat) : Rep := match p.1 with
      | .int false v =>
        if inInt32 v then Rep.nil
        else Rep.of (fOF ||| fIX) .accum (o.row0 bx + p.2 / bx.nc) (bx.n0 + p.2 % bx.nc) (st.kg - 1)
      | _ => Rep.nil
    ({ st with
      satHit := false
      groups := st.groups.map clamp
      rep := st.rep.and (Rep.all (st.groups.zipIdx.map occ)) }, none)

/-- Runs an open set to its end; answers it with the K-groups discarded on the way. `fuel` bounds the K-groups of five
passes. -/
def ArrOp.runSet (s : State) (x : Ctx) (o : ArrOp) : Nat → OpenSet → Nat → OpenSet × Nat
  | 0, st, w => (st, w)
  | f + 1, st, w =>
    if st.satHit then let r := o.resolve st; ArrOp.runSet s x o f r.1 (w + r.2.getD 0)
    else if st.kg < st.nkg then ArrOp.runSet s x o f (o.runKg s x (o.kgOps s x (o.box st.tile) st.kg) st) w
    else (st, w)

/-! ### The output path (04 R138, R140-R143, R569) -/

/-- Stage 1 (04 R140): an FP32 value, and flags; IV and OF of a finished group have been reported where they arose, but for an
overflow of the final rounding (03 R102). -/
def outcome32 (g : Group) (r : Nat) : Nat × Flags :=
  match g with
  | .log a => let u := a.outcome; (u.1, if a.special then 0 else u.2)
  | .int _ v => Dy.to32 ⟨v, r⟩

/-- One drained output: its value in the form that stage 6 and 7 take, its poison, and its report (04 R140, R141). -/
def drainElem (s : State) (x : Ctx) (b : FnBank) (o : ArrOp) (st : OpenSet) (row col : Nat) (g : Group) (bad : Bool) :
    Lane × Rep :=
  let f := match o.y with | some t => t.fmt | none => .fp32
  let lastKg := o.nkg - 1
  match f, g with
  | .int32, .int _ v => ((unsgn 32 v, bad), Rep.nil)
  | .int32, .log a =>
    let v := Config.logToInt32 a.outcome.1
    let fl := if isNan32 a.outcome.1 || isInf32 a.outcome.1 then fIV else BitVec.ofNat 5 (fld v 32 5)
    ((fld v 0 32, bad), (Rep.of (a.outcome.2 &&& ~~~ (fIV ||| fOF)) .accum row col lastKg).and (Rep.of fl .output row col noKgrp))
  | .cf32, .log a =>
    if o.acc == 2 then
      let u := a.outcomeCf
      ((u.1.1 + u.1.2 <<< 32, bad), Rep.of (if a.special then 0 else u.2) .accum row col lastKg)
    else let u := outcome32 g 0; ((u.1, bad), Rep.of u.2 .accum row col lastKg)
  | _, _ =>
    let u := outcome32 g st.shift
    let r := o.form.apply s x b o.compat col (u.1, bad)
    let rep := Rep.all [Rep.of u.2 .accum row col lastKg, Rep.of r.2.1 .output row col noKgrp,
      Rep.of r.2.2.1 .sfu row col noKgrp, Rep.of r.2.2.2 .output row col noKgrp]
    match o.et with
    | none => (r.1, rep)
    | some t =>
      let e := t.vec s x false (row * o.n + col)
      let v := if o.elt == 1 then faddQ r.1.1 e.1 else fmul r.1.1 e.1
      ((v.1, r.1.2 || e.2.2), Rep.all [rep, Rep.of e.2.1 .output row col noKgrp, Rep.of v.2 .output row col noKgrp])

/-- Entries ranked by 03 R88, INT32 values by their value, equal ones by column. -/
def rankVals (int : Bool) (k : Nat) (l : List (Nat × Nat)) : List (Nat × Nat) :=
  let key (v : Nat) : Int := if int then sgn 32 v else rankKey false v
  (sortBy (fun (a b : Nat × Nat) => decide (key b.1 < key a.1) || (key a.1 == key b.1 && decide (a.2 < b.2))) l).take k

/-- The bytes of a list of `k` entries of value and position, filled with +0 and 0xFFFFFFFF (04 R142, R143; 13 R414). -/
def listBytes (k : Nat) (l : List (Nat × Nat)) : List Byte :=
  (tab k fun i => l.getD i (0, 0xFFFFFFFF)).flatMap fun e => leBytes 4 e.1 ++ leBytes 4 e.2

/-- What has drained of an operation: LOG8 values held, partial lists held, and the number of tiles drained. -/
structure Drained where
  vals : List (Nat × Nat × Bool)
  ranks : List (Nat × Nat × Nat × Bool)
  count : Nat
  deriving DecidableEq, Repr

/-- The blocks of a LOG8 output that a tile completes, with their writes and flags; the values still held (04 R569). A block
stays held while top-k lists may need its codes. -/
def closeBlocks (s : State) (x : Ctx) (t : Tensor) (keep : Bool) (held new : List (Nat × Nat × Bool)) :
    List Wr × Rep × List (Nat × Nat × Bool) :=
  let all := held ++ new
  let blk (e : Nat × Nat × Bool) : Nat × Nat := (e.1 / t.d0, e.1 % t.d0 / 32)
  let bs := (new.map blk).eraseDups
  bs.foldl (fun acc b =>
    let mine := all.filter fun e => blk e == b
    if mine.length != min 32 (t.d0 - 32 * b.2) then acc
    else
      let l := sortBy (fun (p q : Nat × Nat × Bool) => decide (p.1 < q.1)) mine
      let w := t.putLog8 s x b.1 (32 * b.2) (l.map Prod.snd)
      (acc.1 ++ w.1, acc.2.1.and (rowRep .output b.1 (32 * b.2) noKgrp w.2),
        if keep then acc.2.2 else acc.2.2.filter fun e => blk e != b)) ([], Rep.nil, all)

/-- The code of a ranked value in the output format (13 R414). -/
def finalCode (o : ArrOp) (held : List (Nat × Nat × Bool)) (row : Nat) (e : Nat × Nat) : Nat :=
  match o.y with
  | none => e.1
  | some t =>
    match t.fmt with
    | .int32 => e.1
    | .log8 =>
      let l := held.filter fun h => h.1 / t.d0 == row && h.1 % t.d0 / 32 == e.2 / 32
      let sc := log8Scale (l.map fun h => h.2.1)
      (log16To8 (t.enc e.1).1 sc).1
    | _ => (t.enc e.1).1

/-- The writes of the top-k lists that a drained tile gives: its partial lists, and after the last tile the final ones, with
their poisoned entries (04 R142, R143; 13 R414). -/
def topWrites (o : ArrOp) (bx : TileBox) (k reg : Nat) (d : Drained) (last : Bool) (rows : List (Nat × List (Nat × Lane))) :
    List Wr × Nat :=
  let int := match o.y with | some t => t.fmt == .int32 | none => false
  let wr (a : Nat) (b : List Byte) (bad : Bool) : Wr := ⟨.t1, a, b, b.map fun _ => bad, 64, 0⟩
  let part := rows.map fun r =>
    wr (reg + 8 * k * (o.allRows + r.1 * o.colTiles + bx.ct))
      (listBytes k (rankVals int k (r.2.map fun e => (e.2.1, e.1)))) (r.2.any fun e => e.2.2)
  if !last then (part, 0)
  else
    let fin := tab o.allRows fun row =>
      let l := d.ranks.filter fun e => e.1 == row
      let top := rankVals int k (l.map fun e => (e.2.1, e.2.2.1))
      (wr (reg + 8 * k * row) (listBytes k (top.map fun e => (finalCode o d.vals row e, e.2))) (l.any fun e => e.2.2.2),
       l.any fun e => e.2.2.2)
    (part ++ fin.map Prod.fst, k * (fin.filter Prod.snd).length)

/-- Drains a finished open set into an output tile (04 R131, R138, R140-R143, R569; 14 R458). -/
def ArrOp.drain (s : State) (x : Ctx) (o : ArrOp) (core : Nat) (d : Drained) (st : OpenSet) : Tile × Drained :=
  let bx := o.box st.tile
  let b := fnBank s
  let es := st.groups.zipIdx.map fun g =>
    let i := g.2 / bx.nc
    let j := g.2 % bx.nc
    drainElem s x b o st (o.row0 bx + i) (bx.n0 + j) g.1 (st.rowBad.getD i false || st.colBad.getD j false)
  let rows := tab bx.nr fun i => (o.row0 bx + i, ((es.drop (i * bx.nc)).take bx.nc).map Prod.fst)
  let rep := st.rep.and (Rep.all (es.map Prod.snd))
  let badN := ((es.map Prod.fst).filter Prod.snd).length
  let elem (row j : Nat) : Nat := row * o.n + bx.n0 + j
  let last := d.count + 1 == o.tiles
  let d1 : Drained := { d with
    count := d.count + 1
    ranks := if o.topk.isSome then d.ranks ++ rows.flatMap fun r => r.2.zipIdx.map fun e => (r.1, e.1.1, bx.n0 + e.2, e.1.2)
      else d.ranks }
  let out : List Wr × Rep × List (Nat × Nat × Bool) := match o.y with
    | none => ([], Rep.nil, d1.vals)
    | some t =>
      if o.reduce then ([], Rep.nil, d1.vals)
      else if t.fmt == .log8 then
        let cs := rows.flatMap fun r => r.2.zipIdx.map fun v => ((elem r.1 v.2, (t.enc v.1.1).1, v.1.2), (t.enc v.1.1).2, r.1, v.2)
        let k := closeBlocks s x t o.topk.isSome d1.vals (cs.map Prod.fst)
        (k.1, (Rep.all (cs.map fun v => Rep.of v.2.1 .output v.2.2.1 (bx.n0 + v.2.2.2) noKgrp)).and k.2.1, k.2.2)
      else if t.fmt == .int32 || t.fmt == .cf32 then
        (rows.flatMap fun r => t.putRow s x r.1 bx.n0 0 r.2 ++
          (if t.fmt == .int32 && o.int then
            t.putAux s x (2 * t.count) (2 * elem r.1 0) (r.2.flatMap fun _ => leBytes 2 (0x4000 + 0x80 * st.shift))
              (r.2.flatMap fun v => [v.2, v.2]) 16
           else []), Rep.nil, d1.vals)
      else
        let ws := rows.map fun r => (r.1, t.emit s x r.1 bx.n0 r.2)
        (ws.flatMap fun w => w.2.1, Rep.all (ws.map fun w => rowRep .output w.1 bx.n0 noKgrp w.2.2), d1.vals)
  let d2 : Drained := { d1 with vals := out.2.2 }
  let tw := match o.topk with
    | none => ([], 0)
    | some (k, reg) => topWrites o bx k reg d2 last (rows.map fun (r : Nat × List Lane) => (r.1, r.2.zipIdx.map fun (v : Lane × Nat) => (bx.n0 + v.2, v.1)))
  let lost := match o.y with
    | none => 0
    | some t => unassured t (rows.flatMap fun r => (List.range bx.nc).map fun j => elem r.1 j)
  let con := if o.reduce then rows.flatMap fun r => r.2.zipIdx.map fun v => (elem r.1 v.2, v.1.1, v.1.2) else []
  (⟨st.tile, st.tile, out.1 ++ tw.1, rep.and out.2.1, (if o.y.isSome && !o.reduce then badN else 0) + tw.2 + lost, core, 0, 0, 0, 0,
    con, 0, 0, st.tile, []⟩, d2)

/-- The elements that a tile needs of each tensor whose walk may have broken off (12 R376). -/
def ArrOp.needs (o : ArrOp) (t : Nat) : List (Tensor × Nat) :=
  let bx := o.box t
  let ms := tab bx.nr fun i => bx.m0 + i
  let ns := tab bx.nc fun j => bx.n0 + j
  let ks := List.range o.k
  let outs := ms.flatMap fun m => ns.map fun n => (bx.b * o.m + m) * o.n + n
  (ms.flatMap fun m => ks.filterMap fun k => (o.actElem bx m k).map fun e => (o.a, e)) ++
    (ns.flatMap fun n => ks.map fun k => (o.w, o.weightElem bx k n)) ++
    (match o.dec with | some t => ks.map fun k => (t, bx.b * o.k + k) | none => []) ++
    (o.y.toList ++ o.et.toList).flatMap fun t => outs.map fun e => (t, e)

/-- The tiles of the item that starts with tile `t`: four in Q16, else one (05 R152). -/
def ArrOp.itemOf (o : ArrOp) (total t : Nat) : List Nat :=
  if o.shape == 1 then (tab 4 fun i => t + i).filter fun u => decide (u < total) else [t]
/-- The first tiles of the items of an operation that makes tiles 0 to `n - 1` (05 R152). -/
def ArrOp.items (o : ArrOp) (n : Nat) : List Nat := if o.shape == 1 then tab (cdiv n 4) (4 * ·) else List.range n

/-- What each item of an operation reads. -/
def ArrOp.parts (o : ArrOp) (x : Ctx) : List Part :=
  (o.items o.tiles).map fun t =>
    let ts := o.itemOf o.tiles t
    { unit := t, core := t % Config.cores
      elems := (ts.flatMap fun u => (o.needs u).filter fun p => some p.1 != o.y) ++
        (o.form.bias.toList ++ (o.form.scale.map Prod.fst).toList).flatMap Tensor.all
      runs := ts.flatMap fun u => let bx := o.box u; o.scaleRuns x bx.n0 bx.nc }

/-- The first tile that needs what a broken walk does not give, with the violation (12 R376). -/
def ArrOp.firstBad (s : State) (x : Ctx) (o : ArrOp) : Option (Nat × (Nat × Nat × Nat)) :=
  if (o.ins ++ o.y.toList).all fun t => !t.list || t.lost || t.bytes == t.dense then none
  else (List.range o.tiles).findSome? fun t => (missing s x (o.needs t)).map fun f => (t, f)

/-- All tiles of an operation run in order at once, as a program entry does, each with its restarts and the K-groups that they
discarded (04 R139). -/
def ArrOp.runAll (s : State) (x : Ctx) (o : ArrOp) (core : Nat) : List Tile :=
  ((List.range o.tiles).foldl (fun (acc : List Tile × Drained) t =>
    let u := o.runSet s x (6 * o.nkg + 6) (o.fresh t 0 0 false) 0
    let d := o.drain s x core acc.2 u.1
    (acc.1 ++ [{ d.1 with
      retry := u.1.restarts
      discard := u.2 }], d.2)) ([], ⟨[], [], 0⟩)).1

/-- The `ROUND` field of an array entry: 1 staged, 2 conveyor (13 R413). -/
def roundOf (c : List Byte) : Nat := if opOf c == 1 then fld (bw c 4) 20 2 else 0

/-- An array entry as a prepared piece of work. Weights that come on the weight round are no stream of the member (13 R418). -/
def prepArrayEntry (s : State) (x : Ctx) (c : List Byte) : Except Bad Prep := do
  let o ← prepArray s x c
  let own (p : Part) : Part := { p with elems := p.elems.filter fun q => q.1 != o.w }
  return ⟨o.ins, o.y.toList, if roundOf c == 0 then o.parts x else (o.parts x).map own, fun s =>
    match o.firstBad s x with
    | some f => ([], some f.2)
    | none => (o.runAll s x 0, none)⟩

end Sys2Proof.Machine
end

