-- ==== Sys2Proof/Machine/Seam.lean ====
section
/-! DEFINITION. Recurrences: the sequential step, the chunked scan, seam carries and their poison (06 R181-R214; 13 R416). -/
namespace Sys2Proof.Machine

/-- Recurrence forms (06 R181). -/
inductive Recur where
  | lin | gate | cell | ssm
  deriving DecidableEq, Repr

/-- A checked recurrence: its form, tensors and extents. `seqs` sequences of `len` positions over `d` channels, in `h` heads with
`ns` state rows for SSM; chunks of `c` positions when `chunked`. `hd` is the number of decays per position. -/
structure ScanOp where
  form : Recur
  chunked : Bool
  acc : Nat
  c : Nat
  carry : Nat
  dec : Tensor
  u : Tensor
  v : Option Tensor
  w : Option Tensor
  init : Option Tensor
  out : Tensor
  fin : Option Tensor
  seqs : Nat
  len : Nat
  d : Nat
  h : Nat
  ns : Nat
  hd : Nat
  deriving DecidableEq, Repr

/-! ### Checks (06 R181-R183, R197; 13 R416) -/

/-- The form of a code. -/
def recurOf : Nat → Option Recur
  | 0 => some .lin | 1 => some .gate | 2 => some .cell | 3 => some .ssm | _ => none

/-- The checks of a SCAN body; `x.prog` marks the Seam entry of a layer program (13 R416, R417). -/
def prepScan (s : State) (x : Ctx) (c : List Byte) : Except Bad ScanOp := do
  let list := bw c 0
  let ctl := bw c 2
  check (list != 0 && list % 64 == 0) (badField 0x10)
  let e (i : Nat) : Nat := s.rd (list + 8 * i) 8
  let in' (u : Use) (i : Nat) : Except Bad Tensor := if fld (e i) 0 48 == 0 then .error (badRef list) else tensor s x u (fld (e i) 0 48)
  match recurOf (fld ctl 0 3) with
  | none => .error (badField 0x20)
  | some form =>
    let chan := bit ctl 3
    let chunked := !bit ctl 10
    let acc := fld ctl 8 2
    check ((form == .ssm || chan) && (!chunked || (decide (fld ctl 4 4 ≤ 10) && (form == .lin || form == .cell || (form == .ssm && !chan)))))
      (badField 0x20)
    check ((acc == 1 || acc == 2) && !(x.prog && (chunked || bit ctl 52))) (badField 0x21)
    check ((tab 8 e).all fun r => fld r 48 16 == 0) (badRef list)
    check (e 7 == 0) (badRef list)
    let dec ← if form == .gate then in' .vin 0 else in' .decay 0
    check (form != .gate || dec.fmt == .fp32) (badRef (e 0))
    check (!chunked || dec.fmt == .dlog32) (badRef (e 0))
    let u ← in' .vin 1
    let two := form == .cell || form == .ssm
    let v ← if two then (in' .vin 2).map some else .ok none
    let w ← if form == .ssm then (in' .vin 3).map some else .ok none
    check ((two || e 2 == 0) && (form == .ssm || e 3 == 0)) (badRef list)
    let init ← tensorOpt s x .state (e 4)
    let out ← in' .vout 5
    let fin ← tensorOpt s x .state (e 6)
    let d := u.d0
    let len := u.d1
    let seqs := u.d2
    check (u.d3 == 1 && decide (d ≤ 65536) && decide (len ≤ 4194304) && decide (seqs ≤ 4096)) (badRef (e 1))
    let h := match form, v with | .ssm, some v => v.d1 | _, _ => d
    let ns := match form, v with | .ssm, some v => v.d0 | _, _ => 1
    let hd := if chan then d else h
    check (dec.dims == [hd, len, seqs, 1]) (badRef (e 0))
    check (out.dims == u.dims) (badRef (e 5))
    check (form != .cell || (match v with | some v => v.dims == u.dims | none => false)) (badRef (e 2))
    check (form != .ssm || (d % h == 0 && decide (h ≤ 1024) && decide (ns ≤ 256) &&
      [v, w].all fun t => match t with | some t => t.dims == [ns, h, len, seqs] | none => false)) (badRef (e 2))
    let sd := if form == .ssm then [d, ns, seqs, 1] else [d, seqs, 1, 1]
    check ([init, fin].all fun t => match t with | some t => t.dims == sd | none => true) (badRef (e 4))
    let inState (t : Option Tensor) : Bool := match t with | some t => t.space == 2 | none => true
    check (!x.prog || (fin.isNone && inState init && init.isSome && seqs == 1)) (badRef (e 4))
    check (!bit ctl 52 || (seqs == 1 && inState init && inState fin)) (badRef (e 4))
    return {
      form := form
      chunked := chunked
      acc := acc
      c := 64 * 2 ^ fld ctl 4 4
      carry := bw c 1
      dec := dec
      u := u
      v := v
      w := w
      init := init
      out := out
      fin := if x.prog then init else fin
      seqs := seqs
      len := len
      d := d
      h := h
      ns := ns
      hd := hd }

/-- The tensors that a recurrence reads. -/
def ScanOp.ins (o : ScanOp) : List Tensor := [o.dec, o.u] ++ o.v.toList ++ o.w.toList ++ o.init.toList
/-- State elements of one sequence: `i * d + n` is row `i`, channel `n`. -/
def ScanOp.size (o : ScanOp) : Nat := o.ns * o.d
/-- The decay of a channel. -/
def ScanOp.decCol (o : ScanOp) (n : Nat) : Nat := if o.hd == o.d then n else n / (o.d / o.h)
/-- The head of a channel. -/
def ScanOp.head (o : ScanOp) (n : Nat) : Nat := n / (o.d / o.h)
/-- The output row of position `t` of sequence `q`. -/
def ScanOp.row (o : ScanOp) (q t : Nat) : Nat := q * o.len + t

/-! ### Values -/

/-- The flags of operations at an output element of the Seam unit. -/
def seamRep (row col : Nat) (fl : List Flags) : Rep := Rep.all (fl.map fun f => Rep.of f .seam row col noKgrp)

/-- The elements of row `row` of an input, converted to FP32 on entry, with the flags of each (06 R182). -/
def seamRow (s : State) (x : Ctx) (t : Tensor) (row : Nat) : List (Lane × Flags) :=
  tab t.d0 fun n => let v := t.vec s x false (row * t.d0 + n); ((v.1, v.2.2), v.2.1)

/-- The report of converted elements: element `i` is charged to column `col i`. -/
def convRep (row : Nat) (col : Nat → Nat) (l : List (Lane × Flags)) : Rep :=
  Rep.all (l.zipIdx.map fun v => Rep.of v.1.2 .seam row (col v.2) noKgrp)

/-- The format in which the state is kept from step to step: the final state's, else the initial state's (06 R192, DEDUCED, log 22). -/
def ScanOp.stateFmt (o : ScanOp) : Fmt :=
  match o.fin, o.init with
  | some t, _ => t.fmt
  | none, some t => t.fmt
  | none, none => .fp32

/-- A state element in its format, and back (06 R192). -/
def toState (f : Fmt) (v : Nat) : Nat × Flags := if f == .log16 then f32ToLog16 v else (v, 0)
/-- A stored state element as FP32. -/
def ofState (f : Fmt) (c : Nat) : Nat × Flags := if f == .log16 then log16To32 c else (c, 0)

/-- The initial state of sequence `q` as FP32, with the flags of each element's conversion. -/
def initState (s : State) (x : Ctx) (o : ScanOp) (q : Nat) : List (Lane × Flags) :=
  match o.init with
  | none => List.replicate o.size ((0, false), 0)
  | some t => tab o.size fun k =>
    let c := t.raw s x (q * o.size + k) 0
    let v := ofState t.fmt c.1
    ((v.1, c.2), v.2)

/-- The writes of a final state of sequence `q`, given as FP32, with the flags of each element (06 R192). -/
def finalWrites (s : State) (x : Ctx) (o : ScanOp) (q : Nat) (h : List Lane) : List Wr × List Flags :=
  match o.fin with
  | none => ([], [])
  | some t =>
    let cs := h.map fun v => (toState t.fmt v.1, v.2)
    let rows := chunksOf o.d (o.ns + 1) cs
    (rows.zipIdx.flatMap fun r => t.putRow s x (q * o.ns + r.2) 0 0 (r.1.map fun c => (c.1.1, c.2)), cs.map fun c => c.1.2)

/-! ### Sequential mode (06 R184, R185, R189-R192) -/

/-- One position of a recurrence over the state: the next state, the outputs, and the report (06 R184). -/
def seqPosition (s : State) (x : Ctx) (o : ScanOp) (q t : Nat) (st : List Lane) : List Lane × List Lane × Rep :=
  let row := o.row q t
  let z := seamRow s x o.dec row
  let u := seamRow s x o.u row
  let dz : Lane × Flags := ((0, false), 0)
  let at' (l : List (Lane × Flags)) (i : Nat) : Lane := (l.getD i dz).1
  let cv := (convRep row (fun i => if o.hd == o.d then i else i * (o.d / o.h)) z).and (convRep row id u)
  match o.form with
  | .ssm =>
    let line (t' : Option Tensor) (hh : Nat) : List (Lane × Flags) :=
      match t' with
      | none => []
      | some b => tab o.ns fun i => let e := b.vec s x false ((row * o.h + hh) * o.ns + i); ((e.1, e.2.2), e.2.1)
    let bs := tab o.h (line o.v)
    let cs := tab o.h (line o.w)
    let cvh := Rep.all ((bs ++ cs).zipIdx.map fun l => convRep row (fun _ => l.2 % o.h * (o.d / o.h)) l.1)
    let chan (n : Nat) : List Lane × Lane × Rep :=
      let b := bs.getD (o.head n) []
      let c := cs.getD (o.head n) []
      let a := at' z (o.decCol n)
      let xn := at' u n
      (List.range o.ns).foldl (fun (acc : List Lane × Lane × Rep) i =>
        let h := st.getD (i * o.d + n) (0, false)
        let v := fmul (at' b i).1 xn.1
        let h' := ffmaQ a.1 h.1 v.1
        let hb := h.2 || a.2 || xn.2 || (at' b i).2
        let y := if i == 0 then fmul (at' c i).1 h'.1 else ffmaQ (at' c i).1 h'.1 acc.2.1.1
        (acc.1 ++ [(h'.1, hb)], (y.1, acc.2.1.2 || hb || (at' c i).2), acc.2.2.and (seamRep row n [v.2, h'.2, y.2])))
        ([], (0, false), Rep.nil)
    let cols := tab o.d chan
    (tab o.size fun k => ((cols.getD (k % o.d) ([], (0, false), Rep.nil)).1.getD (k / o.d) (0, false)),
      cols.map fun c => c.2.1, Rep.all (cv :: cvh :: cols.map fun c => c.2.2))
  | f =>
    let g := match o.v with | some b => seamRow s x b row | none => []
    let es := tab o.d fun n =>
      let a := at' z n
      let h := st.getD n (0, false)
      let i := at' u n
      let r : Nat × List Flags := match f with
        | .gate =>
          let w := fsubQ one32 a.1
          let v := fmul w.1 i.1
          let h' := ffmaQ a.1 h.1 v.1
          (h'.1, [w.2, v.2, h'.2])
        | .cell =>
          let v := fmul i.1 (at' g n).1
          let h' := ffmaQ a.1 h.1 v.1
          (h'.1, [v.2, h'.2])
        | _ => let h' := ffmaQ a.1 h.1 i.1; (h'.1, [h'.2])
      ((r.1, h.2 || a.2 || i.2 || (at' g n).2), seamRep row n r.2)
    (es.map Prod.fst, es.map Prod.fst, Rep.all (cv :: convRep row id g :: es.map Prod.snd))

/-- The poisoned elements of a list. -/
def badCount (l : List Lane) : Nat := (l.filter Prod.snd).length

/-- One position's tile, the state after it, and that state as the next position reads it (06 R192, R203). -/
def seqTile (s : State) (x : Ctx) (o : ScanOp) (q t : Nat) (st : List Lane) (pre : Rep) : Tile × List Lane × List Lane :=
  let row := o.row q t
  let f := o.stateFmt
  let r := seqPosition s x o q t st
  let stored := r.1.map fun h => let c := toState f h.1; let b := ofState f c.1; ((b.1, h.2), c.2, b.2)
  let last := t + 1 == o.len
  let w := o.out.emit s x row 0 r.2.1
  let stRep := Rep.all (stored.zipIdx.map fun v => seamRep row (v.2 % o.d) (if last then [v.1.2.1] else [v.1.2.1, v.1.2.2]))
  (⟨row, row, w.1, Rep.all [pre, r.2.2, rowRep .seam row 0 noKgrp w.2, stRep],
      badCount r.2.1 + unassured o.out (tab o.d fun n => row * o.d + n), q * Config.cores / o.seqs, 0, 0, 0, 0, [], 0, 0, q,
      if t == 0 then [(q * Config.cores / o.seqs, true)] else []⟩, r.1, stored.map Prod.fst)

/-- The final states go out with the last tile (06 R213). -/
def addFinals (s : State) (x : Ctx) (o : ScanOp) (finals : List (Nat × List Lane)) (t : Tile) : Tile :=
  { t with
    wr := t.wr ++ finals.flatMap fun f => (finalWrites s x o f.1 f.2).1
    poison := t.poison + if o.fin.isSome then (finals.map fun f => badCount f.2).foldl (· + ·) 0 else 0 }

/-- A scan that runs position by position: tiles, the final states found, the state, and where a walk broke. -/
structure SeqRun where
  tiles : List Tile
  finals : List (Nat × List Lane)
  st : List Lane
  fail : Option (Nat × Nat × Nat)

/-- The elements that output row `r` needs of each tensor whose walk may have broken off (12 R376). -/
def ScanOp.needs (o : ScanOp) (r : Nat) : List (Tensor × Nat) :=
  let line (t : Tensor) (k : Nat) : List (Tensor × Nat) := tab k fun i => (t, r * k + i)
  line o.u o.d ++ line o.out o.d ++ line o.dec o.hd ++
    (o.v.toList ++ o.w.toList).flatMap fun t => line t (if o.form == .ssm then o.h * o.ns else o.d)
/-- The elements that a scan needs of its initial states and, with its last tile, of its final states (12 R376). -/
def ScanOp.stateNeeds (o : ScanOp) (init last : Bool) (q : Nat) : List (Tensor × Nat) :=
  (if init then o.init.toList.flatMap fun t => tab o.size fun k => (t, q * o.size + k) else []) ++
    (if last then o.fin.toList.flatMap fun t => tab (o.seqs * o.size) fun k => (t, k) else [])

/-- The tiles of a sequential scan in order until a walk breaks (06 R203, 12 R376). -/
def seqTiles (x : Ctx) (o : ScanOp) (s : State) : List Tile × Option (Nat × Nat × Nat) :=
  let r := (List.range (o.seqs * o.len)).foldl (fun (acc : SeqRun) k =>
    let q := k / o.len
    let t := k % o.len
    match acc.fail, missing s x (o.needs k ++ o.stateNeeds (t == 0) (k + 1 == o.seqs * o.len) q) with
    | some f, _ => { acc with fail := some f }
    | none, some f => { acc with fail := some f }
    | none, none =>
      let x := { x with core := q * Config.cores / o.seqs }
      let i := if t == 0 then initState s x o q else []
      let st := if t == 0 then i.map Prod.fst else acc.st
      let u := seqTile s x o q t st (Rep.all (i.zipIdx.map fun v => seamRep k (v.2 % o.d) [v.1.2]))
      ⟨acc.tiles ++ [u.1], if t + 1 == o.len then acc.finals ++ [(q, u.2.1)] else acc.finals, u.2.2, none⟩) ⟨[], [], [], none⟩
  match r.fail, r.tiles.reverse with
  | none, t :: ts => ((addFinals s x o r.finals t :: ts).reverse, none)
  | f, _ => (r.tiles, f)

/-! ### Chunked mode (06 R197-R208) -/

/-- Chunks of a sequence. -/
def ScanOp.chunks (o : ScanOp) : Nat := cdiv o.len o.c
/-- Positions of chunk `c`. -/
def ScanOp.chunkLen (o : ScanOp) (c : Nat) : Nat := min o.c (o.len - c * o.c)
/-- The home core of a chunk (01 Work item kinds). -/
def ScanOp.home (o : ScanOp) (c : Nat) : Nat := c * Config.cores / o.chunks
/-- Spans of a sequence: the chunks with one home core (06 R204). -/
def ScanOp.spans (o : ScanOp) : List (List Nat) :=
  let cs := List.range o.chunks
  ((cs.map o.home).eraseDups).map fun k => cs.filter fun c => o.home c == k

/-- A carry or summary element: empty, or a value, with its poison. -/
abbrev Hel := Option Nat × Bool

/-- Applies a wide factor to an element with an addend (06 R188, R204): the element, its flags, and drops. -/
def applyH (w : Wide) (h : Hel) (a : Lane) : Hel × Flags × Nat :=
  match h.1 with
  | none => ((some a.1, h.2 || a.2), 0, 0)
  | some v => let r := applyWide w v (some a.1); ((some r.val, h.2 || a.2), r.flags, b2n r.drop)

/-- What the local pass leaves of a chunk: the chunk log at its positions by decay with its poison, the local outputs by position
and channel, the summary of each state element, the reports and the drops. -/
structure LocalPass where
  logs : List (List (DecAcc × Bool))
  loc : List (List Lane)
  sum : List Lane
  rep : Rep
  floor : Nat

/-- The decay accumulators after each of some decays (06 R198). -/
def chunkLogs (ds : List (Nat × Bool)) : List (DecAcc × Bool) :=
  (ds.foldl (fun (acc : List (DecAcc × Bool) × DecAcc × Bool) d =>
    let a := acc.2.1.add d.1
    let b := acc.2.2 || d.2
    (acc.1 ++ [(a, b)], a, b)) ([], DecAcc.zero, false)).1

/-- The state of a LIN or CELL local pass of one channel (06 R199). -/
structure PassSt where
  lam : DecAcc
  b : Acc
  n : Int
  bad : Bool
  out : List Lane
  flags : List (List Flags)
  floor : Nat

/-- One position of the local pass of a channel: decay `d`, input `u` (06 R199, R200). Infinities of both signs raise IV at the position
where they first meet, once for the group (DEDUCED, log 37). -/
def passStep (p : PassSt) (d : Nat × Bool) (u : Lane) : PassSt :=
  let lam := p.lam.add d.1
  let z : Acc × Flags :=
    if d.1 == dlZero && !p.b.empty then
      (if p.b.special then (let r := p.b.scale .zero; (r.1, r.2.1)) else (Acc.none, f0))
    else (p.b, f0)
  let b1 : Acc := if d.1 == dlInvalid then
      { (if z.1.empty then (⟨false, false, false, false, 0, 0⟩ : Acc) else z.1) with
        nan := true
        s := 0
        e := 0 }
    else z.1
  let n := lam.lam / 2 ^ 24
  let phi := lam.lam % 2 ^ 24
  let sc : Acc × Flags × Bool :=
    if n == p.n || b1.empty then (b1, 0, false) else b1.scale (.ord ((n - p.n) * 2 ^ 24))
  let b2 := if sc.2.2 then Acc.none else sc.1
  let term := applyWide (.ord (-phi)) u.1 none
  let b3 := cadd b2 (if term.drop then Acc.none else Acc.ofTerm term.val)
  let l : Nat × Flags :=
    if b3.1.empty then b3.1.outcome
    else if b3.1.special then (b3.1.outcome.1, fIf (b3.1.clash && !p.b.clash) fIV)
    else
      let e := applyWide (.ord phi) b3.1.e none
      let r := applyWide (.ord phi) b3.1.s (some (if e.drop then 0 else e.val))
      (r.val, r.flags)
  let bad := p.bad || d.2 || u.2
  ⟨lam, b3.1, n, bad, p.out ++ [(l.1, bad)], p.flags ++ [[z.2, sc.2.1, term.flags, b3.2, l.2]],
    p.floor + b2n sc.2.2 + b2n term.drop⟩

/-- A lane before the first position of a chunk (06 R199). -/
def PassSt.start : PassSt := ⟨DecAcc.zero, Acc.none, 0, false, [], [], 0⟩

/-- The inputs of the positions of a chunk of LIN or CELL, by channel, with their reports (06 R199). -/
def linInputs (s : State) (x : Ctx) (o : ScanOp) (q c : Nat) : List (List Lane × Rep) :=
  tab (o.chunkLen c) fun i =>
    let row := o.row q (c * o.c + i)
    let u := seamRow s x o.u row
    match o.v with
    | none => (u.map Prod.fst, convRep row id u)
    | some b =>
      let g := seamRow s x b row
      let m := (u.zip g).map fun p => let r := fmul p.1.1.1 p.2.1.1; ((r.1, p.1.1.2 || p.2.1.2), r.2)
      (m.map Prod.fst, Rep.all [convRep row id u, convRep row id g, convRep row id m])

/-- The local pass of LIN and CELL over a chunk (06 R199). -/
def linPass (s : State) (x : Ctx) (o : ScanOp) (q c : Nat) : LocalPass :=
  let t0 := c * o.c
  let n := o.chunkLen c
  let rows := tab n fun i => o.row q (t0 + i)
  let us := linInputs s x o q c
  let chan := tab o.d fun k =>
    let ds := rows.map fun row => o.dec.raw s x (row * o.d + k) 0
    let ins := us.map fun u => u.1.getD k (0, false)
    let r := (ds.zip ins).foldl (fun p z => passStep p z.1 z.2) .start
    (r, chunkLogs ds)
  let rep := Rep.all (us.map Prod.snd ++ chan.zipIdx.flatMap fun p => p.1.1.flags.zipIdx.map fun f =>
    seamRep (o.row q (t0 + f.2)) p.2 f.1)
  ⟨tab n fun i => chan.map fun p => p.2.getD i (DecAcc.zero, false),
   tab n fun i => chan.map fun p => p.1.out.getD i (0, false),
   chan.map fun p => p.1.out.getLastD (0, false), rep, (chan.map fun p => p.1.floor).foldl (· + ·) 0⟩

/-- A sum on the array in `A32` with g = 16: its outcome and report (06 R571, 04 R125). -/
def arrSum (acc row col : Nat) (ts : List (Option (Opd × Opd × List LogVal))) : Nat × Rep :=
  let f := if acc == 2 then AccFmt.cf32 else .f32
  let gs := chunksOf 512 (ts.length + 1) ts
  let r := gs.zipIdx.foldl (fun (a : Acc × Rep) g =>
    let old := a.2.occs.any fun u => u.unit == .accum && u.fl &&& fOF != 0
    let k := logKg f 16 0 row col g.2 old a.1 g.1
    (k.1, a.2.and k.2)) (Acc.none, Rep.nil)
  let u := r.1.outcome
  (u.1, r.2.and (Rep.of (if r.1.special then 0 else u.2) .accum row col (gs.length - 1)))

/-- FP32 values entering the array as LOG16, charged to an element and K-group (06 R571, 02 R66). -/
def enter (row col kg : Nat) (v : Nat) : Opd × Rep :=
  let c := f32ToLog16 v
  (Opd.one c false, Rep.of c.2 .feeder row col kg)
/-- An element of a tensor entering the array: its whole conversion is one occurrence (03 R102; 06 R571). -/
def enterElem (row col kg : Nat) (v : Lane × Flags) : Opd × Rep :=
  let c := f32ToLog16 v.1.1
  (Opd.one c false, Rep.of (v.2 ||| c.2) .feeder row col kg)

/-- The array phases 1 to 5 of a chunk of SSM (06 R198, R201, R571). `loc` is y_intra and `sum` the chunk-end state. -/
def ssmPass (s : State) (x : Ctx) (o : ScanOp) (q c : Nat) : LocalPass :=
  let t0 := c * o.c
  let n := o.chunkLen c
  let w := o.d / o.h
  let row (i : Nat) : Nat := o.row q (t0 + i)
  let xs := tab n fun i => seamRow s x o.u (row i)
  let line (t' : Option Tensor) (i hh : Nat) : List (Lane × Flags) :=
    match t' with
    | none => []
    | some b => tab o.ns fun k => let e := b.vec s x false ((row i * o.h + hh) * o.ns + k); ((e.1, e.2.2), e.2.1)
  let heads := tab o.h fun hh =>
    let c0 := hh * w
    let ds := tab n fun i => o.dec.raw s x (row i * o.h + hh) 0
    let logs := chunkLogs ds
    let dp := decPos ds
    let dz : DecPos := ⟨0, -1, -1, false⟩
    let bs := tab n fun i => line o.v i hh
    let cs := tab n fun i => line o.w i hh
    let ent (i : Nat) (l : List (Lane × Flags)) : List (Opd × Rep) := l.zipIdx.map fun v => enterElem (row i) c0 (v.2 / 512) v.1
    let be := bs.zipIdx.map fun l => ent l.2 l.1
    let ce := cs.zipIdx.map fun l => ent l.2 l.1
    let badL (l : List (Lane × Flags)) : Bool := l.any fun v => v.1.2
    -- phase 2: the scores of t against every s
    let g := tab n fun t => tab n fun k =>
      let r := arrSum o.acc (row t) c0 (((ce.getD t []).zip (be.getD k [])).map fun p => some (p.1.1, p.2.1, []))
      ((r.1, badL (cs.getD t []) || badL (bs.getD k [])), r.2)
    let ge := g.zipIdx.map fun r => r.1.zipIdx.map fun v => enter (row r.2) c0 (v.2 / 512) v.1.1.1
    let xe := tab n fun i => tab w fun k => enterElem (row 0) (c0 + k) (i / 512) ((xs.getD i []).getD (c0 + k) ((0, false), 0))
    let xb (i k : Nat) : Bool := ((xs.getD i []).getD (c0 + k) ((0, false), 0)).1.2
    -- phase 3: masked scores by inputs
    let y := tab n fun t => tab w fun k =>
      let ts := (List.range (t + 1)).map fun i =>
        some ((((ge.getD t []).getD i (Opd.one (0, 0) false, Rep.nil)).1, ((xe.getD i []).getD k (Opd.one (0, 0) false, Rep.nil)).1,
          [decayMask (dp.getD t dz) (dp.getD i dz) i]) : Opd × Opd × List LogVal)
      let r := arrSum o.acc (row t) (c0 + k) ts
      let bad := (dp.getD t dz).bad || (List.range (t + 1)).any fun i => ((g.getD t []).getD i ((0, false), Rep.nil)).1.2 || xb i k
      ((r.1, bad), r.2)
    -- phase 4: inputs scaled to the chunk's end
    let fin := logs.getLastD (DecAcc.zero, false)
    let sc := tab n fun i =>
      let l := (logs.getD i (DecAcc.zero, false)).1
      let rest := ds.drop (i + 1)
      let wf : Wide := if rest.any (fun d => d.1 == dlInvalid) then .nan else if rest.any (fun d => d.1 == dlZero) then .zero
        else .ord (fin.1.lam - l.lam)
      tab w fun k =>
        let r := applyWide wf (((xs.getD i []).getD (c0 + k) ((0, false), 0)).1.1) none
        (r, xb i k || (rest.any Prod.snd))
    -- phase 5: the chunk-end state from a zero start
    let hs := tab o.ns fun r => tab w fun k =>
      let ts := (List.range n).map fun i =>
        let v := ((sc.getD i []).getD k (⟨0, 0, false⟩, false)).1
        if v.drop then none
        else some (((be.getD i []).getD r (Opd.one (0, 0) false, Rep.nil)).1, (enter (row (n - 1)) (c0 + k) 0 v.val).1, [])
      let u := arrSum o.acc (row (n - 1)) (c0 + k) ts
      let bad := (List.range n).any fun i => ((bs.getD i []).getD r ((0, false), 0)).1.2 || ((sc.getD i []).getD k (⟨0, 0, false⟩, false)).2
      ((u.1, bad), u.2)
    let rep := Rep.all (
      bs.zipIdx.flatMap (fun l => l.1.map fun v => (enterElem (row (n - 1)) c0 (l.2 / 512) v).2) ++ (be ++ ce).flatMap (fun l => l.map Prod.snd) ++
      g.flatMap (fun l => l.map Prod.snd) ++ ge.zipIdx.flatMap (fun l => (l.1.take (l.2 + 1)).map Prod.snd) ++
      xe.flatMap (fun l => l.map Prod.snd) ++ y.flatMap (fun l => l.map Prod.snd) ++
      sc.zipIdx.flatMap (fun l => l.1.zipIdx.map fun v => Rep.of v.1.1.flags .seam (row l.2) (c0 + v.2) noKgrp) ++
      sc.zipIdx.flatMap (fun l => l.1.zipIdx.map fun v =>
        if v.1.1.drop then Rep.nil else (enter (row (n - 1)) (c0 + v.2) (l.2 / 512) v.1.1.val).2) ++
      hs.flatMap (fun l => l.map Prod.snd))
    (logs, y, hs, rep, (sc.map fun l => (l.filter fun v => v.1.drop).length).foldl (· + ·) 0)
  let hd (k : Nat) := heads.getD k ([], [], [], Rep.nil, 0)
  ⟨tab n fun i => tab o.h fun k => (hd k).1.getD i (DecAcc.zero, false),
   tab n fun i => tab o.d fun k => (((hd (k / w)).2.1.getD i []).getD (k % w) ((0, false), Rep.nil)).1,
   tab o.size fun e => (((hd (e % o.d / w)).2.2.1.getD (e / o.d) []).getD (e % o.d % w) ((0, false), Rep.nil)).1,
   Rep.all (xs.zipIdx.map (fun l => convRep (row l.2) id l.1) ++ heads.map fun h => h.2.2.2.1),
   (heads.map fun h => h.2.2.2.2).foldl (· + ·) 0⟩

/-- Level 1 of a chunk (06 R204). -/
def localPass (s : State) (x : Ctx) (o : ScanOp) (q c : Nat) : LocalPass :=
  if o.form == .ssm then ssmPass s x o q c else linPass s x o q c

/-- The factor of a chunk log, and its poison, for a state element. -/
def logOf (o : ScanOp) (l : List (DecAcc × Bool)) (e : Nat) : DecAcc × Bool := l.getD (o.decCol (e % o.d)) (DecAcc.zero, false)

/-- One carry step over every state element: `apply(factor, h, h2)` (06 R204), with flags by channel and drops. -/
def carryStep (o : ScanOp) (logs : List (DecAcc × Bool)) (h : List Hel) (h2 : List Lane) : List Hel × List (Nat × Flags) × Nat :=
  let r := (h.zip h2).zipIdx.map fun p =>
    let l := logOf o logs p.2
    let a := applyH l.1.wide p.1.1 (p.1.2.1, p.1.2.2 || l.2)
    (a, p.2 % o.d)
  (r.map fun v => v.1.1, r.map fun v => (v.2, v.1.2.1), (r.map fun v => v.1.2.2).foldl (· + ·) 0)

/-- The sum of two chunk logs (06 R186, R204). -/
def addLogs (a b : DecAcc × Bool) : DecAcc × Bool :=
  (⟨satLam (a.1.lam + b.1.lam), a.1.zseen || b.1.zseen, a.1.vseen || b.1.vseen, a.1.sat || b.1.sat ||
    decide (satLam (a.1.lam + b.1.lam) ≠ a.1.lam + b.1.lam)⟩, a.2 || b.2)

/-- An element as a carry is stored: an empty one is +0 (06 R204). -/
def Hel.stored (h : Hel) : Lane := (h.1.getD 0, h.2)

/-- Level 3 of a chunk: the outputs of its positions, with flags and drops (06 R202, R205). -/
def correct (o : ScanOp) (q c : Nat) (p : LocalPass) (hin : List Hel) (s : State) (x : Ctx) (absent : Bool) :
    List (List Lane) × Rep × Nat :=
  let t0 := c * o.c
  let n := p.loc.length
  if o.form == .ssm then
    let w := o.d / o.h
    let row (i : Nat) : Nat := o.row q (t0 + i)
    let he := tab o.size fun e => enter (row 0) (e % o.d) 0 ((hin.getD e (none, false)).stored.1)
    let rs := tab n fun t =>
      let ce := tab o.h fun hh => tab o.ns fun i =>
        match o.w with
        | none => ((0, false), 0)
        | some b => let v := b.vec s x false ((row t * o.h + hh) * o.ns + i); ((v.1, v.2.2), v.2.1)
      let es := ce.zipIdx.map fun l => l.1.map (enterElem (row t) (l.2 * w) 0)
      tab o.d fun k =>
        let cl := ce.getD (k / w) []
        let el := es.getD (k / w) []
        let r := arrSum o.acc (row t) k ((List.range o.ns).map fun i =>
          some ((el.getD i (Opd.one (0, 0) false, Rep.nil)).1, (he.getD (i * o.d + k) (Opd.one (0, 0) false, Rep.nil)).1, []))
        let l := (p.logs.getD t []).getD (o.decCol k) (DecAcc.zero, false)
        let y := (p.loc.getD t []).getD k (0, false)
        let a := applyWide l.1.wide r.1 (some y.1)
        let bad := y.2 || l.2 || cl.any (fun v => v.1.2) || (List.range o.ns).any fun i => (hin.getD (i * o.d + k) (none, false)).2
        let once := if k % w == 0 then Rep.all (el.map Prod.snd) else Rep.nil
        ((a.val, bad), Rep.all [once, r.2, Rep.of a.flags .seam (row t) k noKgrp], b2n a.drop)
    (rs.map fun l => l.map fun v => v.1, (Rep.all (he.map Prod.snd)).and (Rep.all (rs.flatMap fun l => l.map fun v => v.2.1)),
      ((rs.flatMap fun l => l.map fun v => v.2.2)).foldl (· + ·) 0)
  else if c == 0 && absent then (p.loc, Rep.nil, 0)
  else
    let rs := p.loc.zipIdx.map fun l => l.1.zipIdx.map fun v =>
      let lg := (p.logs.getD l.2 []).getD (o.decCol v.2) (DecAcc.zero, false)
      let a := applyH lg.1.wide (hin.getD v.2 (none, false)) (v.1.1, v.1.2 || lg.2)
      (a.1.stored, Rep.of a.2.1 .seam (o.row q (t0 + l.2)) v.2 noKgrp, a.2.2)
    (rs.map fun l => l.map fun v => v.1, Rep.all (rs.flatMap fun l => l.map fun v => v.2.1),
      (rs.flatMap fun l => l.map fun v => v.2.2).foldl (· + ·) 0)

/-- What one span gives: the tiles of its chunks, the carry after its last chunk by level 2c, and the carry to the next span by
level 2b (06 R204). -/
structure SpanRun where
  tiles : List Tile
  last : List Hel
  next : List Hel

/-- The lanes of the Seam unit that hold no channel at a position of LIN or CELL: a lane pass takes 128 (01 R47, 06 R199). -/
def ScanOp.spare (o : ScanOp) : Nat := if o.form == .ssm then 0 else 128 * cdiv o.d 128 - o.d

/-- Runs one span of sequence `q` from its incoming carry (06 R199-R205). -/
def runSpan (s : State) (x : Ctx) (o : ScanOp) (q : Nat) (span : List Nat) (hin : List Hel) (absent : Bool) (pre : Rep) : SpanRun :=
  let x := { x with core := o.home (span.headD 0) }
  let ps := span.map fun c => (c, localPass s x o q c)
  let step (acc : List Tile × List Hel) (p : Nat × LocalPass) : List Tile × List Hel :=
    let c := p.1
    let t0 := c * o.c
    let n := o.chunkLen c
    let k := correct o q c p.2 acc.2 s x absent
    let ws := k.1.zipIdx.map fun r => let row := o.row q (t0 + r.2); (row, o.out.emit s x row 0 r.1)
    let cr := carryStep o (p.2.logs.getLastD []) acc.2 p.2.sum
    let row := o.row q (t0 + n - 1)
    let rep := Rep.all [if c == span.headD 0 then pre else Rep.nil, p.2.rep, k.2.1,
      Rep.all (ws.map fun w => rowRep .seam w.1 0 noKgrp w.2.2),
      Rep.all (cr.2.1.map fun f => Rep.of f.2 .seam row f.1 noKgrp)]
    let lost := unassured o.out (tab (n * o.d) fun e => o.row q t0 * o.d + e)
    let t : Tile := ⟨q * o.chunks + c, row, ws.flatMap fun w => w.2.1, rep,
      (k.1.map badCount).foldl (· + ·) 0 + lost, o.home c, p.2.floor + k.2.2 + cr.2.2, 0, o.spare * n, 0, [], 0, 0,
      q * o.chunks + c, [(o.home c, true)]⟩
    (acc.1 ++ [t], cr.1)
  let r := ps.foldl step ([], hin)
  -- level 2a: the span's summary
  let idl : List (DecAcc × Bool) := List.replicate o.hd (DecAcc.zero, false)
  let sm := ps.foldl (fun (a : List (DecAcc × Bool) × List Hel × List (Nat × Flags) × Nat) p =>
    let lg := p.2.logs.getLastD []
    let k := carryStep o lg a.2.1 p.2.sum
    ((a.1.zip lg).map fun z => addLogs z.1 z.2, k.1, a.2.2.1 ++ k.2.1, a.2.2.2 + k.2.2))
    (idl, List.replicate o.size (none, false), [], 0)
  -- level 2b: the carry to the next span
  let nx := carryStep o sm.1 hin (sm.2.1.map Hel.stored)
  let final := decide ((span.getLastD 0) + 1 = o.chunks)
  let tiles := match r.1.reverse with
    | t :: ts =>
      let row := t.index
      let fl := sm.2.2.1 ++ (if final then [] else nx.2.1)
      ({ t with
        rep := t.rep.and (Rep.all (fl.map fun f => Rep.of f.2 .seam row f.1 noKgrp))
        floor := t.floor + sm.2.2.2 + (if final then 0 else nx.2.2) } :: ts).reverse
    | [] => []
  ⟨tiles, r.2, nx.1⟩

/-- The initial carry of a sequence: the initial state, or +0 (06 R204). -/
def initCarry (s : State) (x : Ctx) (o : ScanOp) (q : Nat) : List Hel × Rep :=
  let i := initState s x o q
  (i.map fun v => (some v.1.1, v.1.2), Rep.all (i.zipIdx.map fun v => seamRep (o.row q 0) (v.2 % o.d) [v.1.2]))

/-- Where the carry into a span of sequence `q` that starts at chunk `c` stands: the carries are in the area by sequence and then by home
core, 4 bytes for each state element (13 R416; the order is a DESIGN CHOICE, log 22). -/
def ScanOp.carryAt (o : ScanOp) (q c : Nat) : Nat := o.carry + (q * Config.cores + o.home c) * (4 * o.size)

/-- The bytes of a carry: FP32 in the state layout, poisoned elements marked (06 R207). -/
def carryBytes (h : List Hel) : List Byte × List Bool :=
  (h.flatMap fun e => leBytes 4 e.stored.1, h.flatMap fun e => List.replicate 4 e.2)

/-- The part of a SCAN that reads the carry into a span. -/
def ScanOp.carryUnit (o : ScanOp) (q c : Nat) : Nat := 2 ^ 38 + q * o.chunks + c

/-- The transfers of the carry into a span, by the span's core (06 R207). -/
def ScanOp.carryPieces (o : ScanOp) (q c : Nat) : List Piece :=
  (pieces (o.carryAt q c) (4 * o.size)).map fun p => ⟨o.carryUnit q c, o.home c, p.1, p.2, false⟩

/-- The write of a carry: its bytes belong to no output element. -/
def ScanOp.carryWrite (o : ScanOp) (q c : Nat) (h : List Hel) : Wr :=
  let b := carryBytes h
  ⟨.t1, o.carryAt q c, b.1, b.2, noElems, 0⟩

/-- Every write of a command's bytes in a range has been acknowledged or lost (06 R207; 12 R379). -/
def written (s : State) (j : Job) (a n : Nat) : Bool :=
  let on (b k : Nat) : Bool := decide (a < b + k) && decide (b < a + n)
  !(j.wq.any fun w => on w.2.addr w.2.data.length) &&
    !(s.str.tags.any fun t => t.2.use == .write j.q j.n && on t.2.addr t.2.len)

/-- Reads a carry back. -/
def readCarry (s : State) (x : Ctx) (o : ScanOp) (q c : Nat) : List Hel :=
  let r := (cut64 (4 * o.size / 64 + 2) (o.carryAt q c) (4 * o.size)).foldl (fun (acc : List Byte × List Bool) p =>
    let r := readPart s (landedOf s x) (o.home c) false p.1 p.2
    (acc.1 ++ r.1, acc.2 ++ r.2)) ([], [])
  tab o.size fun e => (some (ofLe ((r.1.drop (4 * e)).take 4)), (((r.2.drop (4 * e)).take 4).any id))

/-- The first tile of a chunked scan that needs what a broken walk does not give (12 R376). -/
def scanBad (s : State) (x : Ctx) (o : ScanOp) : Option (Nat × (Nat × Nat × Nat)) :=
  if (o.out :: o.ins ++ o.fin.toList).all fun t => !t.list || t.lost || t.bytes == t.dense then none
  else (List.range (o.seqs * o.chunks)).findSome? fun k =>
    let q := k / o.chunks
    let c := k % o.chunks
    let rows := tab (o.chunkLen c) fun i => o.row q (c * o.c + i)
    (missing s x (rows.flatMap o.needs ++ o.stateNeeds (c == 0) (k + 1 == o.seqs * o.chunks) q)).map fun f => (k, f)

/-- What each part of a scan reads: a sequence in the sequential mode, else a chunk (06 R203, R206). -/
def ScanOp.parts (o : ScanOp) : List Part :=
  let ins (l : List (Tensor × Nat)) : List (Tensor × Nat) := l.filter fun p => p.1 != o.out
  let rows (q t n : Nat) : List (Tensor × Nat) := (List.range n).flatMap fun i => ins (o.needs (o.row q (t + i)))
  (List.range o.seqs).flatMap fun q =>
    if o.chunked then
      tab o.chunks fun c => {
        unit := q * o.chunks + c, core := o.home c
        elems := rows q (c * o.c) (o.chunkLen c) ++ o.stateNeeds (c == 0) false q }
    else [{ unit := q, core := q * Config.cores / o.seqs, elems := rows q 0 o.len ++ o.stateNeeds true false q }]

/-- A Seam entry of a layer program as a prepared piece of work (13 R417). -/
def prepScanEntry (s : State) (x : Ctx) (c : List Byte) : Except Bad Prep := do
  let o ← prepScan s x c
  return ⟨o.ins, [o.out] ++ o.fin.toList, o.parts, seqTiles x o⟩

end Sys2Proof.Machine
end

