-- ==== Sys2Proof/Machine/Fold.lean ====
section
/-! DEFINITION. The fold codec of shelf pages and the LOG8 form of KV pages (11 R353-R363). -/
namespace Sys2Proof.Machine

/-- One step of CRC-32 (IEEE 802.3, reflected). -/
def crcStep (c : Nat) (b : Byte) : Nat :=
  (List.range 8).foldl (fun c _ => if c % 2 == 1 then (c / 2) ^^^ 0xEDB88320 else c / 2) (c ^^^ b.toNat)
/-- CRC-32 of a run of bytes (11 R354). -/
def crc32 (bs : List Byte) : Nat := (bs.foldl crcStep 0xFFFFFFFF) ^^^ 0xFFFFFFFF

/-- Bits of `x`, lowest first. -/
def bitsOf (n x : Nat) : List Bool := tab n fun i => bit x i
/-- The number whose bits, lowest first, are given. -/
def ofBits (l : List Bool) : Nat := l.foldr (fun b a => b2n b + 2 * a) 0
/-- Bits packed into bytes from bit 0 upward (11 R355). -/
def packBits : Nat → List Bool → List Byte
  | 0, _ => []
  | _, [] => []
  | n + 1, l => BitVec.ofNat 8 (ofBits (l.take 8)) :: packBits n (l.drop 8)
/-- A bit stream as bytes. -/
def packAll (l : List Bool) : List Byte := packBits (l.length / 8 + 1) l
/-- Bytes as a bit stream. -/
def unpackAll (l : List Byte) : List Bool := l.flatMap fun b => bitsOf 8 b.toNat

/-- Little-endian words of `w` bytes. -/
def wordsOf (w : Nat) : Nat → List Byte → List Nat
  | 0, _ => []
  | n + 1, l => ofLe (l.take w) :: wordsOf w n (l.drop w)

/-- A run length in 7-bit groups (11 R355); `fuel` bounds the groups. -/
def runCode : Nat → Nat → List Byte
  | 0, _ => []
  | f + 1, n => if n < 128 then [BitVec.ofNat 8 n] else BitVec.ofNat 8 (n % 128 + 128) :: runCode f (n / 128)

/-- Alternating lengths of zero and non-zero runs, starting with a zero run (11 R355): the kind and length so far, then the
words left. -/
def runsOf : Bool → Nat → List Nat → List Nat
  | _, k, [] => [k]
  | z, k, w :: ws => if (w == 0) == z then runsOf z (k + 1) ws else k :: runsOf (!z) 1 ws

/-- The code of an exponent change (11 R356). -/
def expCode (δ : Nat) : List Bool :=
  let s := sgn 8 δ
  if s == 0 then [false]
  else if s == 1 then [true, false, false]
  else if s == -1 then [true, false, true]
  else if -8 ≤ s ∧ s ≤ 7 then [true, true, false] ++ bitsOf 4 (s + 8).toNat
  else [true, true, true] ++ bitsOf 8 (δ % 256)

/-- Field widths of a fold mode: bytes a word, low bits. -/
def foldLow (w : Nat) : Nat := if w == 2 then 7 else 23

/-- The exponent stream of the non-zero words (11 R355, R356). -/
def expStream (low : Nat) : Nat → List Nat → List Bool
  | _, [] => []
  | p, x :: xs => let e := fld x low 8; expCode ((e + 256 - p) % 256) ++ expStream low e xs

/-- A folded body of `w`-byte words: bytes, non-zero words, zero-map bytes (11 R355). -/
def foldBody (w : Nat) (page : List Byte) : List Byte × Nat × Nat :=
  let ws := wordsOf w (65536 / w) page
  let low := foldLow w
  let runs := runsOf true 0 ws
  let map := runs.flatMap (runCode 4)
  let nz := ws.filter (· != 0)
  (map ++ packAll (nz.map fun x => bit x (8 * w - 1)) ++ packAll (nz.flatMap fun x => bitsOf low x) ++
    packAll (expStream low 127 nz), nz.length, map.length)

/-- A fold header (11 R354). -/
def foldHeader (mode len nz zmap check : Nat) : List Byte :=
  leBytes 4 (len + mode <<< 17) ++ leBytes 4 nz ++ leBytes 4 zmap ++ leBytes 4 check

/-- Folds a page losslessly: header and body (11 R353). -/
def foldPage (page : List Byte) : List Byte × List Byte :=
  let a := foldBody 2 page
  let b := foldBody 4 page
  let c := crc32 page
  let w16 := decide (a.1.length ≤ b.1.length)
  let x := if w16 then a else b
  if 65535 < x.1.length then (foldHeader 0 65536 0 0 c, page)
  else (foldHeader (if w16 then 1 else 2) x.1.length x.2.1 x.2.2 c, x.1)

/-- Reads run lengths: the lengths of the alternating runs, or `none` on a byte stream that ends inside one. -/
def readRuns : List Byte → Nat → Nat → Option (List Nat)
  | [], _, sh => if sh == 0 then some [] else none
  | b :: bs, acc, sh =>
    let v := acc + (b.toNat % 128) <<< sh
    if bit b.toNat 7 then (if sh ≤ 21 then readRuns bs v (sh + 7) else none)
    else (readRuns bs 0 0).map (v :: ·)

/-- The mask of non-zero words that the runs give. -/
def maskOf : Bool → List Nat → List Bool
  | _, [] => []
  | z, r :: rs => List.replicate r (!z) ++ maskOf (!z) rs

/-- One exponent change read from a stream (11 R356). -/
def readExp : List Bool → Option (Nat × List Bool)
  | false :: r => some (0, r)
  | true :: false :: s :: r => some (if s then 255 else 1, r)
  | true :: true :: false :: a :: b :: c :: d :: r => some ((ofBits [a, b, c, d] + 248) % 256, r)
  | true :: true :: true :: r => if r.length < 8 then none else some (ofBits (r.take 8), r.drop 8)
  | _ => none

/-- The exponents of `n` non-zero words. -/
def readExps : Nat → Nat → List Bool → Option (List Nat)
  | 0, _, _ => some []
  | n + 1, p, l =>
    match readExp l with
    | none => none
    | some (δ, r) => let e := (p + δ) % 256; (readExps n e r).map (e :: ·)

/-- Puts the non-zero words back in their places. -/
def placeWords : List Bool → List Nat → List Nat
  | [], _ => []
  | true :: m, x :: xs => x :: placeWords m xs
  | true :: m, [] => 0 :: placeWords m []
  | false :: m, xs => 0 :: placeWords m xs

/-- The words of the low-bit plane. -/
def lowWords (low : Nat) : Nat → List Bool → List Nat
  | 0, _ => []
  | n + 1, l => ofBits (l.take low) :: lowWords low n (l.drop low)

/-- Unfolds a `W16` or `W32` body: the page, or the kind of error, 1 overrun or 2 zero map (11 R357, 17 R541). -/
def unfoldBody (w nz zlen : Nat) (body : List Byte) : Except Nat (List Byte) :=
  let low := foldLow w
  let sb := cdiv nz 8
  let lb := cdiv (nz * low) 8
  if body.length < zlen + sb + lb then .error 1
  else
    let words := 65536 / w
    match readRuns (body.take zlen) 0 0 with
    | none => .error 2
    | some runs =>
      if runs.foldl (· + ·) 0 != words then .error 2
      else
        let mask := maskOf true runs
        if (mask.filter id).length != nz then .error 2
        else
          let rest := body.drop zlen
          match readExps nz 127 (unpackAll (rest.drop (sb + lb))) with
          | none => .error 1
          | some es =>
            let signs := unpackAll (rest.take sb)
            let lows := lowWords low nz (unpackAll ((rest.drop sb).take lb))
            let xs := (es.zip (lows.zip signs)).map fun x => x.2.1 + x.1 <<< low + (b2n x.2.2) <<< (8 * w - 1)
            .ok ((placeWords mask xs).flatMap (leBytes w))

/-- A 16-bit KV element as LOG16 (11 R360, 02 R67). `fmt` is the `KVFMT` code. -/
def kvTo16 (fmt c : Nat) : Nat :=
  match fmt with
  | 1 => c
  | 2 => (f32ToLog16 (ieeeTo32 ieeeBf c).1).1
  | _ => (f32ToLog16 (ieeeTo32 ieee16 c).1).1
/-- A LOG16 element in a KV format (11 R362). -/
def kvOf16 (fmt c : Nat) : Nat :=
  match fmt with
  | 1 => c
  | 2 => (f32ToIeee ieeeBf false (log16To32 c).1).1
  | _ => (f32ToIeee ieee16 false (log16To32 c).1).1

/-- LOG8 elements and block scales of a run of LOG16 codes, in blocks of 32 (02 R60-R62). -/
def log8Blocks : Nat → List Nat → List Nat × List Nat
  | 0, _ => ([], [])
  | n + 1, l =>
    let b := l.take 32
    let s := log8Scale b
    let r := log8Blocks n (l.drop 32)
    (b.map (fun c => (log16To8 c s).1) ++ r.1, s :: r.2)

/-- The LOG8 form of a KV page (11 R361). -/
def log8Form (fmt : Nat) (page : List Byte) : List Byte :=
  let ws := (wordsOf 2 32768 page).map (kvTo16 fmt)
  let k := log8Blocks 512 (ws.take 16384)
  let v := log8Blocks 512 (ws.drop 16384)
  (k.1 ++ k.2 ++ v.1 ++ v.2).map (BitVec.ofNat 8)

/-- The LOG16 elements, keys then values, that a LOG8 form gives (11 R362, 10 R340). -/
def log8Elems (form : List Byte) : List Nat :=
  let g (e s : List Byte) : List Nat :=
    e.zipIdx.map fun x => (log8To16 x.1.toNat (s.getD (x.2 / 32) 0).toNat).1
  g (form.take 16384) ((form.drop 16384).take 512) ++
    g ((form.drop 16896).take 16384) ((form.drop 33280).take 512)

/-- The page bytes that a LOG8 form rises to (11 R362). -/
def log8Page (fmt : Nat) (form : List Byte) : List Byte :=
  (log8Elems form).flatMap fun c => leBytes 2 (kvOf16 fmt c)

/-- Unfolds a body by its header: the page, or the error of 17 R541 (0 check, 1 overrun, 2 zero map). -/
def unfoldPage (fmt : Nat) (header body : List Byte) : Except Nat (List Byte) :=
  let w (i : Nat) : Nat := ofLe ((header.drop (4 * i)).take 4)
  let check (p : List Byte) (out : List Byte) : Except Nat (List Byte) := if crc32 p == w 3 then .ok out else .error 0
  match fld (w 0) 17 2 with
  | 0 => check body body
  | 3 => check body (log8Page fmt body)
  | md =>
    match unfoldBody (2 * md) (fld (w 1) 0 17) (fld (w 2) 0 17) body with
    | .error e => .error e
    | .ok p => check p p

end Sys2Proof.Machine
end

