-- ==== Sys2Proof/Machine/Tier.lean ====
section
/-! DEFINITION. The shelf: the evictor, falls, rises, and PAGE (10 R320-R324; 11 R348-R373). -/
namespace Sys2Proof.Machine

/-! ### Falls (10 R322, R323; 11 R350-R364) -/

/-- A transfer on the frame is in flight or waits to be issued (10 R322). -/
def frameBusy (s : State) (f : Nat) : Bool :=
  let a := frameAddr s f
  let on (b n : Nat) : Bool := decide (a < b + n) && decide (b < a + 65536)
  (s.str.tags.any fun p => (match p.2.chan with | .port _ => on p.2.addr p.2.len | _ => false)) ||
    s.jobs.any fun j => (j.wq.any fun w => on w.2.addr w.2.data.length) || (j.ask.getD []).any fun p => on p.addr p.len

/-- The shelf has room for a page (11 R350). -/
def shelfRoom (s : State) : Bool := s.tier.shelfEn && s.tier.shelfFree != 0

/-- A page may be the evictor's victim (10 R322). -/
def eligible (s : State) (d : Nat) : Bool :=
  let x := getDesc s d
  x.state == 1 && x.kind != 3 && !frameBusy s x.frame && shelfRoom s &&
    !((decide (1 < x.count) || x.kind == 1 || x.kind == 2) && famActive s x.family)

/-- A queue's bit in a mask takes effect: the queue is not one without deadlines (11 R359, R363, R370). -/
def queueBit (s : State) (mask q : Nat) : Bool := bit mask q && !(s.queue q).noDl
/-- The queue of a family (10 R316). -/
def famQueue (s : State) (fam : Nat) : Nat := match s.slots.fams.find fam with | some f => f.queue | none => 64

/-- A page's KV format has a LOG8 form (11 R359, R363). -/
def kvFolds (w : Nat) : Bool := [1, 2, 3].contains (fld w 2 3)

/-- What a fall of page `d` writes to the shelf: fold header and body (11 R353, R359-R361). -/
def foldOf (s : State) (d : Nat) (x : Desc) : List Byte × List Byte :=
  let page := (s.t1.fetch (frameAddr s x.frame) 65536).1
  let w := sideWord s d
  if s.tier.lossyEn && x.kind == 0 && kvFolds w && queueBit s s.tier.lossyQ (famQueue s x.family) then
    let f := log8Form (fld w 2 3) page
    (foldHeader 3 33792 0 0 (crc32 f), f)
  else foldPage page

/-- The summary slot that a fall takes, or the fall is counted as one without (11 R363). -/
def fallSummary (s : State) (d : Nat) (x : Desc) : Option Nat × State :=
  if s.tier.neapEn && x.kind == 0 && kvFolds (sideWord s d) && queueBit s s.tier.neapQ (famQueue s x.family) then
    match popNeap s with
    | none => (none, { s with tier := { s.tier with neapSkip := add64 s.tier.neapSkip 1 } })
    | some (k, s) => (some k, s)
  else (none, s)

/-- The poison of each byte of a LOG8 form: that of the unit of its 32 elements, one block (11 R361, R364). -/
def log8Poison (units : List Bool) : List Bool :=
  let half (w : Nat) : List Bool := tab 512 fun b => units.getD (512 * w + b) false
  [0, 1].flatMap fun w => (half w).flatMap (List.replicate 32) ++ half w

/-- The writes of a summary into slot `k`: the LOG8 form of the page, poisoned where the page is (11 R363, R364). -/
def summaryTags (s : State) (d k : Nat) (x : Desc) : List Tag :=
  let page := s.t1.fetch (frameAddr s x.frame) 65536
  let f := log8Form (fld (sideWord s d) 2 3) page.1
  let bad := if x.poison then List.replicate f.length true else log8Poison (tab 1024 fun i => page.2.getD (64 * i) false)
  let a := s.tier.neapBase + 34816 * k
  (pieces a f.length).map fun p =>
    writeTag (.port (fld p.1 8 2)) p.1 ((f.drop (p.1 - a)).take p.2) (unitsOf p.1 ((bad.drop (p.1 - a)).take p.2)) 8 0 (.fall d)

/-- The writes of a folded body into shelf slot `k`; a page with poisoned units keeps their poison on the shelf (11 R349). -/
def bodyTags (s : State) (d k : Nat) (x : Desc) (f : List Byte) : List Tag :=
  let bad := s.t1.anyPoison (frameAddr s x.frame) 65536
  let a := s.tier.shelfBase + 65536 * k
  (pieces a f.length).map fun p =>
    writeTag .shelf p.1 ((f.drop (p.1 - a)).take p.2) (if bad then unitsOf p.1 (List.replicate p.2 true) else []) 8 0 (.fall d)

/-- A page's fall begins: its shelf slot is taken, and its folded body and its summary are sent (10 R320; 11 R349, R363). `none` without a
slot. -/
def startFall (s : State) (d cls : Nat) (job : Option (Nat × Nat)) : Option State :=
  match popShelf s with
  | none => none
  | some (slot, s) =>
    let x := getDesc s d
    let f := foldOf s d x
    let m := fallSummary s d x
    let s := putDesc m.2 d { x with state := 4, commit := false, slot := slot }
    let todo := (bodyTags s d slot x f.2 ++ (match m.1 with | some k => summaryTags s d k x | none => [])).map fun t => t.moving s cls job
    some (issueFall { s with pg := { s.pg with falls := s.pg.falls ++ [⟨d, slot, m.1, f.1, todo.length, cls, job, todo⟩] } } d)

/-- The clock from descriptor `d`: the references cleared on the way, and the first eligible page without one (10 R323). -/
def clockScan : Nat → Nat → State → Option Nat × State
  | 0, _, s => (none, s)
  | f + 1, d, s =>
    if !eligible s d then clockScan f ((d + 1) % s.pg.descCount) s
    else
      let x := getDesc s d
      if x.ref then clockScan f ((d + 1) % s.pg.descCount) (putDesc s d { x with ref := false })
      else (some d, s)

/-- The command served first among those with a `PAGE_DRY` stall, if there is one (10 R324, R326, R327; 11 R372). -/
def dryJob (s : State) : Option Job :=
  (s.jobs.filter fun j => j.phase != .done && (j.dry || j.riseDry || j.members.any fun m => m.phase == .dry)).foldl
    (fun (b : Option Job) j => match b with
      | none => some j
      | some k => if j.before k then some j else b) none
/-- A stall with cause `PAGE_DRY` stands. -/
def dryStall (s : State) : Bool := (dryJob s).isSome

/-- Free frames and those that falls in progress will free (11 R371). -/
def freeSoon (s : State) : Nat := s.pg.free + s.pg.falls.length

/-- The background evictor's mark after a look at the levels (11 R371). -/
def levels (s : State) : Bool :=
  let hi := max s.tier.freeLow s.tier.freeHigh
  decide (freeSoon s < s.tier.freeLow) || (s.tier.reclaim && decide (freeSoon s < hi))

/-- EVICTOR (10 R322, R323; 11 R371): one victim is chosen and falls. -/
def evictor (s : State) : State :=
  let s := { s with tier := { s.tier with reclaim := levels s } }
  let dry := dryStall s
  if !s.awake || !s.pg.init || !(dry || s.tier.reclaim) || decide (s.tier.maxFalls + 1 ≤ s.pg.falls.length) then s
  else
    match clockScan (2 * s.pg.descCount) s.pg.clock s with
    | (none, s) => s
    | (some d, s) =>
      match startFall s d (if dry then 2 else 4) ((dryJob s).map fun j => (j.q, j.n)) with
      | none => s
      | some s => { s with pg := { s.pg with clock := (d + 1) % s.pg.descCount } }

/-- The commit point of a fall: the header, the summary and `COMMIT` stand together (10 R320; 11 R351, R364). -/
def commitFall (s : State) (f : Fall) : State :=
  let x := getDesc s f.d
  if f.left != 0 || f.cls == 9 || x.commit then s
  else
    let s := s.wr (s.tier.sideBase + 32 * f.d) f.header
    let s := match f.summary with
      | some k => putSide s f.d (setFld (setFld (sideWord s f.d) 8 24 k) 0 1 1)
      | none => s
    putDesc s f.d { x with commit := true }

/-- Every fall whose last byte has been acknowledged stands at its commit point. -/
def commitFalls (s : State) : State := s.pg.falls.foldl commitFall s

/-- FALL_COMMIT (10 R320): the frame of a fall at its commit point goes back. A fall with a lost write is abandoned and its page stays near
(DESIGN CHOICE, log 13). -/
def fallCommit (d : BitVec 28) (s : State) : State :=
  let d := d.toNat
  match s.pg.falls.find? fun f => f.d == d with
  | none => s
  | some f =>
    if f.left != 0 then s
    else if f.cls == 9 then putDesc (stopFall s d) d { getDesc s d with state := 1, commit := false, slot := 0 }
    else
      let s := commitFall s f
      let x := getDesc s d
      pushFrame (putDesc (dropFall s d) d { x with state := 2, commit := false, frame := 0 }) x.frame

/-! ### Rises (10 R320, R324; 11 R357, R362) -/

/-- The body of a rise, its pieces in address order. -/
def Rise.bytes (r : Rise) : List Byte :=
  (sortBy (fun (a b : Nat × List Byte) => decide (a.1 < b.1)) r.body).flatMap Prod.snd

/-- RISE_COMPLETE (11 R357, R362): the page is unfolded into its frame, or becomes `NEAR` with `POISON`. -/
def riseComplete (d : BitVec 28) (s : State) : State :=
  let d := d.toNat
  match s.pg.rises.find? fun r => r.d == d with
  | none => s
  | some r =>
    if r.left != 0 then s
    else
      let x := getDesc s d
      let w := sideWord s d
      let hdr := (s.t1.fetch (s.tier.sideBase + 32 * d) 16).1
      let res : Except Nat (List Byte) :=
        if r.timedOut then .error 4 else if r.poisoned then .error 3 else unfoldPage (fld w 2 3) hdr r.bytes
      let s := { s with pg := { s.pg with rises := s.pg.rises.filter fun g => g.d != d } }
      let s := dropShelf s d x
      let y : Desc := { x with state := 1, slot := 0 }
      match res with
      | .ok page =>
        let s := { s with t1 := s.t1.store (frameAddr s x.frame) page [] }
        let s := if fld (ofLe hdr) 17 2 == 3 then putSide s d (setFld (sideWord s d) 1 1 1) else s
        putDesc s d y
      | .error e =>
        let s := { s with t1 := s.t1.clear (frameAddr s x.frame) 65536, tier := { s.tier with foldErr := add64 s.tier.foldErr 1 } }
        fault (putDesc s d { y with poison := true }) 2 2 0xFF false 0 d e

/-! ### PAGE (11 R373; 13 R412, R425) -/

/-- PAGE's checks. -/
def prepPage (s : State) (j : Job) : Except Bad (Nat × Nat × Nat) := do
  let sid := fld (j.body 0) 0 20
  let k := fld (j.body 0x10) 0 25
  check (decide (1 ≤ k) && decide (k ≤ 2 ^ 24)) (badField 0x20)
  ownAll s j.q [sid]
  return (sid, fld (j.body 8) 0 24, k)

/-- What a request for one page comes to. -/
inductive PageAct where
  | skip | moves (d : Nat) (s : State) | wait (s : State)

/-- The page that a virtual page number of a sequence names. -/
def pageOf (s : State) (sid vpn : Nat) : Option Nat :=
  match seqRec s sid with
  | none => none
  | some x => if 2 ^ 24 ≤ vpn then none else lookup s x.root (seqFam s x) vpn

/-- A requested rise (10 R320, 11 R373). -/
def askRise (s : State) (j : Job) (sid vpn : Nat) : PageAct :=
  match pageOf s sid vpn with
  | none => .skip
  | some d =>
    let x := getDesc s d
    if x.state == 2 then
      match startRise s d (d % Config.cores) 3 (some (j.q, j.n)) with
      | some s => .moves d s
      | none => .wait (if s.pg.free == 0 then noteDry s (some (j.q, j.n)) true else s)
    else if x.state == 4 && x.commit then .wait s
    else .skip

/-- A requested fall (11 R373). -/
def askFall (s : State) (j : Job) (sid vpn : Nat) : PageAct :=
  match pageOf s sid vpn with
  | none => .skip
  | some d =>
    if !eligible s d then .skip
    else if s.tier.maxFalls + 1 ≤ s.pg.falls.length then .wait s
    else match startFall s d 3 (some (j.q, j.n)) with
      | some s => .moves d s
      | none => .wait s

/-- Requests in order from page `i` of `k` until one must wait: the place reached, the pages skipped, those that move. -/
def askPages (act : State → Nat → PageAct) : Nat → Nat → Nat → List Nat → State → Nat × Nat × List Nat × State
  | 0, i, sk, ds, s => (i, sk, ds, s)
  | f + 1, i, sk, ds, s =>
    match act s i with
    | .skip => askPages act f (i + 1) (sk + 1) ds s
    | .moves d s => askPages act f (i + 1) sk (ds ++ [d]) s
    | .wait s => (i, sk, ds, s)

/-- PAGE proceeds as far as it can; `work` holds its place, the pages skipped and the pages that move. It completes when its moves
have ended. -/
def runPage (s : State) (j : Job) (p : Nat × Nat × Nat) : State :=
  let fall := bit (j.body 0x28) 0
  let act (s : State) (i : Nat) : PageAct := if fall then askFall s j p.1 (p.2.1 + i) else askRise s j p.1 (p.2.1 + i)
  let i0 := j.work.headD 0
  let r := askPages act (p.2.2 - i0) i0 (j.work.getD 1 0) (j.work.drop 2) s
  let s := r.2.2.2
  let ds := r.2.2.1
  let busy := ds.any fun d => s.pg.falls.any (fun f => f.d == d) || s.pg.rises.any fun x => x.d == d
  s.withJob j.q j.n fun s j =>
    if r.1 == p.2.2 && !busy then
      let moved := if fall then (ds.filter fun d => (getDesc s d).state == 2).length else ds.length
      finish s { j with result := moved + (r.2.1 + (ds.length - moved)) <<< 32 }
    else s.setJob { j with work := r.1 :: r.2.1 :: ds }

/-- The row of one PAGE operation. -/
def pageRow (fall : Bool) (q : BitVec 6) (n : BitVec 16) (s : State) : State :=
  s.withJob q.toNat n.toNat fun s j =>
    if j.op == 0x28 && bit (j.body 0x28) 0 != fall then s else startRow 0x28 j.q j.n s prepPage runPage

/-- PAGE_RISE. -/
def execPageRise (q : BitVec 6) (n : BitVec 16) (s : State) : Host.Outcome State Fault Refusal := .next (pageRow false q n s)
/-- PAGE_FALL. -/
def execPageFall (q : BitVec 6) (n : BitVec 16) (s : State) : Host.Outcome State Fault Refusal := .next (pageRow true q n s)
/-- EVICTOR. -/
def execEvictor (s : State) : Host.Outcome State Fault Refusal := .next (evictor s)
/-- FALL_COMMIT. -/
def execFallCommit (d : BitVec 28) (s : State) : Host.Outcome State Fault Refusal := .next (fallCommit d s)
/-- RISE_COMPLETE. -/
def execRiseComplete (d : BitVec 28) (s : State) : Host.Outcome State Fault Refusal := .next (riseComplete d s)
/-- STREAM_WRITE_ACK: the last byte of a fall may be acknowledged with it. -/
def execStreamWriteAck (p : BitVec 2) (id : BitVec 19) (err : Bool) (s : State) : Host.Outcome State Fault Refusal :=
  .next (commitFalls (streamWriteAck p id err s))
/-- SHELF_WRITE_ACK, likewise. -/
def execShelfWriteAck (id : BitVec 19) (err : Bool) (s : State) : Host.Outcome State Fault Refusal :=
  .next (commitFalls (shelfWriteAck id err s))
/-- TAG_TIMEOUT. -/
def execTagTimeout (core : BitVec 8) (tag : BitVec 9) (lt : Dword) (s : State) : Host.Outcome State Fault Refusal :=
  .next (tagTimeout core tag lt s)

end Sys2Proof.Machine
end

