-- ==== Sys2Proof/Machine/Attn.lean ====
section
/-! DEFINITION. Attention over paged keys and values, alone or in a layer program, and the neap path (10 R333-R341;
11 R362-R369; 13 R419). -/
namespace Sys2Proof.Machine

/-- A checked attention operation (10 R335, 13 R419). `kv` is the format of keys and values and `kvCode` its mark in a side word;
`sids` are the members of a command of its own. -/
structure AttnOp where
  qkv : Tensor
  y : Tensor
  base : Nat
  kv : Fmt
  kvCode : Nat
  hp : Nat
  kvwr : Bool
  advance : Bool
  acc : Nat
  split : Nat
  hq : Nat
  hkv : Nat
  dh : Nat
  kappa : Nat
  npos : Nat
  win : Nat
  compat : Bool
  sids : List Nat
  deriving DecidableEq, Repr

/-- The KV formats and their marks (10 R333, 11 R351). -/
def kvFmt : Nat → Option (Fmt × Nat)
  | 5 => some (.log16, 1) | 2 => some (.bf16, 2) | 1 => some (.fp16, 3) | 3 => some (.e4m3, 4) | 4 => some (.e5m2, 5) | _ => none

/-- Bytes of an element of keys and values. -/
def AttnOp.e (o : AttnOp) : Nat := o.kv.bits / 8
/-- Positions of a KV page (10 R333). -/
def AttnOp.pp (o : AttnOp) : Nat := 32768 / (o.hp * o.dh * o.e)
/-- Where the key of KV head `h` at position `p` lies: page and offset; the value lies 32,768 bytes on (10 R333). -/
def AttnOp.kvAt (o : AttnOp) (p h : Nat) : Nat × Nat :=
  (o.base + p / o.pp * (o.hkv / o.hp) + h / o.hp, (p % o.pp * o.hp + h % o.hp) * o.dh * o.e)
/-- Rows of QKV at one position. -/
def AttnOp.lines (o : AttnOp) : Nat := if o.kvwr then o.hq + 2 * o.hkv else o.hq
/-- The row number of (member, position, head) (13 R425). -/
def AttnOp.row (o : AttnOp) (m t h : Nat) : Nat := (m * o.npos + t) * o.hq + h

/-! ### Checks (10 R335; 08 R272; 13 R412, R418, R419) -/

/-- The checks of an attention command or entry; `fresh` says that its sequences have not been checked before. -/
def prepAttn (s : State) (x : Ctx) (fresh : Bool) (c : List Byte) : Except Bad AttnOp := do
  let kw := bw c 3
  let hw := bw c 4
  let pw := bw c 5
  let compat := compatOf c
  check (!x.prog || (bw c 0 == 0 && !bit kw 33 && fld pw 32 16 == 0)) (badField 0x10)
  let sids ← if x.prog then .ok [] else (need s x .index (bw c 0) 0x10).map fun t => t.ints s x
  check (x.prog || (decide (1 ≤ sids.length) && decide (sids.length ≤ 4096) && noDup sids)) (badField 0x10)
  if fresh then ownAll s x.q sids
  match kvFmt (fld kw 24 5), fld hw 16 2 with
  | none, _ => .error (badField 0x2B)
  | _, 3 => .error (badField 0x32)
  | some (kv, code), dc =>
    let dh := 64 * 2 ^ dc
    let hp := 2 ^ fld kw 29 3
    let hq := fld hw 0 8 + 1
    let hkv := fld hw 8 8 + 1
    let kappa := fld hw 32 32
    let acc := fld kw 34 2
    let win := fld pw 0 23
    check (hkv % hp == 0 && decide (16 * (hp * dh * (kv.bits / 8)) ≤ 32768)) (badField 0x2B)
    check (acc == 1 || acc == 2) (badField 0x2C)
    check (hq % hkv == 0) (badField 0x30)
    check (decide (0 < kappa) && decide (kappa < inf32)) (badField 0x34)
    check (decide (win ≤ 4194304)) (badField 0x38)
    let qkv ← need s x .qkv (bw c 1) 0x18
    let y ← need s x .vout (bw c 2) 0x20
    let o : AttnOp := {
      qkv := qkv
      y := y
      base := fld kw 0 24
      kv := kv
      kvCode := code
      hp := hp
      kvwr := bit kw 32
      advance := bit kw 33
      acc := acc
      split := fld kw 36 1
      hq := hq
      hkv := hkv
      dh := dh
      kappa := kappa
      npos := fld pw 32 16 + 1
      win := win
      compat := compat
      sids := sids }
    let m := if x.prog then 1 else sids.length
    check (qkv.dims == [dh, o.lines, o.npos, m]) (badRef (fld (bw c 1) 0 48))
    check (y.dims == [dh, hq, o.npos, m]) (badRef (fld (bw c 2) 0 48))
    check (!compat || (compatFmt qkv.fmt && compatFmt kv && s.boot.tsu2)) (badField 1)
    return o

/-! ### Pages and the neap path (10 R334, R340; 11 R362-R367) -/

/-- The pages of the positions that a member's rows reach, with those that it writes (10 R334, R336). -/
def AttnOp.pages (o : AttnOp) (pos : Nat) : List Nat :=
  let lo := if o.win == 0 then 0 else pos + 1 - o.win
  let hi := pos + o.npos - 1
  (tab (hi / o.pp + 1 - lo / o.pp) fun i => lo / o.pp + i).flatMap fun g =>
    tab (o.hkv / o.hp) fun h => o.base + g * (o.hkv / o.hp) + h
/-- The pages that a member writes keys and values into. -/
def AttnOp.wpages (o : AttnOp) (pos : Nat) : List Nat :=
  if !o.kvwr then []
  else
    let lo := pos / o.pp
    (tab ((pos + o.npos - 1) / o.pp + 1 - lo) fun i => lo + i).flatMap fun g =>
      tab (o.hkv / o.hp) fun h => o.base + g * (o.hkv / o.hp) + h

/-- The stream deadline of a member's fetches (11 R365). -/
def streamDeadline (s : State) (j : Job) (m : Member) : Option Int :=
  let d := memberDeadline s j m
  if s.tier.neapEn && queueBit s s.tier.neapQ j.q && !j.noDl && d != 0 then some ((d : Int) - s.tier.margin) else none

/-- Bytes of shelf reads queued ahead of page `d`: those asked for before its own (11 R366). -/
def shelfBacklog (s : State) (d : Nat) : Nat :=
  let reads := s.str.tags.filter fun p => p.2.chan == .shelf && !p.2.write
  let own := (reads.filter fun p => p.2.use == .rise d).map fun p => p.2.seq
  (reads.filter fun p => p.2.use != .rise d && own.all fun k => decide (p.2.seq < k)).foldl (fun a p => a + p.2.len) 0

/-- The estimated end of a rise is past a stream deadline (11 R366). -/
def tooLate (s : State) (d : Nat) (sd : Int) : Bool :=
  let len := fld (s.rd (s.tier.sideBase + 32 * d) 4) 0 17
  let rate : Int := max s.tier.estRate 1
  decide ((sd - s.life.lt - s.tier.estLat) * rate < (shelfBacklog s d + len : Nat))

/-- The summary slot from which a page is served for a sequence, if it is. -/
def neapSlot (j : Job) (sid d : Nat) : Option Nat := (j.neaps.find? fun e => e.1 == sid && e.2.1 == d).map fun e => e.2.2
/-- A page is served from its summary for a sequence. -/
def isNeap (j : Job) (sid d : Nat) : Bool := (neapSlot j sid d).isSome

/-- A page is served from its summary from now on, whatever its slot becomes (11 R366, R367). -/
def takeNeap (s : State) (j : Job) (sid d : Nat) : State :=
  s.withJob j.q j.n fun s j => s.setJob { j with neaps := j.neaps ++ [(sid, d, fld (sideWord s d) 8 24)] }

/-- A fetch reaches a KV page that a member only reads: it may go on, takes the neap path, or waits. The estimate is made once, when the page
is first translated (11 R366). -/
def touchKv (s : State) (j : Job) (core sid d : Nat) (sd : Option Int) : Bool × State :=
  let x := getDesc s d
  let far := [2, 3].contains x.state || (x.state == 4 && x.commit)
  if isNeap j sid d then (true, s)
  else match sd, far && bit (sideWord s d) 0 with
    | some sd, true =>
      let known := j.kvWaits.contains (sid, d)
      if (!known && tooLate s d sd) || decide (sd ≤ s.life.lt) then (true, takeNeap s j sid d)
      else
        let r := touchPage s core (some (j.q, j.n)) d
        (r.1, r.2.withJob j.q j.n fun s j => s.setJob { j with kvWaits := (sid, d) :: j.kvWaits.erase (sid, d) })
    | _, _ => touchPage s core (some (j.q, j.n)) d

/-- The KV pages of a member are reached: `true` when its rows may run. -/
def reachKv (s : State) (j : Job) (core sid : Nat) (sd : Option Int) (reads writes : List Nat) : Bool × State :=
  let w := touchAll s core (some (j.q, j.n)) (writes.map fun v => (sid, v))
  (reads.filter fun v => !writes.contains v).foldl (fun (a : Bool × State) v =>
    match pageOf a.2 sid v, a.2.job j.q j.n with
    | some d, some j => let r := touchKv a.2 j core sid d sd; (a.1 && r.1, r.2)
    | _, _ => a) w

/-- NEAP_STREAM_DEADLINE (11 R366): the fetches of a page whose stream deadline has come take the neap path. -/
def neapStreamDeadline (d : BitVec 28) (lt : Dword) (s : State) : State :=
  let s := advance s lt
  let d := d.toNat
  let x := getDesc s d
  if x.state == 1 || !bit (sideWord s d) 0 then s
  else
    { s with jobs := s.jobs.map fun j =>
      let due := j.kvWaits.filter fun w => w.2 == d &&
        (match streamDeadline s j { sid := w.1 } with | some sd => decide (sd ≤ (s.life.lt : Int)) | none => false)
      if j.phase == .done then j
      else { j with neaps := j.neaps ++ due.map (fun w => (w.1, w.2, fld (sideWord s d) 8 24)), kvWaits := j.kvWaits.filter fun w => !due.contains w } }

/-- The pages of a member's reads that count as neap reads: served from summaries, or lossy (11 R362, R367). -/
def neapPages (s : State) (j : Job) (sid : Nat) (reads : List Nat) : List Nat :=
  (reads.filterMap fun v => pageOf s sid v).filter fun d => isNeap j sid d || bit (sideWord s d) 1

/-! ### Keys and values -/

/-- A QKV element as it enters the array: an integer by the tensor's scale, any other as LOG16 (02 R66, R67, R77, R568). -/
def qkvOpd (s : State) (x : Ctx) (t : Tensor) (e : Nat) : Opd :=
  if t.fmt.isInt then let c := t.raw s x e 0; intActOpd (sgn t.fmt.bits c.1) t.auxVal c.2
  else logOpd s x t 0 e

/-- A QKV element as the KV format holds it: NaNs canonical; an integer by the tensor's scale (02 R53, R58, R67; 10 R334; log 24). A
conversion to E4M3 runs as with a clear saturate bit, since KV pages have no descriptor (DESIGN CHOICE, log 35). -/
def qkvCode (s : State) (x : Ctx) (o : AttnOp) (e : Nat) : Nat × Flags × Bool :=
  let c := o.qkv.raw s x e 0
  if o.qkv.fmt == .log16 && o.kv == .log16 then (if c.1 % 2 ^ 15 == 0x7FFE then 0x7FFE else c.1, 0, c.2)
  else
    let v : Nat × Flags × Bool :=
      if o.qkv.fmt.isInt then
        let d := qkvOpd s x o.qkv e
        let r := log16To32 d.p1
        (r.1, d.fl ||| r.2, d.bad)
      else o.qkv.vec s x false e
    let r := vout o.kv false .direct 0 v.1
    (r.1, v.2.1 ||| r.2, v.2.2)

/-- The elements of a key (`w` 0) or value (`w` 1) row of member `m` at its position `t`, KV head `h`, as they are stored. -/
def kvLine (s : State) (x : Ctx) (o : AttnOp) (m t w h : Nat) : List (Nat × Flags × Bool) :=
  let line := (m * o.npos + t) * o.lines + o.hq + w * o.hkv + h
  tab o.dh fun i => qkvCode s x o (line * o.dh + i)

/-- The writes of a member's keys and values from its position `pos` on (10 R333, R334). -/
def kvWrites (s : State) (x : Ctx) (o : AttnOp) (m sid pos : Nat) : List Wr :=
  if !o.kvwr then []
  else (List.range o.npos).flatMap fun t => (List.range o.hkv).flatMap fun h => (List.range 2).map fun w =>
    let a := o.kvAt (pos + t) h
    let l := kvLine s x o m t w h
    ⟨.paged sid, 65536 * a.1 + 32768 * w + a.2, l.flatMap fun c => leBytes o.e c.1, l.flatMap fun c => List.replicate o.e c.2.2,
      o.kv.bits, 0⟩

/-- The report of the conversions of the keys and values of one position; it goes with the position's first row (DEDUCED, log 24). -/
def kvRep (s : State) (x : Ctx) (o : AttnOp) (m t : Nat) : Rep :=
  if !o.kvwr then Rep.nil
  else Rep.all ((List.range 2).flatMap fun w => (List.range o.hkv).flatMap fun h =>
    (kvLine s x o m t w h).zipIdx.map fun c => Rep.of c.1.2.1 .array (o.row m t 0) c.2 noKgrp)

/-- The bytes of a summary, one stream read (11 R367). -/
def summaryRun (s : State) (k : Nat) : Run := ⟨none, s.tier.neapBase + 34816 * k, 33792⟩

/-- The operands of a key or value row in memory: from the page, or from its summary (10 R340, 11 R367). -/
def kvRow (s : State) (x : Ctx) (o : AttnOp) (j : Job) (sid p w h : Nat) : List Opd :=
  let a := o.kvAt p h
  match (pageOf s sid a.1).bind (neapSlot j sid) with
  | none =>
    let r := readPageOf s x sid a.1 (32768 * w + a.2) (o.dh * o.e)
    tab o.dh fun i =>
      let bad := ((r.2.drop (i * o.e)).take o.e).any id
      let c := if bad then 0 else ofLe ((r.1.drop (i * o.e)).take o.e)
      if o.kv == .log16 then Opd.one (c, 0) bad
      else let v := ieeeTo32 o.kv.ieee c; let k := f32ToLog16 v.1; Opd.one (k.1, v.2 ||| k.2) bad
  | some k =>
    let f := (summaryRun s k).addr + 16896 * w
    let e0 := a.2 / o.e
    tab o.dh fun i =>
      let c := readT1 s x (f + e0 + i) 1
      let k := readT1 s x (f + 16384 + (e0 + i) / 32) 1
      Opd.one (log8To16 (ofLe c.1) (ofLe k.1)) (c.2.any id || k.2.any id)

/-- What a row at query position `t` reads of the keys and values before position `pos`, or of all that it admits when the command writes
none (10 R336, R340). -/
def AttnOp.kvRuns (s : State) (o : AttnOp) (j : Job) (sid pos t h : Nat) : List Run :=
  let lo := if o.win == 0 then 0 else t + 1 - o.win
  let hi := if o.kvwr then min pos (t + 1) else t + 1
  (tab (hi - lo) fun i => lo + i).flatMap fun p =>
    let a := o.kvAt p h
    match (pageOf s sid a.1).bind (neapSlot j sid) with
    | some k => [summaryRun s k]
    | none => [0, 1].flatMap fun w => runPieces [⟨some sid, 65536 * a.1 + 32768 * w, 32768⟩] a.2 (o.dh * o.e)

/-- What the rows of member `m` read. -/
def AttnOp.parts (s : State) (o : AttnOp) (j : Job) (m sid pos core : Nat) : List Part :=
  (List.range o.npos).flatMap fun t => (List.range o.hq).map fun h =>
    let lines := (m * o.npos + t) * o.lines
    let mine := h :: if o.kvwr && h == 0 then tab (2 * o.hkv) fun i => o.hq + i else []
    { unit := o.row m t h, core := core
      elems := mine.flatMap fun l => tab o.dh fun i => (o.qkv, (lines + l) * o.dh + i)
      runs := (o.kvRuns s j sid pos (pos + t) (h / (o.hq / o.hkv))).eraseDups }

/-! ### Rows (10 R336-R338) -/

/-- Every occurrence in a unit. -/
def Rep.in (u : OUnit) (r : Rep) : Rep := ⟨r.fl, r.occs.map fun o => { o with unit := u }⟩

/-- A sum on the array in K-groups of `gk` terms: the group and its report (04 R125). -/
def attnSum (f : AccFmt) (gk split row col : Nat) (ts : List (Option (Opd × Opd × List LogVal))) : Acc × Rep :=
  (chunksOf gk (ts.length + 1) ts).zipIdx.foldl (fun (a : Acc × Rep) g =>
    let old := a.2.occs.any fun u => u.unit == .accum && u.fl &&& fOF != 0
    let k := logKg f 16 split row col g.2 old a.1 g.1
    (k.1, a.2.and k.2)) (Acc.none, Rep.nil)

/-- The accumulator format of an operation. -/
def AttnOp.fmt (o : AttnOp) : AccFmt := if o.acc == 2 then .cf32 else .f32

/-- One admitted position as its row sees it: score with its report, the value row, and whether it is poisoned. -/
structure KvPos where
  x : Nat
  v : List Opd
  rep : Rep
  bad : Bool

/-- A position's score against a query (10 R336). A key element feeds every output of the row, a value element the output of its index
(03 R102): `i` is the position's place in its block. -/
def kvPos (s : State) (x : Ctx) (o : AttnOp) (j : Job) (sid row p i h : Nat) (q : List Opd) : KvPos :=
  let k := kvRow s x o j sid p 0 h
  let v := kvRow s x o j sid p 1 h
  let r := attnSum o.fmt 128 0 row 0 ((q.zip k).map fun z => some (z.1, z.2, []))
  let u := r.1.outcome
  let conv := Rep.all (k.zipIdx.map (fun d => Rep.of d.1.fl .array row 0 (d.2 / 128)) ++
    v.zipIdx.map fun d => Rep.of d.1.fl .array row d.2 (i / 512))
  ⟨u.1, v, (r.2.in .array).and ((Rep.of (if r.1.special then 0 else u.2) .array row 0 0).and conv), (k ++ v).any fun d => d.bad⟩

/-- A term as it enters the array: LOG16, or in two pieces (10 R337; 02 R66, R79). -/
def termOpd (split v : Nat) : Opd :=
  if split == 0 then Opd.one (f32ToLog16 v) false
  else let p := split3 v; ⟨p.1.1, p.1.2.1, 0, 0, p.2, false⟩

/-- The running state of a row: maximum, sum, weighted sums, and the report of all its work (10 R337). -/
structure AttnSt where
  m : Nat
  s : Acc
  o : List Acc
  rep : Rep

/-- The first state of a row. -/
def AttnSt.start (o : AttnOp) : AttnSt := ⟨inf32 + 0x80000000, Acc.none, List.replicate o.dh Acc.none, Rep.nil⟩

/-- The report of operations whose result every output of a row depends on (03 R102). -/
def rowOps (row : Nat) (l : List Flags) : Rep := Rep.all (l.map fun f => Rep.of f .sfu row 0 noKgrp)

/-- The weighted sums of one block from its terms (10 R337). -/
def blockOut (o : AttnOp) (row : Nat) (ts : List (Option Nat)) (ps : List (Option KvPos)) : List Acc × Rep :=
  let es := ts.map fun t => t.map (termOpd o.split)
  let none' := Opd.one (0, 0) false
  let rs := tab o.dh fun d =>
    attnSum o.fmt 512 o.split row d ((es.zip ps).map fun z => match z.1, z.2 with
      | some t, some p => some (t, p.v.getD d none', [])
      | _, _ => none)
  let conv := Rep.all (es.zipIdx.map fun e => match e.1 with
    | some t => Rep.of t.fl .array row 0 (e.2 / 512)
    | none => Rep.nil)
  (rs.map Prod.fst, (Rep.all (rs.map fun r => r.2)).in .array |>.and conv)

/-- Weighted sums rescaled by the factor of a sum, with the flags of each (08 R265). -/
def scaleAll (κ a b : Nat) (l : List Acc) : List (Acc × Flags) := l.map (smScale κ a b)

/-- Two lists of weighted sums added, with the flags of each: an IV where infinities of both signs first meet (03 R93). -/
def joinSums (a b : List (Acc × Flags)) : List (Acc × Flags) :=
  (a.zip b).map fun z =>
    let r := cadd z.1.1 z.2.1
    (r.1, z.1.2 ||| z.2.2 ||| r.2 ||| fIf (r.1.clash && !z.1.1.clash && !z.2.1.clash) fIV)

/-- The report of weighted sums by output (10 R338). -/
def sumsRep (row : Nat) (l : List (Acc × Flags)) : Rep := Rep.all (l.zipIdx.map fun v => Rep.of v.1.2 .array row v.2 noKgrp)

/-- One block of a row; a position that is not admitted is absent (08 R265; 10 R337). -/
def attnBlock (o : AttnOp) (row : Nat) (a : AttnSt) (ps : List (Option KvPos)) : AttnSt :=
  let κ := o.kappa
  let low := inf32 + 0x80000000
  let mb := maxOf (ps.filterMap fun p => p.map KvPos.x)
  let ts := ps.map fun p => match p with
    | some p => if mb == low then (none, f0) else smTerm κ p.x mb
    | none => (none, f0)
  let sb := blockSum (ts.map fun t => match t.1 with | some v => Acc.ofTerm v | none => Acc.none)
  let ob := blockOut o row (ts.map Prod.fst) ps
  let mn := (fminmax true a.m mb).1
  let up := !a.s.empty && fltV a.m mn
  let dn := !sb.1.empty && fltV mb mn
  let keep (l : List Acc) : List (Acc × Flags) := l.map fun v => (v, f0)
  let s1 := if up then smScale κ a.m mn a.s else (a.s, f0)
  let o1 := if up then scaleAll κ a.m mn a.o else keep a.o
  let s2 := if dn then smScale κ mb mn sb.1 else (sb.1, f0)
  let o2 := if dn then scaleAll κ mb mn ob.1 else keep ob.1
  let sr := cadd s1.1 s2.1
  let or' := joinSums o1 o2
  ⟨mn, sr.1, or'.map Prod.fst,
   Rep.all [a.rep, rowOps row (ts.map Prod.snd ++ [sb.2, s1.2, s2.2, sr.2]), ob.2, sumsRep row or']⟩

/-- A row against the final maximum in the Tsuron 2 order (08 R270, R271; DESIGN CHOICE, log 9): terms, their sum, weighted sums by block. -/
def attnCompat (b : FnBank) (o : AttnOp) (row m : Nat) (bs : List (List (Option KvPos))) : AttnSt × Nat :=
  let term (p : Option KvPos) : Option Nat × List Flags := match p with
    | none => (none, [])
    | some p =>
      let d := fsub p.x m
      let a := fmul o.kappa d.1
      let e := evalFn b true 1 a.1
      if p.x == inf32 + 0x80000000 then (some 0, []) else (some e.1, [d.2, a.2, e.2])
  let ts := bs.map fun l => l.map term
  let t := sumOf true ((ts.flatten).filterMap Prod.fst)
  let r := (ts.zip bs).foldl (fun (a : List Acc × Rep) z =>
    let ob := blockOut o row (z.1.map Prod.fst) z.2
    let c := joinSums (a.1.map fun v => (v, f0)) (ob.1.map fun v => (v, f0))
    (c.map Prod.fst, Rep.all [a.2, ob.2, sumsRep row c])) (List.replicate o.dh Acc.none, Rep.nil)
  (⟨m, Acc.none, r.1, (rowOps row ((ts.flatten).flatMap Prod.snd ++ [t.2])).and r.2⟩, t.1)

/-- The outputs of one row, the report of its work, and whether it was fully masked (10 R337, R338; 08 R266, R267): scores and weighted
sums report as the array, the rest as the special-function unit. -/
def attnOut (b : FnBank) (o : AttnOp) (row : Nat) (bs : List (List (Option KvPos))) : List Nat × Rep × Bool :=
  let all (v : Nat) : List Nat := List.replicate o.dh v
  let xs := bs.flatMap fun l => l.filterMap fun p => p.map KvPos.x
  let m := maxOf xs
  if xs.any isNan32 then (all nan32, Rep.nil, false)
  else if m == inf32 then (all nan32, rowOps row [fIV], false)
  else if m == inf32 + 0x80000000 then (all 0, Rep.nil, true)
  else
    let r : AttnSt × Nat × Flags :=
      if o.compat then let c := attnCompat b o row m bs; (c.1, c.2, f0)
      else
        let a := bs.foldl (attnBlock o row) (.start o)
        (a, a.s.outcome.1, a.s.outcome.2)
    let q := evalFn b o.compat 3 r.2.1
    let us := r.1.o.map fun v => let u := v.outcome; (u.1, if v.special then f0 else u.2)
    let ys := us.map fun u => fmul u.1 q.1
    (ys.map Prod.fst,
     Rep.all ([r.1.rep, rowOps row [r.2.2, q.2]] ++ us.zipIdx.map (fun u => Rep.of u.1.2 .array row u.2 noKgrp) ++
       [rowRep .sfu row 0 noKgrp (ys.map Prod.snd)]), false)

/-- The positions that a row at query position `t` admits, by blocks of 4,096 from position 0 (10 R336, R337). -/
def rowBlocks (s : State) (x : Ctx) (o : AttnOp) (j : Job) (sid row t h : Nat) (q : List Opd) : List (List (Option KvPos)) :=
  let lo := if o.win == 0 then 0 else t + 1 - o.win
  tab (t / 4096 + 1) fun b =>
    tab (min 4096 (t + 1 - 4096 * b)) fun i =>
      let p := 4096 * b + i
      if p < lo then none else some (kvPos s x o j sid row p i h q)

/-- The query elements of a row (10 R336). -/
def AttnOp.query (s : State) (x : Ctx) (o : AttnOp) (m t h : Nat) : List Opd :=
  tab o.dh fun i => qkvOpd s x o.qkv (((m * o.npos + t) * o.lines + h) * o.dh + i)

/-- The blocks of a row of member `m` of sequence `sid` at position `pos`. -/
def AttnOp.rowOf (s : State) (x : Ctx) (o : AttnOp) (j : Job) (m sid pos t h : Nat) : List (List (Option KvPos)) :=
  rowBlocks s x o j sid (o.row m t h) (pos + t) (h / (o.hq / o.hkv)) (o.query s x m t h)

/-- A row's running state after its first `k` blocks that hold an admitted position (08 R265; 13 R436). -/
def attnUpTo (s : State) (x : Ctx) (o : AttnOp) (j : Job) (m sid pos t h k : Nat) : AttnSt :=
  let first := (if o.win == 0 then 0 else pos + t + 1 - o.win) / 4096
  ((o.rowOf s x j m sid pos t h).take (first + k)).foldl (attnBlock o (o.row m t h)) (.start o)

/-- The work items of a row at query position `t`: one for each block that holds a position it admits, on the member's core (10 R339). -/
def AttnOp.blockItems (o : AttnOp) (core t : Nat) : List (Nat × Bool) :=
  List.replicate (t / 4096 + 1 - (if o.win == 0 then 0 else t + 1 - o.win) / 4096) (core, true)

/-- The tile of one row: member `m` of sequence `sid` at position `pos`, its query position `t` and head `h`. -/
def attnTile (s : State) (x : Ctx) (o : AttnOp) (j : Job) (m sid pos core t h : Nat) : Tile :=
  let x := { x with core := core }
  let row := o.row m t h
  let q := o.query s x m t h
  let bs := o.rowOf s x j m sid pos t h
  let r := attnOut (fnBank s) o row bs
  let ps := bs.flatMap fun l => l.filterMap id
  let bad := q.any (fun d => d.bad) || ps.any fun p => p.bad
  let w := o.y.emit s x row 0 (r.1.map fun v => (v, bad))
  let rep := Rep.all ([if h == 0 then kvRep s x o m t else Rep.nil] ++
    q.zipIdx.map (fun d => Rep.of d.1.fl .array row 0 (d.2 / 128)) ++ ps.map (fun p => p.rep) ++ [r.2.1, rowRep .sfu row 0 noKgrp w.2])
  ⟨row, row, w.1, rep, (if bad then o.dh else 0) + unassured o.y (tab o.dh fun i => row * o.dh + i), core, 0,
    b2n r.2.2, 0, 0, [], 0, 0, row, o.blockItems core (pos + t)⟩

/-- The tiles of a member's rows in order, cut where a broken walk fails to give an element (12 R376). -/
def attnTiles (s : State) (x : Ctx) (o : AttnOp) (j : Job) (m sid pos core : Nat) : List Tile × Option (Nat × Nat × Nat) :=
  takeTiles (tab (o.npos * o.hq) fun k =>
    let t := k / o.hq
    let h := k % o.hq
    let lines := (m * o.npos + t) * o.lines
    (missing s x (((if o.kvwr && h == 0 then tab (2 * o.hkv) fun i => o.hq + i else []) ++ [h]).flatMap (fun l =>
        tab o.dh fun i => (o.qkv, (lines + l) * o.dh + i)) ++ tab o.dh fun i => (o.y, o.row m t h * o.dh + i)),
      fun _ => attnTile s x o j m sid pos core t h))

/-! ### ATTN as a command -/

/-- The members' positions and cores. -/
def memberOf (s : State) (sid : Nat) : Member :=
  match seqRec s sid with
  | some y => { sid := sid, pos := y.pos, core := y.core }
  | none => { sid := sid }

/-- Runs the members one after another: keys and values are written first, then the rows are computed; `none` when a page cannot
be had. -/
def attnMembers (s : State) (j : Job) (o : AttnOp) : List (Member × Nat) → Option (State × List Tile × Option (Nat × Nat × Nat))
  | [] => some (s, [], none)
  | (m, i) :: l =>
    if m.phase == .ended then attnMembers s j o l
    else match writeRuns true j.q j.n m.core o.kvCode s (kvWrites s j.ctx o i m.sid m.pos) with
    | none => none
    | some s =>
      let reads := o.pages m.pos
      let s := logUnmapped s j.loc (reads.map fun v => (m.sid, v))
      let s := countNeaps s j.q j.n (neapPages s j m.sid reads).length
      let t := attnTiles s j.ctx o j i m.sid m.pos m.core
      match t.2 with
      | some f => some (s, t.1, some f)
      | none => (attnMembers s j o l).map fun r => (r.1, t.1 ++ r.2.1, r.2.2)

/-- Every member's KV pages are reached. -/
def attnReach (s : State) (j : Job) (o : AttnOp) (ms : List Member) : Bool × State :=
  ms.foldl (fun (a : Bool × State) m =>
    match a.2.job j.q j.n with
    | none => a
    | some j =>
      if m.phase == .ended then a
      else
        let r := reachKv a.2 j m.core m.sid (streamDeadline a.2 j m) (o.pages m.pos) (o.wpages m.pos)
        (a.1 && r.1, r.2)) (true, s)

/-- Positions in the longest row of a member at position `pos`. -/
def AttnOp.longest (o : AttnOp) (pos : Nat) : Nat := if o.win == 0 then pos + o.npos else min o.win (pos + o.npos)

/-- What the rows of all members read. -/
def AttnOp.allParts (s : State) (o : AttnOp) (j : Job) (ms : List Member) : List Part :=
  (ms.zipIdx.filter fun m => m.1.phase != .ended).flatMap fun m => o.parts s j m.2 m.1.sid m.1.pos m.1.core

/-- ATTN runs once its members stand in slots and its operands and pages are reached (10 R334-R338). -/
def attnGo (s : State) (j : Job) (o : AttnOp) : State :=
  let ms := j.members.map fun m => if m.phase == .ended then m else { memberOf s m.sid with missed := m.missed }
  if o.compat && ms.any fun m => m.phase != .ended && decide (2 ^ 20 < o.longest m.pos) then reject s j 1 1 0
  else
    let p := attnReach s j o ms
    if !p.1 then p.2
    else p.2.withJob j.q j.n fun s j => withOperands s j j.ctx [o.qkv] (o.allParts s j ms) fun s j =>
      match takePages s j fun s => (attnMembers s j o ms.zipIdx).map fun r => (r.1, r.2) with
      | (none, s) => s
      | (some (s, ts, f), _) => s.withJob j.q j.n fun s j =>
        let ns := ms.map fun m =>
          if m.phase == .ended then m
          else { m with
            phase := .issued
            neap := !(neapPages s j m.sid (o.pages m.pos)).isEmpty }
        let s := runTiles s { j with members := ns } ts f
        pumpWrites (settle (endRows s j.q j.n) j.q j.n)

/-- A command has its members from the time that its set is first read, each waiting (09 R298, R301; 11 R368). -/
def withMembers (s : State) (j : Job) (sids : List Nat) : State :=
  if j.members.isEmpty then s.setJob { j with members := sids.map (memberOf s), total := sids.length, finished := 0 } else s

/-- ATTN starts: its members' deadlines hold from now on, and they are brought into slots (09 R285, R305). -/
def runAttn (s : State) (j : Job) (o : AttnOp) : State :=
  (withMembers s j o.sids).withJob j.q j.n fun s j =>
    let r := bringIn s j j.liveSids
    if !r.1 then r.2 else r.2.withJob j.q j.n fun s j => attnGo s j o

/-- ATTN. -/
def attnCmd (q : BitVec 6) (n : BitVec 16) (s : State) : State :=
  startRow 0x0A q.toNat n.toNat s (fun s j => prepAttn s j.ctx j.members.isEmpty j.cmd) runAttn

/-- ATTN. -/
def execAttn (q : BitVec 6) (n : BitVec 16) (s : State) : Host.Outcome State Fault Refusal := .next (attnCmd q n s)
/-- NEAP_STREAM_DEADLINE. -/
def execNeapStreamDeadline (d : BitVec 28) (lt : Dword) (s : State) : Host.Outcome State Fault Refusal :=
  .next (neapStreamDeadline d lt s)

end Sys2Proof.Machine
end

