-- ==== Sys2Proof/Machine/Feeders.lean ====
section
/-! DEFINITION. The feeder queues and the stationary banks of a core (05 R151, R154-R162, R165): which entry of which queue holds a
term, what the queues fetch ahead, and the loads and swaps of banks. The order of waves, pass by pass and row by row within a pass, and
of column entries, slot by slot, is a DESIGN CHOICE (log 36). -/
namespace Sys2Proof.Machine

/-- Physical rows and columns that a set's cells span: a quadrant's in Q16 (05 R150). -/
def ArrOp.side (o : ArrOp) : Nat := if o.shape == 1 then 16 else 32
/-- Entries that one feeder queue holds for a set: 64, or 32 in Q16, where two sets share a feeder (05 R165). -/
def ArrOp.depth (o : ArrOp) : Nat := if o.shape == 1 then 32 else 64
/-- The row-feeder queue of position `i` of a quadrant: `32 * h + f` for queue `h` of feeder `f` (05 R150, R165). -/
def ArrOp.rowKey (o : ArrOp) (qd i : Nat) : Nat := if o.shape == 1 then 32 * (qd % 2) + 16 * (qd / 2) + i else i
/-- The column-feeder queue of column `j` of a quadrant. -/
def ArrOp.colKey (o : ArrOp) (qd j : Nat) : Nat := if o.shape == 1 then 32 * (qd / 2) + 16 * (qd % 2) + j else j
/-- Row feeders that drive a set: one for each chain position, or each row of cells in `OUTPUT` mode (05 R150, R156). -/
def ArrOp.drives (o : ArrOp) : Nat := if o.stat == 1 then o.side else o.c
/-- The slots of a lane in use: one for each piece (05 R157). -/
def ArrOp.slots (o : ArrOp) : Nat := o.split + 1

/-! ### Row feeders -/

/-- Where term `p` of streamed line `r` on pass `q` enters, of `R` lines: position, entry and field (05 R154-R156). -/
def ArrOp.rowPlace (o : ArrOp) (R r q p : Nat) : Nat × Nat × Nat :=
  if o.stat == 1 then
    let n := groupsOf o.acc o.shadow
    (r / n, (q * o.c + p / 16) * n + r % n, p % 16)
  else (p / o.g, q * R + r, p % o.g)
/-- The line, pass and first term of entry `e` of position `i`. -/
def ArrOp.rowLine (o : ArrOp) (R i e : Nat) : Nat × Nat × Nat :=
  if o.stat == 1 then
    let n := groupsOf o.acc o.shadow
    (i * n + e % n, e / n / o.c, e / n % o.c * 16)
  else (e % R, e / R, i * o.g)
/-- Entries that a K-group takes from one row feeder: its waves. -/
def ArrOp.rowCount (o : ArrOp) (R : Nat) : Nat := passCount o.split * (if o.stat == 1 then o.c * groupsOf o.acc o.shadow else R)
/-- The entries that the queue of position `i` fetches ahead of a K-group with the given lines. -/
def ArrOp.rowFill (o : ArrOp) (ls : List (List (List (Option Opd)))) (i : Nat) : List FeedEntry :=
  tab (if ls.isEmpty then 0 else min o.depth (o.rowCount ls.length)) fun e =>
    let w := o.rowLine ls.length i e
    let l := (ls.getD w.1 []).getD w.2.1 []
    tab 16 fun f => l.getD (w.2.2 + (if o.stat == 1 then f else f % o.g)) none
/-- The lines as the array meets them: from the queues as far as they hold them, the rest fetched as it goes. -/
def ArrOp.rowTake (o : ArrOp) (queue : Nat → List FeedEntry) (ls : List (List (List (Option Opd)))) : List (List (List (Option Opd))) :=
  ls.zipIdx.map fun r => r.1.zipIdx.map fun q => q.1.zipIdx.map fun d =>
    let w := o.rowPlace ls.length r.2 q.2 d.2
    match (queue w.1)[w.2.1]? with
    | some e => e.getD w.2.2 none
    | none => d.1

/-! ### Column feeders -/

/-- Where term `p` of slot `sl` (in `OUTPUT` mode, pass `sl`) of line `u` comes: column, entry and field (05 R151, R154, R156). -/
def ArrOp.colPlace (o : ArrOp) (u sl p : Nat) : Nat × Nat × Nat :=
  if o.stat == 1 then (u, sl * o.c + p / 16, p % 16)
  else
    let per := 16 / o.g * o.p
    let chain := u / per
    (chain % o.side, sl * o.side + chain / o.side * o.c + p / o.g, (u % per / o.p * o.g + p % o.g) * o.p + u % o.p)
/-- The line, slot or pass, and term of field `f` of entry `e` of column `j`. -/
def ArrOp.colTerm (o : ArrOp) (j e f : Nat) : Nat × Nat × Nat :=
  if o.stat == 1 then (j, e / o.c, e % o.c * 16 + f)
  else
    let row := e % o.side
    let lane := f / o.p
    (((row / o.c * o.side + j) * (16 / o.g) + lane / o.g) * o.p + f % o.p, e / o.side, row % o.c * o.g + lane % o.g)
/-- Entries that a K-group takes from one column feeder. -/
def ArrOp.colCount (o : ArrOp) : Nat := if o.stat == 1 then passCount o.split * o.c else o.slots * o.side
/-- The entries that the queue of column `j` fetches ahead, from the fields of each line by slot or pass. -/
def ArrOp.colFill (o : ArrOp) (ls : List (List (List (Option Opd)))) (j : Nat) : List FeedEntry :=
  tab (if ls.isEmpty then 0 else min o.depth o.colCount) fun e =>
    tab (16 * (if o.stat == 1 then 1 else o.p)) fun f =>
      let w := o.colTerm j e f
      ((ls.getD w.1 []).getD w.2.1 []).getD w.2.2 none
/-- The fields of each line as the cells take them, from the queues as far as they hold them. -/
def ArrOp.colTake (o : ArrOp) (queue : Nat → List FeedEntry) (ls : List (List (List (Option Opd)))) : List (List (List (Option Opd))) :=
  ls.zipIdx.map fun u => u.1.zipIdx.map fun sl => sl.1.zipIdx.map fun d =>
    let w := o.colPlace u.2 sl.2 d.2
    match (queue w.1)[w.2.1]? with
    | some e => e.getD w.2.2 none
    | none => d.1

/-! ### Lines of a K-group -/

/-- Slot `sl` of an operand: its piece, alone (05 R157). -/
def Opd.slot (d : Opd) (sl : Nat) : Opd := if sl == 0 then { d with p2 := 0, p3 := 0 } else ⟨d.piece sl, 0, 0, 0, 0, d.bad⟩
/-- An operand put together from its slots. -/
def joinSlots (l : List (Option Opd)) : Option Opd :=
  match l with
  | some d :: r => some { d with p2 := ((r.getD 0 none).map Opd.p1).getD 0, p3 := ((r.getD 1 none).map Opd.p1).getD 0 }
  | _ => none

/-- The streamed lines of a K-group by pass. -/
def ArrOp.streamLines (s : State) (x : Ctx) (o : ArrOp) (bx : TileBox) (kg : Nat) : List (List (List (Option Opd))) :=
  tab (o.streams bx) fun r => o.onPasses (o.stat == 2) (o.line s x bx kg (o.stat == 2) r)
/-- The lines of the other operand, by slot, or by pass in `OUTPUT` mode. -/
def ArrOp.stayLines (s : State) (x : Ctx) (o : ArrOp) (bx : TileBox) (kg : Nat) : List (List (List (Option Opd))) :=
  tab (o.stays bx) fun u =>
    let l := o.line s x bx kg (o.stat != 2) u
    if o.stat == 1 then o.onPasses true l else tab o.slots fun sl => l.map fun d => d.map fun d => d.slot sl

/-! ### Banks (05 R157-R162) -/

/-- The bank in use. -/
def Banks.active (b : Banks) : Option StayBlock := if b.onB then b.b else b.a
/-- The other bank. -/
def Banks.idle (b : Banks) : Option StayBlock := if b.onB then b.a else b.b
/-- The idle bank holds a block, or is empty. -/
def Banks.load (b : Banks) (x : Option StayBlock) : Banks := if b.onB then { b with a := x } else { b with b := x }
/-- A swap makes the idle bank active (05 R160). -/
def Banks.swap (b : Banks) : Banks := { b with onB := !b.onB }
/-- Banks that hold nothing of some items are left as they are; the others are marked empty (05 R162). -/
def Banks.without (b : Banks) (p : StayBlock → Bool) : Banks := { b with a := b.a.filter fun x => !p x, b := b.b.filter fun x => !p x }
/-- A block belongs to a K-group of a tile of a command. -/
def StayBlock.isFor (x : StayBlock) (q n tile kg : Nat) : Bool := x.q == q && x.n == n && x.tile == tile && x.kg == kg

/-- Loads the block of a K-group, from the column queues as far as they hold it, under the table epoch in force (05 R159, R162). -/
def loadBlock (s : State) (x : Ctx) (o : ArrOp) (queue : Nat → List FeedEntry) (tile kg : Nat) : StayBlock :=
  ⟨x.q, x.n, tile, kg, s.tbl.dqEpoch,
   (o.colTake queue (o.stayLines s x (o.box tile) kg)).map fun u => tab (u.headD []).length fun k => joinSlots (u.map fun l => l.getD k none)⟩

/-- The quadrant that runs a tile of an item. -/
def ArrOp.quad (o : ArrOp) (it : Item) (tile : Nat) : Nat := if o.shape == 1 then tile - it.tile else 0

/-- The queues of a set's feeders are replaced by what they fetch ahead. -/
def ArrOp.refeed (o : ArrOp) (qd : Nat) (rows cols : List (List (List (Option Opd)))) (k : Core) : Core :=
  { k with
    rowQ := (List.range o.drives).foldl (fun t i => t.put (o.rowKey qd i) (o.rowFill rows i)) k.rowQ
    colQ := (List.range o.side).foldl (fun t j => t.put (o.colKey qd j) (o.colFill cols j)) k.colQ }

/-- The product positions of a K-group that hold no term: what its lines leave of the tile's full rows and slots and of the reduction
indices (01 R47, 05 R176). -/
def ArrOp.bubbles (o : ArrOp) (u : KgOps) : Nat :=
  let terms (a b : List (Option Opd)) : Nat := ((a.zip b).filter fun p => p.1.isSome && p.2.isSome).length
  let held := u.acts.flatMap fun a => u.ws.map fun w => ((a.zip w).map fun p => terms p.1 p.2).foldl (· + ·) 0
  passCount o.split * o.tileRows * o.tileCols * o.gk - held.foldl (· + ·) 0

/-- One open set of a core swaps to its block, loading it first where the idle bank does not hold it, and runs its K-group; the retired
bank then loads the next K-group's block, `nextItem`'s after the last, and the feeders fetch ahead (05 R159-R161, R165). -/
def swapSet (s : State) (x : Ctx) (o : ArrOp) (it : Item) (nextItem : Option StayBlock) (k : Core) (st : OpenSet) : Core × OpenSet :=
  let qd := o.quad it st.tile
  let bx := o.box st.tile
  let colQ (j : Nat) : List FeedEntry := k.colQ.get (o.colKey qd j) []
  let more := decide (st.kg + 1 < st.nkg)
  let b0 := k.banks.get qd {}
  let b1 :=
    if (b0.idle.map fun x' => x'.isFor x.q x.n st.tile st.kg).getD false then b0
    else b0.load (some (loadBlock s x o (fun _ => []) st.tile st.kg))
  let b := if o.stat == 1 then b0 else b1.swap
  let rows := o.rowTake (fun i => k.rowQ.get (o.rowKey qd i) []) (o.streamLines s x bx st.kg)
  let held : List (List (Option Opd)) := match b.active with | some y => y.ops | none => []
  let stay := if o.stat == 1 then o.colTake colQ (o.stayLines s x bx st.kg) else held.map (o.onPasses (o.stat != 2))
  let ops : KgOps := if o.stat == 2 then ⟨stay, rows⟩ else ⟨rows, stay⟩
  let st' := o.runKg s x ops st
  let b' :=
    if o.stat == 1 then b
    else b.load (if more then some (loadBlock s x o colQ st.tile (st.kg + 1)) else nextItem)
  let nextRows := if more then o.streamLines s x bx (st.kg + 1) else []
  let ahead := st.kg + (if o.stat == 1 then 1 else 2)
  let nextCols := if decide (ahead < st.nkg) then o.stayLines s x bx ahead else []
  let idle := if s.str.freeze then 0 else o.bubbles ops
  (o.refeed qd nextRows nextCols { k with banks := k.banks.put qd b', bubble := add64 k.bubble idle }, st')

/-- A core whose set starts again, or that gives its item up, holds nothing ahead for it (04 R145, 05 R162). -/
def Core.flush (k : Core) (p : StayBlock → Bool) : Core :=
  { k with rowQ := [], colQ := [], banks := k.banks.map fun b => (b.1, b.2.without p) }

end Sys2Proof.Machine
end

