-- ==== Sys2Proof/Machine/Scan.lean ====
section
/-! DEFINITION. The SCAN command and the carries between its spans (06 R203-R208, R213; 13 R416). -/
namespace Sys2Proof.Machine

/-- The context of a SCAN: with `BOUND` it works for the sequence it names (13 R416). -/
def scanCtx (j : Job) : Ctx := { j.ctx with sid := if bit (j.body 0x10) 52 then some (fld (j.body 0x10) 32 20) else none }

/-- SCAN's checks (09 R275; 13 R416). -/
def chkScan (s : State) (j : Job) : Except Bad ScanOp := do
  ownAll s j.q (scanCtx j).sid.toList
  prepScan s (scanCtx j) j.cmd

/-- The final states leave with a tile, with the flags of their conversion (06 R192, R213). -/
def chunkFinals (s : State) (x : Ctx) (o : ScanOp) (finals : List (Nat × List Lane)) (t : Tile) : Tile :=
  let rep := Rep.all (finals.flatMap fun f => (finalWrites s x o f.1 f.2).2.zipIdx.map fun g =>
    seamRep (o.row f.1 (o.len - 1)) (g.2 % o.d) [g.1])
  let u := addFinals s x o finals t
  { u with rep := u.rep.and rep }

/-- A span of sequence `q` runs from its carry: its tiles wait for their commits, and the carry of the next span is written by a stream
(06 R204-R207). -/
def openSpan (s : State) (q n : Nat) (o : ScanOp) (seq k : Nat) : State :=
  s.withJob q n fun s j =>
    let x := scanCtx j
    match o.spans[k]? with
    | none => s
    | some span =>
      let c0 := span.headD 0
      let i := if k == 0 then initCarry s x o seq else (readCarry s x o seq c0, Rep.nil)
      let r := runSpan s x o seq span i.1 (k == 0 && o.init.isNone) i.2
      let finals := if k + 1 == o.spans.length then j.finals ++ [(seq, r.last.map Hel.stored)] else j.finals
      let new := r.tiles.filter fun t => decide (t.num < j.total)
      let made := j.finished + j.tiles.length + new.length
      let new := if made == o.seqs * o.chunks && j.fail.isNone then
          (match new.reverse with
          | t :: ts => (chunkFinals s x o finals t :: ts).reverse
          | [] => [])
        else new
      let s := placeTiles (s.setJob { j with
        tiles := j.tiles ++ new
        finals := finals
        spans := j.spans.set seq (k + 1) }) q n new
      match o.spans[k + 1]? with
      | none => s
      | some next => pumpWrites (queueWr s q n (cutWr s false (o.home c0) (o.carryWrite seq (next.headD 0) r.next)))

/-- A chunked SCAN starts: the first span of every sequence runs (06 R204). -/
def startChunks (s : State) (j : Job) (o : ScanOp) : State :=
  let b := scanBad s (scanCtx j) o
  let n := match b with | some f => f.1 | none => o.seqs * o.chunks
  let s := s.setJob { (j.run []) with
    fetched := j.fetched
    total := n
    fail := b.map Prod.snd
    spans := List.replicate o.seqs 0 }
  let s := trace s 0x02 0 0xFF j.q j.n j.op n
  settle ((List.range o.seqs).foldl (fun s k => openSpan s j.q j.n o k 0) s) j.q j.n

/-- SCAN starts: a bound sequence is brought in, operands are prepared, and the scan runs in its mode (06 R203; 09 R285). -/
def runScan (s : State) (j : Job) (o : ScanOp) : State :=
  let x := scanCtx j
  let r := match x.sid with | some sid => bringIn s j [sid] | none => (true, s)
  if !r.1 then r.2
  else
    let whole := match x.sid, o.fin with
      | some sid, some t => [sid, b2n (t.addr == 0 && decide (stateSize s x ≤ t.dense))]
      | _, _ => []
    r.2.withJob j.q j.n fun s j =>
      let j := { j with work := whole }
      withOperands (s.setJob j) j x o.ins o.parts fun s j =>
        if o.chunked then startChunks s j o else let t := seqTiles x o s; runTiles s j t.1 t.2

/-- SCAN. -/
def scanRow (q : BitVec 6) (n : BitVec 16) (s : State) : State := startRow 0x08 q.toNat n.toNat s chkScan runScan

/-- The core of the next span asks for its carry, once (06 R207). -/
def askCarry (s : State) (j : Job) (o : ScanOp) (seq c : Nat) : State :=
  if j.parts.any fun p => p.unit == o.carryUnit seq c then s
  else
    let ps := o.carryPieces seq c
    issueReads (s.setJob { j with ask := some (j.ask.getD [] ++ ps), parts := j.parts ++ ps }) j.q j.n

/-- A span runs once its carry has landed and its pages are reached. -/
def carryOn (s : State) (j : Job) (o : ScanOp) (seq c k : Nat) : State :=
  (askCarry s j o seq c).withJob j.q j.n fun s j =>
    let a := touchAll s (o.home c) (some (j.q, j.n)) ((o.ins.flatMap fun t => t.pages s (scanCtx j)).eraseDups)
    if !landedOn s j (o.carryUnit seq c) (o.home c) || !a.1 then a.2
    else (openSpan a.2 j.q j.n o seq k).withJob j.q j.n fun s j =>
      settle (s.setJob { j with fetched := j.fetched.filter fun f => f.unit != o.carryUnit seq c }) j.q j.n

/-- SEAM_CARRY_READY (06 R207): with the carry's write acknowledged, the core of the next span reads it, and runs the span once it has
landed. -/
def seamCarryReady (q : BitVec 6) (n : BitVec 16) (seq : BitVec 12) (chunk : BitVec 24) (s : State) : State :=
  s.withJob q.toNat n.toNat fun s j =>
    if j.op != 0x08 || j.phase != .running || !s.awake || s.stopped then s
    else match j.spans[seq.toNat]?, chkScan s j with
      | some k, .ok o =>
        if k == 0 || (o.spans[k]?.map fun l => l.headD 0) != some chunk.toNat || !written s j (o.carryAt seq.toNat chunk.toNat) (4 * o.size)
        then s
        else carryOn s j o seq.toNat chunk.toNat k
      | some _, .error b => malform s j b.cause b.detail b.aux
      | none, _ => s

/-- SCAN. -/
def execScan (q : BitVec 6) (n : BitVec 16) (s : State) : Host.Outcome State Fault Refusal := .next (scanRow q n s)
/-- SEAM_CARRY_READY. -/
def execSeamCarryReady (q : BitVec 6) (n : BitVec 16) (seq : BitVec 12) (chunk : BitVec 24) (s : State) :
    Host.Outcome State Fault Refusal := .next (seamCarryReady q n seq chunk s)

end Sys2Proof.Machine
end

