-- ==== Sys2Proof/Machine/Cores.lean ====
section
/-! DEFINITION. Matrix tiles on the cores: the array commands, deques and stealing, K-groups, saturation, drains, preemption and
resumption (01 R34-R37; 04 R131-R148; 05 R152, R160; 13 R434-R437). -/
namespace Sys2Proof.Machine

/-! ### Placing items -/

/-- The checks of an array command, its bucket among them (13 R440, 14 R456). -/
def chkArray (s : State) (j : Job) : Except Bad ArrOp := do
  let o ← prepArray s j.ctx j.cmd
  check (!o.reduce || bucketOk s (bw j.cmd 5) (o.batch * o.m * o.n)) (badField 0x38)
  return o

/-- An array command starts: its bucket opens and its items are placed (01 R34; 13 R425; 14 R457). -/
def runArray (s : State) (j : Job) (o : ArrOp) : State :=
  if o.reduce && bucketWaits s (bw j.cmd 5) then s.setJob { j with tagWait := true }
  else withOperands s j j.ctx o.ins (o.parts j.ctx) fun s j =>
    let s := if o.reduce then openBucket s j (bw j.cmd 5) else s
    let b := o.firstBad s j.ctx
    let n := match b with | some f => f.1 | none => o.tiles
    let its := o.items n
    let s := s.setJob { j with
      phase := .running
      tagWait := false
      attempt := s.cas.attempt
      total := n
      finished := 0
      fail := b.map Prod.snd }
    let s := trace s 0x02 0 0xFF j.q j.n j.op its.length
    settle (its.foldl (fun s t => placeItem s (t % Config.cores) ⟨j.q, j.n, t, true⟩) s) j.q j.n

/-- The row of an array command of opcode `op`. -/
def arrayRow (op : Nat) (q : BitVec 6) (n : BitVec 16) (s : State) : State := startRow op q.toNat n.toNat s chkArray runArray

/-! ### Running items -/

/-- An item is a matrix tile of an array command. -/
def State.isTile (s : State) (it : Item) : Bool := match s.job it.q it.n with | some j => j.isArray | none => false
/-- The matrix tile that a core takes next, when its next item is one (01 R34, R46). -/
def State.nextTile (s : State) (c : Nat) : Option Item := (s.nextItem c).filter s.isTile

/-- The open sets of an item: one for each of its tiles (04 R131, 05 R152). -/
def openSets (o : ArrOp) (total tile : Nat) (half : Bool) : List OpenSet :=
  (o.itemOf total tile).map fun t => o.fresh t 0 0 half

/-- `f` with the operation of a running item; a command whose descriptors no longer pass its checks is MALFORMED (DESIGN CHOICE, log 21). -/
def withOp (s : State) (q n : Nat) (f : State → Job → ArrOp → State) : State :=
  s.withJob q n fun s j =>
    match prepArray s j.ctx j.cmd with
    | .error b => malform (dropItems s q n) j b.cause b.detail b.aux
    | .ok o => f s j o

/-- An open set may run its next K-group. -/
def OpenSet.ready (st : OpenSet) : Bool := !st.satHit && decide (st.kg < st.nkg)
/-- An open set has run its last K-group. -/
def OpenSet.ended (st : OpenSet) : Bool := !st.satHit && st.kg == st.nkg

/-- The open rows of an operation in native mode, one at least (04 R123). -/
def ArrOp.openRows (o : ArrOp) : Nat := max 1 (o.c * groupsOf o.acc false * o.g / (16 * o.p))

/-- The rows that a draining set still holds, of the open rows of its command (04 R132). -/
def drainShare (s : State) (p : Item × OpenSet) : Nat × Nat :=
  match s.job p.1.q p.1.n with
  | none => (0, 1)
  | some j => match prepArray s j.ctx j.cmd with
    | .error _ => (0, 1)
    | .ok o => (o.streams (o.box p.2.tile), o.openRows)

/-- `rows` more rows of an operation fit beside the sets that drain (04 R132). -/
def groupsFree (s : State) (o : ArrOp) (rows : Nat) (l : List (Item × OpenSet)) : Bool :=
  l.all fun p => let d := drainShare s p; decide (d.1 * o.openRows + rows * d.2 ≤ d.2 * o.openRows)

/-- A set of an operation may open beside the sets that drain: in native mode once its first wave's groups are free, in shadow mode in the
half that no draining set lies in (04 R132, R133). -/
def mayOpen (s : State) (o : ArrOp) (half : Bool) (l : List (Item × OpenSet)) : Bool :=
  l.isEmpty || (if o.shadow then l.all fun p => p.2.half != half && (match s.job p.1.q p.1.n with | some j => j.shadow | none => true)
    else groupsFree s o 1 l)

/-- A core whose sets have all ended leaves them to drain, once no others do (04 R132). -/
def Core.retire (k : Core) : Core :=
  match k.run with
  | some r => if k.draining.isEmpty && r.sets.all OpenSet.ended then { k with run := none, draining := r.sets.map fun u => (r.item, u) } else k
  | none => k

/-- The part of its command that an item works on: a matrix item's first tile, else the work of its tiles. -/
def Job.unitOf (j : Job) (it : Item) : Nat := if j.isArray then it.tile else it.tile / 1024

/-- A core without an accumulating item takes its next one, once its operands are there, and opens its sets (01 R36; 04 R131-R133). -/
def loadItem (s : State) (c : Nat) : State :=
  let k := if (s.nextTile c).isSome then (s.core c).retire else s.core c
  match k.run, s.nextTile c with
  | none, some it =>
    withOp s it.q it.n fun s j o =>
      if landedOn s j (j.unitOf it) c && mayOpen s o k.half k.draining then
        s.setCore c { k.without it with
          run := some ⟨it, openSets o j.total it.tile k.half⟩
          half := k.half != o.shadow
          idleSince := 0 }
      else s
  | _, _ => s

/-- The first block of the item that a core takes next, for a bank to load during the last K-group of the running one; none while its
operands may still have to rise (05 R159). -/
def nextBlock (s : State) (c : Nat) : Option StayBlock :=
  match s.nextTile c with
  | none => none
  | some it => match s.job it.q it.n with
    | none => none
    | some j => match prepArray s j.ctx j.cmd with
      | .error _ => none
      | .ok o =>
        if o.stat == 1 || o.shape == 1 || !(o.ins.all fun t => (t.pages s j.ctx).isEmpty) then none
        else some (loadBlock s j.ctx o (fun _ => []) it.tile 0)

/-- Every open set of a core that may run swaps and runs its next K-group, each quadrant on its own; a load whose pages still rise holds the
swap, and a set waits for groups that drain (04 R132; 05 R152, R160, R161). -/
def runCore (s : State) (c : Nat) : State :=
  match (s.core c).run with
  | none => s
  | some r =>
    if !r.sets.any OpenSet.ready then s
    else withOp s r.item.q r.item.n fun s j o =>
      let a := touchAll s c (some (j.q, j.n)) ((o.ins.flatMap fun t => t.pages s j.ctx).eraseDups)
      if !a.1 then a.2
      else
        let nb := nextBlock a.2 c
        let u := r.sets.foldl (fun (u : Core × List OpenSet) st =>
          if st.ready && (o.shadow || groupsFree a.2 o (o.streams (o.box st.tile)) u.1.draining) then
            let v := swapSet a.2 j.ctx o r.item nb u.1 st
            (v.1, u.2 ++ [v.2])
          else (u.1, u.2 ++ [st])) (a.2.core c, [])
        a.2.setCore c { u.1 with run := some { r with sets := u.2 } }

/-- SWAP (05 R160). -/
def swapRow (c : BitVec 8) (s : State) : State :=
  let c := c.toNat
  if !s.awake || s.coreStopped c then s else runCore (loadItem s c) c

/-- The saturation events of a core's open sets are resolved, with the restarts counted; a set that starts again finds its banks and
feeders empty (04 R136, R137, R139). -/
def resolveCore (s : State) (c : Nat) : State :=
  match (s.core c).run with
  | none => s
  | some r =>
    if !r.sets.any OpenSet.satHit then s
    else withOp s r.item.q r.item.n fun s _ o =>
      let l := r.sets.map fun st => if st.satHit then o.resolve st else (st, none)
      let n := l.filterMap Prod.snd
      let again (b : StayBlock) : Bool := l.any fun u => u.2.isSome && b.tile == u.1.tile
      let k := { s.core c with run := some { r with sets := l.map Prod.fst } }
      let s := s.setCore c (if n.isEmpty then k else k.flush again)
      count (count s c 14 n.length) c 15 (n.foldl (· + ·) 0)

/-- SATURATION_EVENT (04 R136); units in a thermal halt stand (15 R501). -/
def saturationRow (c : BitVec 8) (s : State) : State := if s.awake && !s.inp.thermHalt then resolveCore s c.toNat else s

/-- A finished open set drains into a tile that waits for its commit (04 R131, R140). -/
def drainSet (c : Nat) (s : State) (j : Job) (o : ArrOp) (st : OpenSet) : State :=
  s.withJob j.q j.n fun s j =>
    let d := o.drain s j.ctx c ⟨j.drained, j.ranks, j.finished + j.tiles.length⟩ st
    s.setJob { j with tiles := j.tiles ++ [d.1], drained := d.2.vals, ranks := d.2.ranks }

/-- The sets of a core that drain next: those left to drain, else the finished ones of the running item (04 R132). -/
def Core.drains (k : Core) : Option (Item × List OpenSet) :=
  match k.draining, k.run with
  | p :: l, _ => some (p.1, (p :: l).map Prod.snd)
  | [], some r => if r.sets.any OpenSet.ended then some (r.item, r.sets.filter OpenSet.ended) else none
  | [], none => none

/-- A core after the drain of the sets that drain next: their groups are free. -/
def Core.drained (k : Core) : Core :=
  if !k.draining.isEmpty then { k with draining := [] }
  else match k.run with
    | none => k
    | some r =>
      let rest := r.sets.filter fun st => !st.ended
      { k with run := if rest.isEmpty then none else some { r with sets := rest } }

/-- The sets of a core that drain next do so. -/
def drainCore (s : State) (c : Nat) : State :=
  match (s.core c).drains with
  | none => s
  | some (it, sets) =>
    withOp s it.q it.n fun s j o => sets.foldl (fun s st => drainSet c s j o st) (s.setCore c (s.core c).drained)

/-- OPEN_SET_DRAIN (04 R131); units in a thermal halt stand (15 R501). -/
def drainRow (c : BitVec 8) (s : State) : State := if s.awake && !s.inp.thermHalt then drainCore s c.toNat else s

/-! ### Stealing (01 R35-R37) -/

/-- Stealable items on a deque. -/
def Core.loot (k : Core) : Nat := (k.deque.filter Item.steal).length
/-- A core has no work of its own. -/
def Core.empty (k : Core) : Bool := k.run.isNone && k.draining.isEmpty && k.deque.isEmpty && k.held.isEmpty

/-- The peer with the most stealable items, at least two, the lowest index winning a tie (01 R35). -/
def bestVictim (s : State) (l : List Nat) : Option Nat :=
  l.foldl (fun (b : Option Nat) v =>
    let n := (s.core v).loot
    if n < 2 then b
    else match b with
      | none => some v
      | some w => if (s.core w).loot < n || ((s.core w).loot == n && decide (v < w)) then some v else b) none

/-- A thief fetches the operands of the item that it has stolen (01 R36). -/
def fetchStolen (s : State) (c : Nat) (it : Item) : State :=
  s.withJob it.q it.n fun s j =>
    let mine := (j.parts.filter fun p => p.unit == j.unitOf it && p.core != c).map fun p => { p with core := c }
    issueReads (s.setJob { j with ask := j.ask.map fun a => a ++ mine }) it.q it.n

/-- A thief takes the topmost stealable item of a victim. -/
def robCore (s : State) (c v : Nat) : State :=
  match (s.core v).deque.find? Item.steal with
  | none => s
  | some it =>
    let s := s.setCore v ((s.core v).without it)
    let s := s.setCore c { s.core c with deque := [it], idleSince := 0 }
    let s := fetchStolen s c it
    let op := match s.job it.q it.n with | some j => j.op | none => 0
    trace s 0x06 2 c it.q it.n op v

/-- The cores of a cluster (01 R20). -/
def clusterCores (k : Nat) : List Nat := tab 16 fun i => 16 * k + i

/-- STEAL (01 R35): a poll of the thief's own cluster. -/
def stealRow (c : BitVec 8) (s : State) : State :=
  let c := c.toNat
  let k := s.core c
  if !s.awake || s.coreStopped c || !k.empty || !k.saved.isEmpty then s
  else match bestVictim s ((clusterCores (c / 16)).filter (· != c)) with
    | some v => robCore s c v
    | none => s.setCore c { k with idleSince := if k.idleSince == 0 then s.life.lt + 1 else k.idleSince }

/-- CLUSTER_POLL_TIMEOUT (01 R35): after 32 LT without a peer in its cluster the thief polls the other clusters, from the next
higher one on. -/
def clusterPoll (c : BitVec 8) (lt : Dword) (s : State) : State :=
  let s := advance s lt
  let c := c.toNat
  let k := s.core c
  let own := bestVictim s ((clusterCores (c / 16)).filter (· != c))
  if !s.awake || s.coreStopped c || !k.empty || !k.saved.isEmpty || own.isSome || k.idleSince == 0 ||
      decide (s.life.lt + 1 < k.idleSince + 32) then s
  else
    match (tab 15 fun i => (c / 16 + 1 + i) % 16).findSome? fun cl => bestVictim s (clusterCores cl) with
    | none => s
    | some v => robCore s c v

/-! ### Saving and restoring accumulators (04 R144-R148; 13 R434-R437) -/

/-- The cell and group that hold an output of a set in quadrant `qd` (04 R123, R133; 05 R151; the place within a chain is log 21). -/
def groupPlace (o : ArrOp) (half : Bool) (qd i j : Nat) : Nat × Nat :=
  let n := groupsOf o.acc o.shadow
  let row := if o.stat == 2 then j else i
  let slot := if o.stat == 2 then i else j
  let per := 16 / o.g * o.p
  let chain := slot / per
  let u := row * per + slot % per
  let grp := u % n + (if half && o.shadow then n else 0)
  if o.shape == 1 then (32 * (qd / 2 * 16 + u / n) + (qd % 2 * 16 + chain), grp)
  else (32 * (chain / 32 * o.c + u / n) + chain % 32, grp)

/-- The nibble of a group (04 R130). -/
def Group.nibble : Group → Nat
  | .log a => (b2n a.empty) <<< 3 + (b2n a.nan) <<< 2 + (b2n a.ninf) <<< 1 + b2n a.pinf
  | .int sat _ => (b2n sat) <<< 3
/-- The data words of a group. -/
def Group.words : Group → Nat × Nat
  | .log a => (a.s, a.e)
  | .int _ v => (unsgn 32 v, 0)
/-- A group read back from its words. -/
def groupOf (int : Bool) (nib s e : Nat) : Group :=
  if int then .int (bit nib 3) (sgn 32 s) else .log ⟨bit nib 3, bit nib 0, bit nib 1, bit nib 2, s, e⟩

/-- The 36 bytes of one cell from the groups it holds (04 R130, R145). -/
def cellBytes (o : ArrOp) (gs : List (Nat × Group)) : List Byte :=
  let cf := o.acc == 2
  let at' (j : Nat) : Group := ((gs.find? fun g => g.1 == j).map Prod.snd).getD o.empty
  let d := (tab (if cf then 4 else 8) fun j => (at' j).words).flatMap fun w => if cf then leBytes 4 w.1 ++ leBytes 4 w.2 else leBytes 4 w.1
  d ++ leBytes 4 ((tab (if cf then 4 else 8) fun j => (at' j).nibble <<< (4 * j)).foldl (· + ·) 0)

/-- `TH_CTRL` of an item (04 R145). -/
def thCtrl (o : ArrOp) (r restarts : Nat) : Nat :=
  r + restarts <<< 3 + o.acc <<< 6 + (b2n o.shadow) <<< 8 + (o.g.log2) <<< 9 + o.shape <<< 13 + (passCount o.split) <<< 16

/-- The least of some occurrences, if there is one. -/
def leastOcc (l : List Occ) : Option Occ :=
  l.foldl (fun (b : Option Occ) o => match b with | none => some o | some p => if o.lt p then some o else b) none
/-- The three words of a pending occurrence. -/
def occBytes (o : Option Occ) : List Byte :=
  match o with
  | none => List.replicate 12 0xFF
  | some o => leBytes 4 (min o.row 0xFFFFFFFF) ++ leBytes 4 o.col ++ leBytes 4 o.kgrp

/-- The tile header (04 R145). -/
def headerBytes (o : ArrOp) (it : Item) (st : OpenSet) (rep : Rep) : List Byte :=
  let bx := o.box it.tile
  let ivs := rep.occs.filter fun u => u.fl &&& fIV != 0
  let ofs := rep.occs.filter fun u => u.fl &&& fOF != 0
  let unit (l : List Occ) : Nat := match leastOcc l with | some u => u.unit.code | none => 0
  leBytes 4 (thCtrl o st.shift st.restarts) ++ leBytes 4 (if o.shape == 1 then it.tile / 4 else it.tile) ++ leBytes 4 st.kg ++
    leBytes 4 (if o.stat == 2 then bx.nc else bx.nr) ++ leBytes 4 (o.row0 bx) ++ leBytes 4 bx.n0 ++
    leBytes 4 (rep.fl.toNat + (unit ivs) <<< 8 + (unit ofs) <<< 12) ++ leBytes 4 (min ivs.length 0xFFFFFFFF) ++
    leBytes 4 (min ofs.length 0xFFFFFFFF) ++ occBytes (leastOcc ivs) ++ occBytes (leastOcc ofs) ++ leBytes 4 0

/-- The sets as they are saved: an item with poison starts again from K-group 0, one whose quadrants stand at different shifts
from the first pass (12 R390; DESIGN CHOICE, log 21). -/
def savedSets (o : ArrOp) (sets : List OpenSet) : List OpenSet :=
  let bad := sets.any fun st => st.rowBad.any id || st.colBad.any id
  let uneven := sets.any fun st => st.shift != (sets.headD st).shift
  if uneven then sets.map fun st => o.fresh st.tile 0 0 st.half
  else if bad then sets.map fun st => o.fresh st.tile st.shift st.restarts st.half
  else sets

/-- The accumulator image of a running item (04 R144, R145). -/
def imageBytes (o : ArrOp) (it : Item) (sets : List OpenSet) : List Byte :=
  let rep := Rep.all (sets.map OpenSet.rep)
  let gs := sets.flatMap fun st =>
    let bx := o.box st.tile
    st.groups.zipIdx.map fun g => (groupPlace o st.half (st.tile - it.tile) (g.2 / bx.nc) (g.2 % bx.nc), g.1)
  let cells := tab 1024 fun cell => cellBytes o (gs.filterMap fun g => if g.1.1 == cell then some (g.1.2, g.2) else none)
  (match sets with | st :: _ => headerBytes o it st rep | [] => []) ++ cells.flatten

/-- The save-area slot of a queue on a core (13 R436). -/
def saveSlot (s : State) (q c : Nat) : Nat := (s.queue q).save + 0x10000 * c

/-- The half that the sets of a running item lie in. -/
def Running.half (r : Running) : Bool := match r.sets with | st :: _ => st.half | [] => false

/-- The running item of a core is saved and leaves the core, whose banks and feeder queues are given up (04 R144, R145; 13 R435). -/
def saveCore (s : State) (c : Nat) : State :=
  let s := resolveCore s c
  match (s.core c).run with
  | none => s
  | some r =>
    withOp s r.item.q r.item.n fun s j o =>
      let s := s.wr (saveSlot s r.item.q c) (imageBytes o r.item (savedSets o r.sets))
      let k := s.core c
      let s := s.setCore c { k.flush (fun _ => true) with run := none, saved := k.saved ++ [(r.item, r.half)] }
      trace s 0x04 1 c r.item.q r.item.n j.op (if o.shape == 1 then r.item.tile / 4 else r.item.tile)

/-- Every open set of a running item stands at the same K-group, and none has finished or drained (04 R144, 05 R152). -/
def Running.atBoundary (r : Running) (s : State) : Bool :=
  match r.sets, s.job r.item.q r.item.n with
  | st :: l, some j =>
    let full := if fld (j.body 0x20) 0 3 == 1 then min 4 (j.total - r.item.tile) else 1
    l.length + 1 == full && (st :: l).all fun u => u.kg == st.kg && (u.satHit || decide (u.kg < u.nkg))
  | _, _ => false

/-- The work in blocks that a core is in the middle of: the first item on its deque, not a matrix tile, of a command of which a block has
committed or of a SCAN (13 R435; DESIGN CHOICE, log 21). -/
def State.begun (s : State) (c : Nat) : Option Item :=
  (s.core c).deque.reverse.find? fun i => match s.job i.q i.n with
    | some j => !j.isArray && (j.finished != 0 || j.op == 0x08)
    | none => false
/-- The item that a core is running. -/
def State.atWork (s : State) (c : Nat) : Option Item :=
  match (s.core c).run with | some r => some r.item | none => s.begun c

/-- The core running the item of lowest priority, the lowest index winning a tie (13 R434). -/
def lowestCore (s : State) : Option Nat :=
  (List.range Config.cores).foldl (fun (b : Option Nat) c =>
    match s.atWork c, b.bind s.atWork with
    | none, _ => b
    | some _, none => some c
    | some i, some w => if itemPrio s i < itemPrio s w then some c else b) none

/-- No set drains on a core, and no tile drained there waits for its commit (04 R144, R147). -/
def drainDone (s : State) (c : Nat) : Bool :=
  (s.core c).draining.isEmpty && !(s.jobs.any fun j => decide (j.op < 4) && j.tiles.any fun t => t.core == c)

/-- An item becomes the next that a core takes from its deque; on a full deque the topmost entry is held (01 R34). -/
def Core.takeNext (k : Core) (it : Item) : Core :=
  match k.deque with
  | i :: l => if k.deque.length < 64 then { k with deque := k.deque ++ [it] } else { k with deque := l ++ [it], held := i :: k.held }
  | [] => { k with deque := [it] }

/-- The 24 bytes of one lane: the CF32 pair, the 48-bit chunk log, the bits `PINF`, `NINF`, `NAN`, empty, `ZSEEN`, `VSEEN` and `SAT`, and the
previous n in 8 bytes (06 R212; their places are a DESIGN CHOICE, log 21). -/
def PassSt.bytes (p : PassSt) : List Byte :=
  leBytes 4 p.b.s ++ leBytes 4 p.b.e ++ leBytes 6 (unsgn 48 p.lam.lam) ++
    leBytes 2 (b2n p.b.pinf + 2 * b2n p.b.ninf + 4 * b2n p.b.nan + 8 * b2n p.b.empty + 16 * b2n p.lam.zseen + 32 * b2n p.lam.vseen +
      64 * b2n p.lam.sat) ++ leBytes 8 (unsgn 64 p.n)

/-- The lanes of a chunk of LIN or CELL at a boundary that timing picks: the end of a piece of 4,096 positions in one lane pass (06 R212). -/
def lanesAt (s : State) (x : Ctx) (o : ScanOp) (unit pick : Nat) : List PassSt :=
  let q := unit / o.chunks
  let c := unit % o.chunks
  let k := max 1 (cdiv (o.chunkLen c) 4096)
  let n := min (o.chunkLen c) (4096 * (pick % k + 1))
  let pass := pick / k % max 1 (cdiv o.d 128)
  let us := (linInputs s x o q c).map Prod.fst
  tab 128 fun l =>
    let ch := 128 * pass + l
    if o.d ≤ ch then .start
    else (List.range n).foldl (fun p i =>
      passStep p (o.dec.raw s x (o.row q (c * o.c + i) * o.d + ch) 0) ((us.getD i []).getD ch (0, false))) .start

/-- Seam work saves its lanes into the slot's space for them at 0x9040; outside a local pass they are empty (06 R212, 13 R436). The boundary is
a free value (log 21). -/
def saveLanes (s : State) (c : Nat) (it : Item) : State :=
  match s.job it.q it.n with
  | none => s
  | some j =>
    if j.op != 0x08 then s
    else match chkScan s j with
      | .error _ => s
      | .ok o =>
        let f := freeNat s
        let ls := if o.chunked && (o.form == .lin || o.form == .cell) then lanesAt s (scanCtx j) o (it.tile / 1024) f.1
          else List.replicate 128 .start
        f.2.wr (saveSlot s it.q c + 0x9040) (ls.flatMap PassSt.bytes)

/-- The two words of a pair. -/
def Acc.bytes (a : Acc) : List Byte := leBytes 4 a.s ++ leBytes 4 a.e

/-- The running state of the row that a softmax or an attention has partly combined, `k` of its blocks done (13 R436). -/
def rowState (s : State) (j : Job) (row k : Nat) : List Byte :=
  match j.op with
  | 0x13 => match prepSmax s j.ctx j.cmd with
    | .ok p => match p.ins with
      | src :: _ =>
        let vs := tab (min src.d0 (4096 * k)) fun i => (src.vec s j.ctx false (row * src.d0 + i)).1
        let a := smPass (fld (bw j.cmd 5) 32 32) vs
        leBytes 4 a.m ++ a.s.bytes
      | [] => []
    | .error _ => []
  | 0x0A => match prepAttn s j.ctx false j.cmd with
    | .ok o =>
      let h := row % o.hq
      let t := row / o.hq % o.npos
      match j.members[row / o.hq / o.npos]? with
      | none => []
      | some m =>
        let a := attnUpTo s j.ctx o j (row / o.hq / o.npos) m.sid m.pos t h k
        leBytes 4 a.m ++ a.s.bytes ++ a.o.flatMap Acc.bytes
    | .error _ => []
  | _ => []

/-- The row that a command has partly combined, the front one, is saved from 0xA000 of the slot (13 R436; log 21). -/
def saveRow (s : State) (c : Nat) (it : Item) : State :=
  match s.job it.q it.n with
  | none => s
  | some j => match j.tiles with
    | [] => s
    | t :: _ =>
      let left := (tileItems s j t).length
      if left == 0 || t.items.length ≤ left then s
      else s.wr (saveSlot s it.q c + 0xA000) (rowState s j t.num (t.items.length - left))

/-- Work in blocks stops at the end of a block: it saves nothing beyond its resume point, the items that are left (07 R232, 13 R435). -/
def saveBlocks (s : State) (c : Nat) (it : Item) : State :=
  let k := (s.core c).without it
  trace (s.setCore c { k with saved := k.saved ++ [(it, false)] }) 0x04 1 c it.q it.n (match s.job it.q it.n with | some j => j.op | none => 0)
    it.tile

/-- The item that a core is running is saved at the boundary of its kind (13 R435, R436): a matrix tile with its accumulators, Seam work with
its lanes (06 R212), a partly combined row with its running state, any other work with nothing. -/
def saveRunning (s : State) (c : Nat) : State :=
  match (s.core c).run, s.begun c with
  | some _, _ => saveCore s c
  | none, some it => saveBlocks (saveRow (saveLanes s c it) c it) c it
  | none, none => s

/-- PREEMPTION (13 R434, R435): a ready item of command `n` of queue `q` displaces the lower-priority item running on core `c`,
its victim core, unless that core holds a saved item of the queue, and starts there (13 R437). -/
def preemptRow (c : BitVec 8) (q : BitVec 6) (n : BitVec 16) (s : State) : State :=
  let c := c.toNat
  let mine (i : Item) : Bool := i.q == q.toNat && i.n == n.toNat
  match s.atWork c with
  | none => s
  | some old =>
    match (List.range Config.cores).findSome? fun h => ((s.core h).deque.find? mine).map fun i => (h, i) with
    | none => s
    | some (h, it) =>
      let idle := (List.range Config.cores).any fun d => (s.core d).empty
      let victim := if it.steal then !idle && lowestCore s == some c else h == c
      let edge := match (s.core c).run with | some r => r.atBoundary s && drainDone s c | none => true
      let nested := (s.core c).saved.any fun i => i.1.q == q.toNat
      if !s.awake || s.coreStopped c || !victim || nested || !decide (itemPrio s old < itemPrio s it) || (s.queue old.q).save == 0 || !edge then s
      else
        let s := saveRunning s c
        let s := s.setCore h ((s.core h).without it)
        if s.isTile it && (s.core c).run.isNone then
          withOp s it.q it.n fun s j o =>
            let k := s.core c
            s.setCore c { k with run := some ⟨it, openSets o j.total it.tile k.half⟩, half := k.half != o.shadow }
        else s.setCore c ((s.core c).takeNext it)

/-- Reads the open sets of an item back from its image; none where the header does not match the command (04 R146, R148). -/
def readImage (s : State) (o : ArrOp) (half : Bool) (a total : Nat) (it : Item) : Option (List OpenSet) :=
  let ctl := s.rd a 4
  let r := fld ctl 0 3
  let rs := fld ctl 3 3
  if ctl != thCtrl o r rs || decide (4 < r) || decide (4 < rs) then none
  else
    let kg := s.rd (a + 8) 4
    let fl := s.rd (a + 0x18) 4
    let unit (x : Nat) : OUnit := [OUnit.feeder, .array, .accum, .output, .seam, .vector, .sfu, .reduce].getD x .feeder
    let occ (f : Flags) (u b : Nat) : Occ := ⟨f, unit u, s.rd (a + b) 4, s.rd (a + b + 4) 4, s.rd (a + b + 8) 4⟩
    let rep : Rep := ⟨BitVec.ofNat 5 fl, List.replicate (s.rd (a + 0x1C) 4) (occ fIV (fld fl 8 3) 0x24) ++
      List.replicate (s.rd (a + 0x20) 4) (occ fOF (fld fl 12 3) 0x30)⟩
    let sets := (openSets o total it.tile half).map fun st =>
      let bx := o.box st.tile
      { st with
        kg := kg
        shift := r
        restarts := rs
        groups := tab (bx.nr * bx.nc) fun u =>
          let pl := groupPlace o half (st.tile - it.tile) (u / bx.nc) (u % bx.nc)
          let b := a + 0x40 + 36 * pl.1
          let nib := fld (s.rd (b + 32) 4) (4 * pl.2) 4
          if o.acc == 2 then groupOf false nib (s.rd (b + 8 * pl.2) 4) (s.rd (b + 8 * pl.2 + 4) 4)
          else groupOf o.int nib (s.rd (b + 4 * pl.2) 4) 0 }
    match sets with
    | [] => none
    | st :: l => some ({ st with rep := rep } :: l)

/-- A core takes up saved work in blocks again: its item is the next it takes (13 R437). -/
def restoreBlocks (s : State) (c owner : Nat) (it : Item × Bool) : State :=
  let k := s.core owner
  let s := s.setCore owner { k with saved := k.saved.erase it }
  trace (s.setCore c { (s.core c).takeNext it.1 with idleSince := 0 }) 0x05 1 c it.1.q it.1.n
    (match s.job it.1.q it.1.n with | some j => j.op | none => 0) it.1.tile

/-- A core takes up a saved item, its own or another's. -/
def restoreItem (s : State) (c owner : Nat) (it : Item × Bool) : State :=
  if !s.isTile it.1 then restoreBlocks s c owner it
  else withOp s it.1.q it.1.n fun s j o =>
    let k := s.core owner
    let s := s.setCore owner { k with saved := k.saved.erase it }
    match readImage s o it.2 (saveSlot s it.1.q owner) j.total it.1 with
    | none => malform (dropItems s it.1.q it.1.n) j 0x09 0 owner
    | some sets =>
      let s := s.setCore c { s.core c with run := some ⟨it.1, sets⟩, half := (if o.shadow then !it.2 else (s.core c).half), idleSince := 0 }
      trace s 0x05 1 c it.1.q it.1.n j.op (if o.shape == 1 then it.1.tile / 4 else it.1.tile)

/-- ITEM_RESUME (13 R437): a free core restores the last item it saved, once it has no item of higher priority to run; a core
without work restores the first saved item of a busy core. -/
def resumeRow (c : BitVec 8) (s : State) : State :=
  let c := c.toNat
  let k := s.core c
  if !s.awake || s.coreStopped c || k.run.isSome || !k.draining.isEmpty then s
  else match k.saved.getLast? with
    | some it => if k.deque.any fun i => decide (itemPrio s it.1 < itemPrio s i) then s else restoreItem s c c it
    | none =>
      if !k.empty then s
      else match (List.range Config.cores).findSome? fun d =>
          if (s.core d).run.isSome then ((s.core d).saved.find? fun i => i.1.steal).map fun i => (d, i) else none with
        | none => s
        | some (d, it) => restoreItem s c d it

/-- MMA. -/
def execMma (q : BitVec 6) (n : BitVec 16) (s : State) : Host.Outcome State Fault Refusal := .next (arrayRow 0x01 q n s)
/-- DMM. -/
def execDmm (q : BitVec 6) (n : BitVec 16) (s : State) : Host.Outcome State Fault Refusal := .next (arrayRow 0x02 q n s)
/-- CONV. -/
def execConv (q : BitVec 6) (n : BitVec 16) (s : State) : Host.Outcome State Fault Refusal := .next (arrayRow 0x03 q n s)
/-- SWAP. -/
def execSwap (c : BitVec 8) (s : State) : Host.Outcome State Fault Refusal := .next (swapRow c s)
/-- SATURATION_EVENT. -/
def execSaturationEvent (c : BitVec 8) (s : State) : Host.Outcome State Fault Refusal := .next (saturationRow c s)
/-- OPEN_SET_DRAIN. -/
def execOpenSetDrain (c : BitVec 8) (s : State) : Host.Outcome State Fault Refusal := .next (drainRow c s)
/-- STEAL. -/
def execSteal (c : BitVec 8) (s : State) : Host.Outcome State Fault Refusal := .next (stealRow c s)
/-- CLUSTER_POLL_TIMEOUT. -/
def execClusterPollTimeout (c : BitVec 8) (lt : Dword) (s : State) : Host.Outcome State Fault Refusal := .next (clusterPoll c lt s)
/-- PREEMPTION. -/
def execPreemption (c : BitVec 8) (q : BitVec 6) (n : BitVec 16) (s : State) : Host.Outcome State Fault Refusal :=
  .next (preemptRow c q n s)
/-- ITEM_RESUME. -/
def execItemResume (c : BitVec 8) (s : State) : Host.Outcome State Fault Refusal := .next (resumeRow c s)

end Sys2Proof.Machine
end

