-- ==== Sys2Proof/Machine/Wake.lean ====
section
/-! DEFINITION. Operating points, and waking from the engine's power states (16 R525, R528, R531, R533, R535). -/
namespace Sys2Proof.Machine

/-! ### Operating points (16 R525) -/

/-- `PWR_CTRL.OP_REQ` as it acts: 3 acts as 2. -/
def opReq (s : State) : Nat := min s.pwr.opReq 2
/-- The highest point whose power `PWR_BUDGET` allows; OP0 is always allowed. -/
def opBudget (s : State) : Nat :=
  (s.pwr.optable.zipIdx.foldl (fun b p => if p.1.power ≤ s.pwr.budget then p.2 else b) 0)
/-- The point that the three limits give. -/
def opPoint (s : State) : Nat := min (opReq s) (min (opBudget s) s.pwr.thermalLimit)
/-- The rail code of a point. -/
def opCode (s : State) (i : Nat) : Nat := ((s.pwr.optable[i]?).map OpPoint.vset).getD 0
/-- The guaranteed rate of a point, in Mbeat/s. -/
def opRate (s : State) (i : Nat) : Nat := ((s.pwr.optable[i]?).map OpPoint.rate).getD 0

/-- The point to move to is taken afresh; in S2 to S4 that waits for the wake (16 R525, R535). -/
def retarget (s : State) : State :=
  if s.life.ready && s.pwr.state == 0 && s.pwr.move.isNone then { s with pwr := { s.pwr with opTarget := opPoint s } } else s

/-! ### Waking -/

/-- The wake time W of a state, in LT (16 R528). -/
def wakeTime : Nat → Nat
  | 2 => 200 | 3 => 4000 | 4 => 200000 | _ => 0
/-- The break-even residency BE of a state, in LT (16 R530). -/
def breakEven : Nat → Nat
  | 2 => 2000 | 3 => 50000 | 4 => 5000000 | _ => 0

/-- The setpoints that a wake from a state restores first (16 R533). -/
def wakeRails (s : State) : Nat → List (Nat × Nat)
  | 3 => [(1, 100)]
  | 4 => [(1, 100), (0, opCode s s.pwr.op)]
  | _ => []

/-- A wake from the state of the moment to a state begins, unless the engine is already moving (16 R530, R535). -/
def startWake (s : State) (st : Nat) : State :=
  match s.pwr.move with
  | some _ => s
  | none =>
    if s.pwr.state == 0 then s
    else { s with pwr := { s.pwr with
      move := some ⟨true, st, s.life.lt + wakeTime s.pwr.state⟩
      want := s.pwr.want ++ wakeRails s s.pwr.state } }

/-- A wake event: the engine wakes to S0 at once, or once an entry in progress has completed, and stays there until it is next
quiescent (16 R531, R535). -/
def wakeEvent (s : State) : State :=
  if !s.life.ready || (s.pwr.state == 0 && s.pwr.move.isNone) then s
  else startWake { s with pwr := { s.pwr with stayAwake := true } } 0

end Sys2Proof.Machine
end

