-- ==== Sys2Proof/Machine/Cascade.lean ====
section
/-! DEFINITION. The cascade: forming a group, barriers between engines, buckets on the link, the step and its repeat, and the
link aperture (14 R442-R480). -/
namespace Sys2Proof.Machine

/-! ### REDUCE (14 R455-R458) -/

/-- REDUCE's checks (14 R456): its source and destination. -/
def chkReduce (s : State) (j : Job) : Except Bad (Tensor × Tensor) := do
  let word := j.body 0x10
  let src ← need s j.ctx .vin (j.body 0) 0x10
  let dst ← need s j.ctx .any (j.body 8) 0x18
  check (dst.fmt == .fp32 || (dst.fmt == .bf16 && !bit word 8)) (badRef (fld (j.body 8) 0 48))
  check (dst.count == src.count && bucketOk s word src.count) (badField 0x20)
  return (src, dst)

/-- The contribution of one chunk of a REDUCE, as a unit that commits (14 R458). -/
def reduceTile (s : State) (x : Ctx) (t : Tensor) (num : Nat) : Tile :=
  let x := x.atBlock num
  let es := tab (chunkLen t.count num) fun i => let e := 256 * num + i; (e, t.vec s x false e)
  let rep := Rep.all (es.zipIdx.map fun e => Rep.of e.1.2.2.1 .reduce num e.2 noKgrp)
  ⟨num, 0, [], rep, 0, num % Config.cores, 0, 0, 0, 0,
    es.map fun e => (e.1, e.2.1, e.2.2.2), 0, 0, num, []⟩

/-- What each chunk of a REDUCE reads. -/
def reduceParts (t : Tensor) : List Part :=
  tab (cdiv t.count 256) fun k => { unit := k, core := k % Config.cores, elems := tab (chunkLen t.count k) fun i => (t, 256 * k + i) }

/-- REDUCE starts, or waits for its tag (14 R457). -/
def runReduce (s : State) (j : Job) (p : Tensor × Tensor) : State :=
  let word := j.body 0x10
  if bucketWaits s word then s.setJob { j with tagWait := true }
  else withOperands s j j.ctx [p.1] (reduceParts p.1) fun s j =>
    let j := { j with
      attempt := s.cas.attempt
      tagWait := false }
    let s := openBucket s j word
    let r := takeTiles (tab (cdiv p.1.count 256) fun k =>
      (missing s j.ctx (tab (chunkLen p.1.count k) fun i => (p.1, 256 * k + i)), fun _ => reduceTile s j.ctx p.1 k))
    match r.2 with
    | some f => malform { s with cas := { s.cas with buckets := s.cas.buckets.filter fun b => !(b.q == j.q && b.n == j.n) } } j f.1 f.2.1 f.2.2
    | none => runTiles s j r.1 none

/-- REDUCE. -/
def reduceRow (q : BitVec 6) (n : BitVec 16) (s : State) : State := startRow 0x38 q.toNat n.toNat s chkReduce runReduce

/-! ### Messages -/

/-- The message types (14 R450). -/
def msgTypes : List Nat :=
  [0x01, 0x02, 0x03, 0x04, 0x10, 0x11, 0x20, 0x21, 0x22, 0x23, 0x24, 0x30, 0x31, 0x32, 0x33, 0x34, 0x40, 0x41, 0x42, 0x43]
/-- The types that only rank 0 sends. -/
def fromHead : List Nat := [0x02, 0x03, 0x04, 0x11, 0x30, 0x31, 0x33, 0x34]
/-- The types that only rank 0 receives. -/
def toHead : List Nat := [0x01, 0x10, 0x24, 0x32]
/-- The types that belong to an attempt (14 R477, DEDUCED, log 27). -/
def ofAttempt : List Nat := [0x20, 0x21, 0x22, 0x23, 0x24, 0x30, 0x31, 0x32, 0x33, 0x34]
/-- The types that name a step in `ARG0`. -/
def ofStep : List Nat := [0x20, 0x21, 0x24, 0x30, 0x31]

/-- The layout of a message (14 R450; DEDUCED, log 27). -/
def msgOk (m : Msg) : Bool :=
  let ty := m.type.toNat
  msgTypes.contains ty && decide (m.len.toNat ≤ 1024) && m.mflags.toNat < 64 &&
    (if ty == 0x41 then m.payload.isEmpty else m.payload.length == m.len.toNat) &&
    (!fromHead.contains ty || m.src == 0) && (!toHead.contains ty || m.dst == 0)

/-- A cascade violation that concerns a command (13 R441; 14 R452). -/
def casViolOf (s : State) (cmd reason rank tag num : Nat) : State := viol s cmd 0x0D (reason + rank <<< 8) (num + tag <<< 24)
/-- A cascade violation that concerns no command (13 R441; 14 R450). -/
def casViol (s : State) (reason rank tag num : Nat) : State := casViolOf s 0 reason rank tag num

/-- The answer NAK to a message (14 R450). -/
def sendNak (s : State) (m : Msg) (reason : Nat) : State :=
  sendMsg s 0 { mkMsg s 0x23 m.src.toNat m.tag.toNat 0 reason (m.type.toNat + (m.arg1.toNat % 2 ^ 24) <<< 8) [] with link := m.link }

/-- A stale message is dropped and counted (14 R477). -/
def stale (s : State) : State := { s with cas := { s.cas with staleCount := add64 s.cas.staleCount 1 } }

/-- The sender is a rank of the group, and the group is READY (14 R450). -/
def isMember (s : State) (m : Msg) : Bool :=
  s.cas.state == 2 && decide (m.src.toNat < s.cas.ranks) &&
    (s.cas.rank != 0 || m.src == 0 || s.cas.joined.any fun p => p.1 == m.src.toNat)

/-- The ranks other than the headland, ascending. -/
def others (s : State) : List Nat := tab (s.cas.ranks - 1) fun i => i + 1
/-- A message without payload to every other rank, ascending. -/
def toAll (s : State) (type arg0 : Nat) : State :=
  (others s).foldl (fun s r => sendMsg s 0 (mkMsg s type r 0 0 arg0 0 [])) s

/-! ### Forming a group (14 R442-R444) -/

/-- The semaphores of `CAS_SEMMASK` as they stand (14 R473). -/
def savedSems (s : State) : Tab Nat :=
  ((List.range 64).filter fun i => bit s.cas.semmask i).foldl (fun (t : Tab Nat) i => t.put i (s.sync.sem.get i 0)) []

/-- No chunk and no tag of the attempt is held any more. -/
def clearAttempt (s : State) : State :=
  { s with cas := { s.cas with
      doneTags := []
      privTags := []
      staged := []
      chunks := []
      pendingUp := []
      nakked := []
      abandoned := false } }

/-- The group is `READY` (14 R444, R453, R459): credits are granted, and barrier generations start at 0. -/
def becomeReady (s : State) : State :=
  let s := clearAttempt s
  { s with
    cas := { s.cas with
      state := 2
      resumed := true
      credit := 256
      base := s.life.lt
      consec := 0
      acks := []
      semSaved := savedSems s }
    sync := { s.sync with bars := s.sync.bars.map fun p => (p.1, { p.2 with gen := 0, heard := [], sent := false }) } }

/-- JOIN goes to the headland (14 R444). -/
def sendJoin (s : State) : State :=
  let c := s.cas
  sendMsg { s with cas := { c with joinLt := s.life.lt } } 0
    (mkMsg s 0x01 0 0 0 (c.size % 256 + (c.fanin % 16) <<< 8 + (c.commitBar % 64) <<< 16) 0 [])

/-- Two step pairs overlap (14 R471). -/
def pairsOverlap (s : State) : Bool :=
  let e (i : Nat) : List (Nat × Nat) :=
    let l := s.cas.pair.get (8 * i + 2) 0
    if l == 0 then [] else [(s.cas.pair.get (8 * i) 0, l), (s.cas.pair.get (8 * i + 1) 0, l)]
  (List.range 16).any fun i => (List.range i).any fun k => (e i).any fun a => (e k).any fun b => meet a b

/-- The fields of `CAS_CTRL` besides `ENABLE`: RANK, SIZE, FANIN. -/
def casFields (v : Nat) : Nat × Nat × Nat := (fld v 8 8, fld v 16 8, fld v 24 4)

/-- A write of `CAS_CTRL` (14 R442, R444, R471): the fields while the group is off, then `ENABLE`. -/
def casEnable (s : State) (v : Nat) : State :=
  let f := casFields v
  if s.cas.enable then
    if f == (s.cas.rank, s.cas.size, s.cas.fanin) then s else viol s 0 0x07 0x00A000 0
  else
    let s := { s with cas := { s.cas with
      rank := f.1
      size := f.2.1
      fanin := f.2.2 } }
    if !bit v 0 then s
    else if pairsOverlap s then viol s 0 0x08 0x00A100 0
    else
      let s := { s with cas := { s.cas with
        enable := true
        state := 1
        joined := []
        welcomed := false } }
      if s.cas.size == 0 then becomeReady s
      else if s.cas.rank == 0 then s
      else sendJoin s

/-- JOIN_RETRY (14 R444). -/
def joinRetry (lt : Dword) (s : State) : State :=
  let s := advance s lt
  if s.cas.state == 1 && s.cas.rank != 0 && !s.cas.welcomed && s.life.ready && decide (s.cas.joinLt + 100000 ≤ s.life.lt) then sendJoin s
  else s

/-- The headland's answer to JOIN (14 R444). -/
def onJoin (s : State) (m : Msg) : State :=
  let r := m.src.toNat
  let c := s.cas
  let reply (s : State) (type arg0 : Nat) : State := sendMsg s 0 { mkMsg s type r 0 0 arg0 0 [] with link := m.link }
  let refuse (reason : Nat) : State := casViol (reply s 0x04 reason) reason 0 0 0
  if !c.enable || c.rank != 0 || c.state == 4 then sendNak s m 3
  else if fld m.arg0.toNat 0 8 != c.size || fld m.arg0.toNat 8 4 != c.fanin || fld m.arg0.toNat 16 6 != c.commitBar then refuse 5
  else if c.ranks ≤ r then refuse 5
  else if r == 0 || c.joined.any (fun p => p.1 == r && p.2 != m.link.toNat) then refuse 6
  else
    let had := c.joined.any fun p => p.1 == r
    let s := reply s 0x02 0
    if had || c.state != 1 then s
    else
      let s := { s with cas := { s.cas with joined := insertBy (fun (a b : Nat × Nat) => decide (a.1 < b.1)) (r, m.link.toNat) c.joined } }
      if s.cas.joined.length + 1 == s.cas.ranks then becomeReady (toAll s 0x03 0) else s

/-- WELCOME. -/
def onWelcome (s : State) : State := if s.cas.state == 1 then { s with cas := { s.cas with welcomed := true } } else s
/-- START (14 R444). -/
def onStart (s : State) : State := if s.cas.state == 1 then becomeReady s else s
/-- REFUSE (14 R444; 17 R541). -/
def onRefuse (s : State) (m : Msg) : State :=
  if s.cas.state != 1 then s
  else
    let r := m.arg0.toNat
    fault (casViol { s with cas := { s.cas with state := 4 } } (r % 256) 0 0 0) 8 3 0xFF false 0 r 0

/-! ### Barriers between engines (14 R453) -/

/-- Generation `g` is not before `k`, modulo 2^24. -/
def notBefore (g k : Nat) : Bool := decide ((g + 2 ^ 24 - k) % 2 ^ 24 < 2 ^ 23)

/-- ARRIVE at the headland (14 R453). -/
def onArrive (s : State) (m : Msg) : State :=
  if !isMember s m then sendNak s m 3
  else
    let b := fld m.arg0.toNat 0 6
    let g := fld m.arg0.toNat 8 24
    let k := s.sync.bars.get b {}
    if !notBefore g k.gen then stale s
    else if k.heard.contains (m.src.toNat, g) then s
    else tryRelease { s with sync := { s.sync with bars := s.sync.bars.put b { k with heard := (m.src.toNat, g) :: k.heard } } } b

/-- RELEASE (14 R453): a generation that is not the one waiting for it is stale. -/
def onRelease (s : State) (m : Msg) : State :=
  if !isMember s m then sendNak s m 3
  else
    let b := fld m.arg0.toNat 0 6
    let k := s.sync.bars.get b {}
    if k.sent && k.gen == fld m.arg0.toNat 8 24 then releaseBar s b else stale s

/-! ### Buckets on the link (14 R459-R464, R477) -/

/-- The mode bits of a message: privileged and thinning. -/
def msgMode (m : Msg) : Nat := fld m.mflags.toNat 0 4

/-- The chunk and flags that a CONTRIB or RESULT names. -/
def msgChunk (m : Msg) : Nat := fld m.arg1.toNat 0 24
/-- The flags that a CONTRIB or RESULT carries. -/
def msgFlags (m : Msg) : Flags := BitVec.ofNat 5 (fld m.arg1.toNat 24 5)

/-- The mode of a chunk disagrees with its receiver's bucket (14 R450 reason 2). -/
def modeBad (s : State) (m : Msg) : Bool :=
  let tag := m.tag.toNat
  decide (cdiv (btCount s tag) 256 ≤ (msgChunk m)) || (match bucketOf s tag with
    | some b => b2n b.priv + b.thin <<< 1 != (msgMode m)
    | none => false)

/-- CONTRIB from a child (14 R460, R477). -/
def onContrib (s : State) (m : Msg) : State :=
  let tag := m.tag.toNat
  let c := chunkOf s tag (msgChunk m)
  if !isMember s m || !s.cas.children.contains m.src.toNat then sendNak s m 3
  else if !bit s.cas.stepMask tag || btCount s tag == 0 then sendNak s m 1
  else if modeBad s m then sendNak s m 2
  else if c.terms.any fun t => t.rank == m.src.toNat then
    casViol { s with cas := { s.cas with dupCount := add64 s.cas.dupCount 1 } } 0 m.src.toNat tag (msgChunk m)
  else
    addTerm s tag (msgChunk m) ⟨m.src.toNat, readChunk (bit (msgMode m) 0) (bit m.mflags.toNat 4) (chunkLen (btCount s tag) (msgChunk m)) m.payload,
      (msgFlags m), bit m.mflags.toNat 5, (msgMode m)⟩

/-- RESULT from the parent (14 R461): it goes on to the children unchanged and to the destination; one that repeats is ignored. -/
def onResult (s : State) (m : Msg) : State :=
  let tag := m.tag.toNat
  if !isMember s m || s.cas.rank == 0 || m.src.toNat != s.cas.parent then sendNak s m 3
  else match bucketOf s tag with
  | none => sendNak s m 1
  | some b =>
    let c := chunkOf s tag (msgChunk m)
    if modeBad s m then sendNak s m 2
    else if c.got then s
    else
      let s := putChunk s { c with got := true }
      deliver s tag (msgChunk m) b (readChunk b.priv (bit m.mflags.toNat 4) (chunkLen b.count (msgChunk m)) m.payload) (msgFlags m)
        (bit m.mflags.toNat 5) m.mflags.toNat

/-- CREDIT from the parent (14 R459). -/
def onCredit (s : State) (m : Msg) : State :=
  if !isMember s m || s.cas.rank == 0 || m.src.toNat != s.cas.parent then sendNak s m 3
  else pumpUp { s with cas := { s.cas with credit := s.cas.credit + m.arg0.toNat } }

/-! ### NAK (14 R448, R452) -/

/-- The aperture transfer that a NAK refuses: the lowest tag of its core in flight to the rank whose number ends in the eight bits that
the NAK carries (DEDUCED, log 27). -/
def nakTag (s : State) (m : Msg) (write : Bool) : Option (Nat × Tag) :=
  let a := fld m.arg1.toNat 8 24
  s.str.tags.find? fun p => p.1 / 512 == fld a 8 8 && p.1 % 512 % 256 == fld a 16 8 && p.2.sent && p.2.write == write &&
    p.2.chan == .aper m.src.toNat

/-- An aperture transfer is refused (14 R448). -/
def nakAper (s : State) (m : Msg) (write : Bool) : State :=
  match nakTag s m write with
  | none => s
  | some (key, t) =>
    if write then dropTag (loseWrite s (key / 512) (key % 512) t) key
    else endRead s key t (t.span.map fun u => (u, true, []))

/-- The command whose message a NAK refuses, in the layout of `LOC_x_CMD`; 0 for none (13 R441). -/
def nakCmd (s : State) (m : Msg) : Nat :=
  let ty := fld m.arg1.toNat 0 8
  let owner := if ty == 0x20 then (bucketOf s m.tag.toNat).map fun b => (b.q, b.n)
    else if ty == 0x40 || ty == 0x41 then (nakTag s m (ty == 0x40)).bind fun p => p.2.use.job
    else none
  match owner.bind fun p => s.job p.1 p.2 with
  | some j => j.loc
  | none => 0

/-- NAK (14 R452). -/
def onNak (s : State) (m : Msg) : State :=
  let ty := fld m.arg1.toNat 0 8
  let tag := m.tag.toNat
  let key := (tag, s.cas.attempt)
  let again := ty == 0x20 && s.cas.nakked.contains key
  let s := if again then s else casViolOf s (nakCmd s m) (m.arg0.toNat % 256) m.src.toNat tag (fld m.arg1.toNat 8 24)
  if ty == 0x40 then nakAper s m true
  else if ty == 0x41 then nakAper s m false
  else if ty == 0x20 && !again then
    match bucketOf s tag with
    | none => s
    | some b => endJob { s with cas := { s.cas with nakked := key :: s.cas.nakked } } b.q b.n 4
  else s

/-! ### The step and its repeat (14 R470-R479) -/

/-- The highest tag is below 256. -/
def stepTags (s : State) : List Nat := (List.range 256).filter fun t => bit s.cas.stepMask t
/-- The step's tags that have no result here (14 R473, R474). -/
def tagsLeft (s : State) : List Nat := (stepTags s).filter fun t => !s.cas.doneTags.contains t

/-- One engine applies COMMIT (14 R473; 17 R550). -/
def applyCommit (s : State) : State :=
  let old := s.cas.step
  let s := clearAttempt s
  let s := { s with cas := { s.cas with
    step := (old + 1) % 2 ^ 32
    semSaved := savedSems s
    attempt := 0
    consec := 0
    base := s.life.lt } }
  let s := trace (pulse s 0x09) 0x0B 6 0xFF 0 0 0 ((old % 2 ^ 24) <<< 8)
  let k := s.sync.bars.get s.cas.commitBar {}
  if k.sent then releaseBar s s.cas.commitBar else s

/-- STEP_COMMIT (14 R473). -/
def stepCommit (s : State) : State :=
  let k := s.sync.bars.get s.cas.commitBar {}
  if s.cas.state == 2 && s.cas.rank == 0 && s.cas.commitEn && s.awake && k.sent && allHeard s s.cas.commitBar && (tagsLeft s).isEmpty then
    applyCommit (toAll s 0x30 s.cas.step)
  else s

/-- Steps 2 to 5 of a repeat on one engine, without the answer (14 R475, R454): step commands end, published ones will end untaken, the
attempt is forgotten, ARRIVE messages are void, and the semaphores stand as at the last commit. -/
def rollBack (s : State) (st : Nat) : State :=
  let s := { s with cas := { s.cas with
    state := st
    resumed := false } }
  let s := (s.jobs.filter fun j => j.stepCmd).foldl (fun s j => endJob s j.q j.n 7) s
  let s := ((List.range 64).filter fun q => bit s.cas.qmask q && (s.queue q).enable).foldl (fun s q =>
    let k := s.queue q
    s.setQueue q { k with rollLeft := (k.tail + 65536 - k.head) % 65536 }) s
  let s := clearAttempt s
  let s := { s with
    cas := { s.cas with buckets := [] }
    sync := { s.sync with bars := s.sync.bars.map fun p => (p.1, { p.2 with
      sent := false
      heard := []
      count := if p.2.arrivals.isEmpty then 0 else p.2.count }) } }
  let s := ((List.range 64).filter fun i => bit s.cas.semmask i).foldl (fun s i => setSem s i (s.cas.semSaved.get i 0)) s
  trace (pulse s 0x0A) 0x0B 6 0xFF 0 0 0 (1 + (s.cas.step % 2 ^ 24) <<< 8)

/-- Traffic of the new attempt may flow (14 R454, R475). -/
def resume (s : State) : State :=
  let s := { s with cas := { s.cas with
    state := 2
    resumed := true
    credit := 256
    base := s.life.lt } }
  pumpUp (s.sync.bars.foldl (fun s p => if p.2.cascade then barrierFull s p.1 else s) s)

/-- The group stops (14 R478). -/
def haltGroup (s : State) : State :=
  let s := rollBack s 4
  fault { s with cas := { s.cas with resumed := true } } 8 2 0xFF false 0 s.cas.step s.cas.attempt

/-- The lowest child that has not sent its term of a chunk of a tag (17 R541). -/
def missingChild (s : State) (tag : Nat) : Nat :=
  ((List.range (cdiv (btCount s tag) 256)).findSome? fun k =>
    s.cas.children.find? fun r => !((chunkOf s tag k).terms.any fun t => t.rank == r)).getD 0

/-- The headland sends RESUME once every rank has rolled back (14 R475). -/
def tryResume (s : State) : State :=
  if s.cas.state == 3 && s.cas.rank == 0 && (others s).all (fun r => s.cas.acks.contains r) then resume (toAll s 0x33 0) else s

/-- The headland declares a repeat, or HALT after the maximum (14 R474, R475, R478). -/
def declareRepeat (s : State) : State :=
  if max s.cas.repeatMax 1 ≤ s.cas.consec then haltGroup (toAll s 0x34 0)
  else
    let tag := (tagsLeft s).headD 0
    let child := missingChild s tag
    let s := { s with cas := { s.cas with
      attempt := (s.cas.attempt + 1) % 256
      repeatCount := add64 s.cas.repeatCount 1
      consec := s.cas.consec + 1
      acks := [] } }
    let s := fault s 8 1 0xFF false 0 s.cas.step (s.cas.attempt + tag <<< 8 + child <<< 16)
    tryResume (rollBack (toAll s 0x31 s.cas.step) 3)

/-- STEP_REPEAT (14 R474, R475). -/
def stepRepeat (lt : Dword) (s : State) : State :=
  let s := advance s lt
  let c := s.cas
  let late := c.window != 0 && decide (c.base + c.window ≤ s.life.lt) && !(tagsLeft s).isEmpty
  if c.state == 2 && c.rank == 0 && c.commitEn && s.awake && (c.abandoned || late) then declareRepeat s else s

/-- ABANDON at the headland (14 R475). -/
def onAbandon (s : State) (m : Msg) : State :=
  if !isMember s m then sendNak s m 3
  else if s.cas.commitEn then declareRepeat s
  else s

/-- COMMIT at a rank. -/
def onCommit (s : State) (m : Msg) : State := if isMember s m then applyCommit s else sendNak s m 3

/-- REPEAT at a rank (14 R475): the answer goes out with the new attempt. -/
def onRepeat (s : State) (m : Msg) : State :=
  if !isMember s m then sendNak s m 3
  else if m.attempt.toNat ≤ s.cas.attempt then stale s
  else
    let s := { s with cas := { s.cas with attempt := m.attempt.toNat } }
    let s := rollBack (fault s 8 1 0xFF false 0 s.cas.step s.cas.attempt) 3
    sendMsg s 0 (mkMsg s 0x32 0 0 0 0 0 [])

/-- REPEAT_ACK at the headland. -/
def onAck (s : State) (m : Msg) : State :=
  if s.cas.state == 3 && s.cas.rank == 0 then
    tryResume { s with cas := { s.cas with acks := m.src.toNat :: s.cas.acks.erase m.src.toNat } }
  else stale s

/-- RESUME at a rank. -/
def onResume (s : State) : State := if s.cas.state == 3 && s.cas.rank != 0 then resume s else stale s
/-- HALT at a rank (14 R478). -/
def onHalt (s : State) : State := if s.cas.state == 2 || s.cas.state == 3 then haltGroup s else stale s

/-- Clearing `ENABLE` leaves the group; step commands complete as after HALT (14 R478). -/
def casDisable (s : State) : State :=
  if !s.cas.enable then s
  else
    let s := rollBack s 0
    { s with cas := { s.cas with
      enable := false
      resumed := true
      joined := []
      welcomed := false } }

/-! ### The link aperture (14 R447, R448) -/

/-- The byte offset that an aperture message names. -/
def msgOff (m : Msg) : Nat := m.arg0.toNat + (fld m.arg1.toNat 0 7) <<< 32

/-- The window address of an aperture request, or the reason to refuse it. -/
def window (s : State) (m : Msg) : Except Nat Nat :=
  if !isMember s m then .error 3
  else if s.cas.aperSize < (msgOff m) + m.len.toNat then .error 4
  else .ok (s.cas.aperBase + (msgOff m))

/-- The answer to an aperture request, with the request's arguments. -/
def aperReply (s : State) (m : Msg) (type mfl : Nat) (p : List Byte) : State :=
  sendMsg s 0 (mkMsg s type m.src.toNat 0 mfl m.arg0.toNat m.arg1.toNat p)

/-- APER_WR. -/
def onAperWr (s : State) (m : Msg) : State :=
  match window s m with
  | .error r => sendNak s m r
  | .ok a =>
    let ps := if bit m.mflags.toNat 5 then unitsOf a (m.payload.map fun _ => true) else []
    aperReply { s with t1 := s.t1.store a m.payload ps } m 0x43 0 []

/-- APER_RD. -/
def onAperRd (s : State) (m : Msg) : State :=
  match window s m with
  | .error r => sendNak s m r
  | .ok a =>
    let f := s.t1.fetch a m.len.toNat
    aperReply s m 0x42 (if f.2.any id then 32 else 0) f.1

/-- The tag number and generation of an aperture answer, in the form of a response `ID` (15 R485). -/
def aperId (m : Msg) : Nat :=
  let a := m.arg1.toNat
  (fld a 8 8) <<< 11 + (fld a 16 9) <<< 2 + fld a 25 2

/-- The tag was sent to the rank that answers. -/
def toRank (r : Nat) (t : Tag) : Bool := t.chan == .aper r

/-- APER_DATA: all bytes of the read in one message (14 R447; 15 R485, R514; 17 R551). -/
def onAperData (s : State) (m : Msg) : State :=
  let id := aperId m
  let core := fld id 11 8
  let key := tagKey core (fld id 2 9)
  if s.str.gens.get key 0 != fld id 0 2 then portViol s 5 0x02 id
  else match s.str.tags.find key with
  | none => portViol s 5 0x01 id
  | some t =>
    if !t.sent || !toRank m.src.toNat t then portViol s 5 0x01 id
    else if t.write then portViol s 5 0x04 id
    else if t.bad then s
    else
      let bads (s : State) : State := { s with str := { s.str with tags := s.str.tags.put key { t with bad := true, units := [] } } }
      let dr := fireInj s 4 fun i => i.a == core
      if dr.1 then bads dr.2
      else if m.payload.length != t.len then portViol (bads s) 5 0x03 id
      else
        let pz := fireInj s 3 fun i => i.a == core
        let bad := bit m.mflags.toNat 5 || pz.1
        endRead pz.2 key t (t.span.map fun u =>
          let sp := unitSpan t u
          (u, bad, List.replicate (sp.1 % 64) 0 ++ (m.payload.drop (sp.1 - t.addr)).take (sp.2 - sp.1)))

/-- APER_ACK. -/
def onAperAck (s : State) (m : Msg) : State := writeAck s 5 (toRank m.src.toNat) (aperId m) false

/-! ### Receiving -/

/-- A message of an attempt that is behind this engine's, or of another step (14 R477). -/
def isStale (s : State) (m : Msg) : Bool :=
  (ofAttempt.contains m.type.toNat && decide (m.attempt.toNat < s.cas.attempt)) ||
    (ofStep.contains m.type.toNat && m.arg0.toNat != s.cas.step)

/-- A message that the engine takes from its receive buffer. -/
def handleMsg (s : State) (m : Msg) : State :=
  if !msgOk m then casViol s 0 m.src.toNat m.tag.toNat (m.arg1.toNat % 2 ^ 24)
  else if isStale s m then stale s
  else match m.type.toNat with
  | 0x01 => onJoin s m
  | 0x02 => onWelcome s
  | 0x03 => onStart s
  | 0x04 => onRefuse s m
  | 0x10 => onArrive s m
  | 0x11 => onRelease s m
  | 0x20 => onContrib s m
  | 0x21 => onResult s m
  | 0x22 => onCredit s m
  | 0x23 => onNak s m
  | 0x24 => onAbandon s m
  | 0x30 => onCommit s m
  | 0x31 => onRepeat s m
  | 0x32 => onAck s m
  | 0x33 => onResume s
  | 0x34 => onHalt s
  | 0x40 => onAperWr s m
  | 0x41 => onAperRd s m
  | 0x42 => onAperData s m
  | 0x43 => onAperAck s m
  | _ => s

/-- A message arrives at the link port (15 R489, R514; 16 R531): it is taken at once, or waits in the receive buffer while the engine is
not awake; one beyond the receive credit is dropped, and one before READY without a log entry (15 R497). `type` is the row's message type: a message of another known type
is not this row's. -/
def recvMsg (type : Nat) (m : Msg) (s : State) : State :=
  let k := msgFlits m
  if !s.life.ready || (m.type.toNat != type && msgTypes.contains m.type.toNat) then s
  else if s.str.linkRx < k then portViol s 5 0x06 (m.type.toNat + m.src.toNat <<< 8)
  else if s.awake then handleMsg s m
  else wakeEvent { s with
    cas := { s.cas with inbox := s.cas.inbox ++ [m] }
    str := { s.str with linkRx := s.str.linkRx - k } }

/-- The receive buffer is emptied once the engine can act. -/
def drainInbox (s : State) : State :=
  if !s.awake then s
  else
    let l := s.cas.inbox
    l.foldl handleMsg { s with
      cas := { s.cas with inbox := [] }
      str := { s.str with linkRx := s.str.linkRx + (l.map msgFlits).foldl (· + ·) 0 } }

/-- REDUCE. -/
def execReduce (q : BitVec 6) (n : BitVec 16) (s : State) : Host.Outcome State Fault Refusal := .next (reduceRow q n s)
/-- JOIN. -/
def execJoinMsg (m : Msg) (s : State) : Host.Outcome State Fault Refusal := .next (recvMsg 0x01 m s)
/-- JOIN_RETRY. -/
def execJoinRetry (lt : Dword) (s : State) : Host.Outcome State Fault Refusal := .next (joinRetry lt s)
/-- WELCOME. -/
def execWelcomeMsg (m : Msg) (s : State) : Host.Outcome State Fault Refusal := .next (recvMsg 0x02 m s)
/-- START. -/
def execStartMsg (m : Msg) (s : State) : Host.Outcome State Fault Refusal := .next (recvMsg 0x03 m s)
/-- REFUSE. -/
def execRefuseMsg (m : Msg) (s : State) : Host.Outcome State Fault Refusal := .next (recvMsg 0x04 m s)
/-- ARRIVE. -/
def execArriveMsg (m : Msg) (s : State) : Host.Outcome State Fault Refusal := .next (recvMsg 0x10 m s)
/-- RELEASE. -/
def execReleaseMsg (m : Msg) (s : State) : Host.Outcome State Fault Refusal := .next (recvMsg 0x11 m s)
/-- CONTRIB. -/
def execContrib (m : Msg) (s : State) : Host.Outcome State Fault Refusal := .next (recvMsg 0x20 m s)
/-- RESULT. -/
def execResultMsg (m : Msg) (s : State) : Host.Outcome State Fault Refusal := .next (recvMsg 0x21 m s)
/-- CREDIT. -/
def execCreditMsg (m : Msg) (s : State) : Host.Outcome State Fault Refusal := .next (recvMsg 0x22 m s)
/-- NAK. -/
def execNak (m : Msg) (s : State) : Host.Outcome State Fault Refusal := .next (recvMsg 0x23 m s)
/-- ABANDON. -/
def execAbandon (m : Msg) (s : State) : Host.Outcome State Fault Refusal := .next (recvMsg 0x24 m s)
/-- COMMIT. -/
def execCommitMsg (m : Msg) (s : State) : Host.Outcome State Fault Refusal := .next (recvMsg 0x30 m s)
/-- STEP_COMMIT. -/
def execStepCommit (s : State) : Host.Outcome State Fault Refusal := .next (stepCommit s)
/-- REPEAT. -/
def execRepeatMsg (m : Msg) (s : State) : Host.Outcome State Fault Refusal := .next (recvMsg 0x31 m s)
/-- STEP_REPEAT. -/
def execStepRepeat (lt : Dword) (s : State) : Host.Outcome State Fault Refusal := .next (stepRepeat lt s)
/-- REPEAT_ACK. -/
def execRepeatAck (m : Msg) (s : State) : Host.Outcome State Fault Refusal := .next (recvMsg 0x32 m s)
/-- RESUME. -/
def execResumeMsg (m : Msg) (s : State) : Host.Outcome State Fault Refusal := .next (recvMsg 0x33 m s)
/-- HALT on the cascade. -/
def execCascadeHalt (m : Msg) (s : State) : Host.Outcome State Fault Refusal := .next (recvMsg 0x34 m s)
/-- APER_WR. -/
def execAperWr (m : Msg) (s : State) : Host.Outcome State Fault Refusal := .next (recvMsg 0x40 m s)
/-- APER_RD. -/
def execAperRd (m : Msg) (s : State) : Host.Outcome State Fault Refusal := .next (recvMsg 0x41 m s)
/-- APER_DATA. -/
def execAperData (m : Msg) (s : State) : Host.Outcome State Fault Refusal := .next (recvMsg 0x42 m s)
/-- APER_ACK. -/
def execAperAck (m : Msg) (s : State) : Host.Outcome State Fault Refusal := .next (recvMsg 0x43 m s)

end Sys2Proof.Machine
end

