-- ==== Sys2Proof/Machine/Ahead.lean ====
section
/-! DEFINITION. Fetch-ahead: the operands of commands that are taken and have not started (12 R381, R382). -/
namespace Sys2Proof.Machine

/-- What a command that has not started reads, as far as its body tells it before the sequences that it works for stand still: nothing of a
sequence's state, keys or values, and nothing of a STEP (DESIGN CHOICE, log 6). -/
def aheadParts (s : State) (j : Job) : List Part :=
  let ofOk (r : Except Bad (List Part)) : List Part := match r with | .ok l => l | .error _ => []
  let prep (r : Except Bad Prep) : List Part := ofOk (r.map Prep.parts)
  match j.op with
  | 0x01 => ofOk ((chkArray s j).map fun o => o.parts j.ctx)
  | 0x02 => ofOk ((chkArray s j).map fun o => o.parts j.ctx)
  | 0x03 => ofOk ((chkArray s j).map fun o => o.parts j.ctx)
  | 0x08 => if bit (j.body 0x10) 52 then [] else ofOk ((chkScan s j).map ScanOp.parts)
  | 0x0A => ofOk ((prepAttn s j.ctx true j.cmd).map fun o =>
      (o.allParts s j (o.sids.map (memberOf s))).map fun p => { p with runs := [] })
  | 0x10 => prep (prepVec s j.ctx j.cmd)
  | 0x11 => prep (prepSfn s j.ctx j.cmd)
  | 0x12 => prep (prepNorm s j.ctx j.cmd)
  | 0x13 => prep (prepSmax s j.ctx j.cmd)
  | 0x14 => prep (prepTopk s j.ctx j.cmd)
  | 0x18 => if bit (j.body 0x28) 20 then [] else prep (prepCopy s j.ctx j.cmd)
  | 0x38 => ofOk ((chkReduce s j).map fun p => reduceParts p.1)
  | _ => []

/-- A waiting command that no ordering point of 12 R382 holds has its operands fetched, once its pages are near. -/
def aheadOne (s : State) (j : Job) : State :=
  if j.phase != .waiting || j.ask.isSome || j.deps != 0 || s.behind j || fenceHeld s j then s
  else
    let ps := aheadParts s j
    if ps.isEmpty then s
    else
      let a := touchParts s j j.ctx ps
      if !a.1 then a.2
      else a.2.withJob j.q j.n fun s j =>
        (fetchAll s j fun _ => ps.flatMap fun p => p.pieces s j.ctx).2.withJob j.q j.n fun s j => s.setJob { j with ahead := true }

/-- The stream unit fetches ahead for up to `AHEAD_CMDS` commands of a queue beyond its oldest incomplete one (12 R381). -/
def fetchAhead (s : State) (q : Nat) : State :=
  if !s.awake || s.str.ahead == 0 then s
  else (((s.jobs.filter fun j => j.q == q).take (s.str.ahead + 1)).map Job.n).foldl (fun s n => s.withJob q n aheadOne) s

/-- COMMAND_TAKE. -/
def execCommandTake (q : BitVec 6) (s : State) : Host.Outcome State Fault Refusal := .next (fetchAhead (commandTake q s) q.toNat)
/-- DEPENDENCY_RELEASE. -/
def execDependencyRelease (q : BitVec 6) (n : BitVec 16) (s : State) : Host.Outcome State Fault Refusal :=
  .next (fetchAhead (dependencyRelease q n s) q.toNat)
/-- COMPLETION_RECORD. -/
def execCompletionRecord (q : BitVec 6) (n : BitVec 16) (s : State) : Host.Outcome State Fault Refusal :=
  .next (fetchAhead (completionRecord q n s) q.toNat)

end Sys2Proof.Machine
end

