-- ==== Sys2Proof/Machine/Rest.lean ====
section
/-! DEFINITION. Quiescence, the next known event and the choice of a power state (16 R528-R530). -/
namespace Sys2Proof.Machine

/-- A taken command waits at a WAIT or a BARRIER, or depends on one (16 R528). -/
def resting (s : State) (j : Job) : Bool :=
  j.phase != .done && (j.blocks || s.behind j ||
    (j.phase == .waiting && s.jobs.any fun k => k.q == j.q && decide (k.take < j.take) && k.blocks && k.phase != .done &&
      (List.range 16).any fun i => bit j.deps i && k.n == (j.n + 65536 - (i + 1)) % 65536))

/-- The engine is quiescent (16 R528). -/
def isQuiescent (s : State) : Bool :=
  s.allIdle && (s.cores.all fun p => p.2.saved.isEmpty) && s.str.tags.isEmpty &&
    (s.slots.recs.all fun p => !(p.2.state == 4 || p.2.state == 5 || p.2.state == 6)) && s.pg.falls.isEmpty && s.pg.rises.isEmpty &&
    (s.jobs.all fun j => j.op != 0x3C) && s.jobs.all (resting s) && !s.inp.halted && !s.inp.thermHalt

/-- The least of some LTs, where 0 stands for none. -/
def earliest (l : List Nat) : Option Nat := (l.filter (· != 0)).min?

/-- The LTs of the next known event (16 R529; 14 R474). -/
def knownEvents (s : State) : List Nat :=
  s.jobs.map Job.deadline ++ (s.qs.filterMap fun p => if p.2.enable then some p.2.startAt else none) ++
    [s.pwr.wakeAt, s.pwr.barExpect,
      if s.cas.state == 2 && s.cas.rank == 0 && s.cas.commitEn && s.cas.window != 0 then s.cas.base + s.cas.window else 0]

/-- The next known event. -/
def nextEvent (s : State) : Option Nat := earliest (knownEvents s)

/-- The deepest state that `PWR_CTRL.DEEPEST` allows: 0 acts as 1, 5 to 7 act as 4. -/
def deepest (s : State) : Nat := min 4 (max 1 s.pwr.deepest)

/-- A state's gap fits before an event (16 R530). -/
def gapFits (s : State) (e : Option Nat) (st : Nat) : Bool :=
  match e with
  | none => true
  | some e => decide (s.life.lt + breakEven st + wakeTime st ≤ e)

/-- The state to choose (16 R530, R534). -/
def chooseState (s : State) : Nat :=
  ([2, 3, 4].filter fun st => decide (st ≤ deepest s) && gapFits s (nextEvent s) st && (st != 4 || s.pwr.saveBase != 0)).foldl max 1

end Sys2Proof.Machine
end

