-- ==== Sys2Proof/Machine/Regs.lean ====
section
/-! DEFINITION. What the registers of the control space read (18 R552-R566; 00 R16-R18; the register tables of 03, 08, 10-17). -/
namespace Sys2Proof.Machine

/-- The index of an entry when `a` is entry `i < n` of a table at `base` with steps of `step`. -/
def entryOf (a base step n : Nat) : Option Nat :=
  if base ≤ a && a < base + step * n && (a - base) % step == 0 then some ((a - base) / step) else none

/-! ### Identity, status, faults (18 R552; 03 R99, R101; 17 R540-R542; 13 R441) -/

/-- `ENG_ID`, equal to IDCODE (15 R512, 18). -/
def engId : Nat := 0x1735324B
/-- `ENG_STATUS` (18). -/
def engStatus (s : State) : Nat :=
  b2n s.life.ready + (b2n s.life.maint) <<< 1 + (b2n s.life.selftestFail) <<< 2 + (b2n s.life.unfused) <<< 3 +
    (b2n s.life.recovery) <<< 4 + (b2n (s.life.ready && isQuiescent s)) <<< 8
/-- `ENG_CONFIG` (18). -/
def engConfig (s : State) : Nat :=
  Config.cores + Config.clusters <<< 9 + (b2n s.boot.tsu2) <<< 16 + 12 <<< 17 + s.boot.revision <<< 32

/-- Word `k` of a locator (03 R101). -/
def Locator.word (l : Locator) (k : Nat) : Nat := [l.cmd, l.src, l.row, l.col, l.kgrp, l.count].getD k 0

/-- `FR_CLASS` (17 R540). -/
def FaultRec.head (r : FaultRec) : Nat := r.cls + r.code <<< 8 + r.core <<< 16 + (b2n r.injected) <<< 30 + 2 ^ 31
/-- `FAULT_STATUS` (17). -/
def faultStatus (s : State) : Nat := s.flt.next + (b2n s.flt.wrapped) <<< 7 + s.flt.lost <<< 16
/-- `VLOG_STATUS` (13 R441). -/
def vlogStatus (s : State) : Nat := s.flt.vnext + (b2n s.flt.vwrapped) <<< 6 + s.flt.vlost <<< 16

/-- A word of the fault and violation block that is not 64 bits wide. -/
def regFault (s : State) (a : Nat) : Nat :=
  match entryOf a 0x1000 4 6, entryOf a 0x1020 4 6 with
  | some k, _ => s.flg.iv.word k
  | _, some k => s.flg.of.word k
  | _, _ =>
    if a == 0x1040 then faultStatus s
    else if a == 0x1044 then s.flt.summary
    else if a == 0x13F0 then vlogStatus s
    else if decide (0x1100 ≤ a) && decide (a < 0x1300) then
      (match s.flt.recs.find ((a - 0x1100) / 32) with
      | none => 0
      | some r => match a % 32 with
        | 0 => r.head
        | 4 => r.cmd
        | 0x10 => r.detail
        | 0x14 => r.aux
        | _ => 0)
    else if decide (0x1400 ≤ a) && decide (a < 0x1800) then
      (match s.flt.vlog.find ((a - 0x1400) / 16) with
      | none => 0
      | some r => [r.cmd, r.cause, r.aux, r.lt].getD (a % 16 / 4) 0)
    else 0

/-! ### Power, inputs, events (16 R539; 15 R499, R504) -/

/-- `PWR_CTRL` (16 R539). -/
def pwrCtrl (s : State) : Nat := s.pwr.opReq + s.pwr.deepest <<< 4 + (b2n s.pwr.stepdown) <<< 8
/-- `PWR_STATUS` (16 R539). A handshake is in progress from the rise of VREQ to the fall of VACK. -/
def pwrStatus (s : State) : Nat :=
  s.pwr.op + s.pwr.opTarget <<< 2 + (b2n (s.pwr.vreq || s.pwr.vack)) <<< 4 + s.pwr.state <<< 8 +
    (b2n (decide (s.pwr.thermalLimit < opReq s))) <<< 12 + (b2n (decide (opBudget s < opReq s))) <<< 13
/-- `IN_STATUS` (15 R499). -/
def inStatus (s : State) : Nat :=
  s.inp.level.toNat + s.inp.masked.toNat <<< 8 + s.inp.stuck.toNat <<< 12 + (b2n s.inp.halted) <<< 16 +
    (b2n s.inp.throttle) <<< 17 + (b2n s.inp.thermHalt) <<< 18

/-- A 32-bit register of the power block. -/
def regPower (s : State) (a : Nat) : Nat :=
  match entryOf a 0x2300 4 16, entryOf a 0x2340 4 16 with
  | some k, _ => s.pwr.beat.get k 0
  | _, some k => s.pwr.temp.get k 0
  | _, _ =>
    match a with
    | 0x2000 => pwrCtrl s
    | 0x2004 => pwrStatus s
    | 0x2008 => s.pwr.budget
    | 0x200C => s.pwr.tempHi + s.pwr.tempLo <<< 8
    | 0x2028 => s.pwr.est
    | 0x202C => s.ring.phase
    | 0x2030 => s.pwr.scrubRate
    | _ => 0

/-- A 32-bit register of the input and event block. -/
def regInput (s : State) (a : Nat) : Nat :=
  match entryOf a 0x3040 4 8 with
  | some n => s.evt.route.get n 0
  | none => if a == 0x3000 then inStatus s else if a == 0x3008 then s.inp.coalesced else 0

/-! ### Queues (13 R397) -/

/-- Some core holds a saved item of the queue. -/
def qSaved (s : State) (q : Nat) : Bool := s.cores.any fun p => p.2.saved.any fun i => i.1.q == q
/-- Commands of a queue taken and not completed. -/
def inflight (s : State) (q : Nat) : Nat := (s.jobs.filter fun j => j.q == q).length
/-- `Q_STATUS` (13 R397). -/
def qStatus (s : State) (q : Nat) : Nat :=
  b2n (inflight s q == 0) + (b2n (qSaved s q)) <<< 1 + (b2n (qSaved s q)) <<< 2 + (inflight s q) <<< 16
/-- `Q_CTRL` (13 R397). -/
def qCtrl (k : Queue) : Nat :=
  b2n k.enable + k.prio <<< 3 + (b2n k.noDl) <<< 6 + (b2n k.abort) <<< 7 + k.size2 <<< 8

/-- A 32-bit register of a queue window at offset `o`. -/
def regQueue (s : State) (q o : Nat) : Nat :=
  let k := s.queue q
  match o with
  | 0x18 => qCtrl k
  | 0x20 => k.head
  | 0x24 => k.tail
  | 0x28 => k.cplHead
  | 0x2C => k.cplTail
  | 0x34 => qStatus s q
  | 0x38 => k.seq
  | _ => 0

/-! ### Slots and pages (18 R557-R559; 10) -/

/-- A word of the captured slot record (18 R559). -/
def winWord (s : State) (k : Nat) : Nat :=
  match s.slots.win with
  | none => 0
  | some x => ofLe (((x.bytes x.state).drop (4 * k)).take 4)

/-- The least free reserve of any core (10). -/
def freeMin (s : State) : Nat := ((List.range Config.cores).map fun c => s.pg.resFree.get c 0).min?.getD 0

/-- A 32-bit register of the slot and page block. -/
def regSlots (s : State) (a : Nat) : Nat :=
  match entryOf a 0x8040 4 16 with
  | some k => winWord s k
  | none =>
    match a with
    | 0x8008 => s.slots.recs.length
    | 0x800C => min 0xFFFF (s.jobs.filter Job.slotWait).length
    | 0x8010 => s.slots.sel
    | 0x8014 => s.slots.find
    | 0x8018 => s.slots.sids.length
    | 0x801C => s.slots.fams.length
    | 0x8108 => s.pg.descCount
    | 0x8118 => s.pg.frameCount
    | 0x8120 => s.pg.perCore + (freeMin s) <<< 16
    | 0x8124 => s.pg.free
    | 0x8128 => s.pg.clock
    | 0x812C => s.pg.descFree
    | _ => 0

/-! ### Streams, tiers, cascade, tables (12; 11; 14; 08 R255; 18 R560) -/

/-- A 32-bit register of the stream and tier blocks. No tack transfer outlives the row that makes it (DESIGN CHOICE, log 6). -/
def regTiers (s : State) (a : Nat) : Nat :=
  match a with
  | 0x9000 => s.str.ahead <<< 8
  | 0x9004 => s.str.timeout
  | 0x9008 => s.str.ageLimit
  | 0x9028 => 64
  | 0x9400 => b2n s.tier.shelfEn + (b2n s.tier.neapEn) <<< 1 + (b2n s.tier.lossyEn) <<< 2 + s.tier.maxFalls <<< 8
  | 0x9410 => s.tier.shelfCount
  | 0x9414 => s.tier.shelfFree
  | 0x9428 => s.tier.neapSlots
  | 0x942C => s.tier.neapFree
  | 0x9440 => s.tier.margin
  | 0x9444 => s.tier.estLat
  | 0x9448 => s.tier.estRate
  | 0x944C => s.tier.freeLow
  | 0x9450 => s.tier.freeHigh
  | _ => 0

/-- `CAS_CTRL` (14). -/
def casCtrl (s : State) : Nat := b2n s.cas.enable + s.cas.rank <<< 8 + s.cas.size <<< 16 + s.cas.fanin <<< 24
/-- `CAS_STATUS` (14). -/
def casStatus (s : State) : Nat := s.cas.state + (if s.cas.rank == 0 then s.cas.joined.length % 256 else 0) <<< 8

/-- A 32-bit register of the cascade block. -/
def regCas (s : State) (a : Nat) : Nat :=
  match entryOf a 0xA040 4 8, entryOf a 0xA400 4 256 with
  | some k, _ => fld s.cas.stepMask (32 * k) 32
  | _, some r => s.cas.route.get r 0
  | _, _ =>
    match a with
    | 0xA000 => casCtrl s
    | 0xA004 => casStatus s
    | 0xA008 => s.cas.step
    | 0xA00C => s.cas.attempt
    | 0xA010 => s.cas.commitBar + (b2n s.cas.commitEn) <<< 8
    | 0xA014 => s.cas.window
    | 0xA018 => s.cas.repeatMax
    | _ => 0

/-- `TBL_STATUS` (08 R255). -/
def tblStatus (s : State) : Nat :=
  s.tbl.dqEpoch + s.tbl.sfuEpoch <<< 8 + (b2n s.tbl.dqPend) <<< 16 + (b2n s.tbl.sfuPend) <<< 17
/-- The domain that `TBL_SEL` names. -/
def tblDomain (s : State) : Bool := bit s.tbl.sel 8
/-- The bank that `TBL_SEL` names: `true` for B. -/
def tblBank (s : State) : Bool := bit s.tbl.sel 9
/-- The word at `TBL_ADDR` of the selected bank; beyond the image it reads 0 (18 R560). -/
def tblWord (s : State) : Nat :=
  if s.tbl.addr < bankSize (tblDomain s) then (bankOf s.tbl (tblDomain s) (tblBank s)).num s.tbl.addr 4 else 0

/-- A 32-bit register of the table window besides `TBL_DATA`. -/
def regTable (s : State) (a : Nat) : Nat :=
  match a with
  | 0xB000 => tblStatus s
  | 0xB004 => s.tbl.sel
  | 0xB008 => s.tbl.addr
  | _ => 0

/-! ### Boot, fuses, UART, debug (15 R506-R511; 18 R561; 17 R550) -/

/-- `BOOT_STATUS` (15 R509). -/
def bootStatus (s : State) : Nat :=
  s.boot.phase + s.boot.error <<< 4 + (b2n s.boot.reread) <<< 11 + s.boot.sck <<< 12 + (b2n s.boot.addr4) <<< 14 +
    (b2n s.boot.sfdpOk) <<< 15 + s.boot.readCmd <<< 16
/-- `FUSE_STATUS` (18). -/
def fuseStatus (s : State) : Nat :=
  b2n s.fuse.debugEn + (b2n (s.fuse.digest != 0)) <<< 1 + (b2n (s.fuse.key != 0)) <<< 2
/-- `DBG_STATUS` (17 R551). -/
def dbgStatus (s : State) : Nat :=
  b2n s.fuse.debugEn + (b2n s.mon.unlocked) <<< 1 + (b2n (decide (3 ≤ s.mon.wrong))) <<< 2 + (b2n s.mon.bpHit) <<< 3 +
    s.mon.bpIndex <<< 4 + (b2n s.mon.trOn) <<< 6 + (b2n s.mon.trFull) <<< 7 + s.mon.inj.length <<< 8
/-- Word `k` of `DBG_HALT_MASK` (17). -/
def haltWord (s : State) (k : Nat) : Nat :=
  ((List.range 32).map fun i => (b2n (s.inp.monHalt.contains (32 * k + i))) <<< i).foldl (· + ·) 0

/-- A 32-bit register of the boot, fuse, UART and debug block. Byte `4n` of the digest is in bits 7:0 of word `n` (18). -/
def regBoot (s : State) (a : Nat) : Nat :=
  match entryOf a 0xC020 4 8, entryOf a 0xC0A0 4 8, entryOf a 0xC0C0 4 4 with
  | some k, _, _ => ofLe (((beBytes 32 s.fuse.digest).drop (4 * k)).take 4)
  | _, some k, _ => haltWord s k
  | _, _, some k => s.mon.bp.get k 0
  | _, _, _ =>
    match a with
    | 0xC000 => bootStatus s
    | 0xC004 => s.boot.bytes
    | 0xC010 => fuseStatus s
    | 0xC040 => s.mon.divNext.getD s.mon.div
    | 0xC044 => s.mon.frameErr + s.mon.overrun <<< 16
    | 0xC080 => dbgStatus s
    | 0xC0E8 => s.mon.trSize
    | 0xC0EC => s.mon.trNext
    | 0xC0F0 => s.mon.trDrop
    | _ => 0

/-! ### Core windows (18 R563-R566) -/

/-- A core is stopped for its window: halted at a boundary, before READY, or after a failed self-test (18 R563). -/
def cwStopped (s : State) (c : Nat) : Bool :=
  s.inp.halted || s.inp.monHalt.contains c || !s.life.ready || s.life.selftestFail

/-- `CW_STATUS` (18 R563); `PSTATE` has its reset value before READY (DEDUCED, log 28). -/
def cwStatus (s : State) (c : Nat) : Nat :=
  c + (if !s.life.ready then 0 else if s.pwr.state == 0 then b2n (s.core c).idle else s.pwr.state) <<< 8 +
    (b2n (s.slots.recs.any fun p => p.2.resid == 2 && p.2.core == c)) <<< 11 + (b2n (s.inp.monHalt.contains c)) <<< 12 +
    (b2n (cwStopped s c)) <<< 13
/-- `CW_ITEM` (18 R563). -/
def cwItem (s : State) (c : Nat) : Nat :=
  let it := match s.atWork c, (s.core c).draining with
    | some i, _ => some i
    | none, p :: _ => some p.1
    | none, [] => none
  match it.bind fun i => s.job i.q i.n with
  | none => 0
  | some j => j.loc
/-- `CW_STATE_FREE` (18 R563; 06 R194), with its reset value before READY (DEDUCED, log 28). -/
def cwFree (s : State) (c : Nat) : Nat := if !s.life.ready then 0 else storeTop s c - ((storeUse s c).map Prod.snd).foldl (· + ·) 0

/-- A 32-bit register of a core window besides `CW_DATA`. -/
def regCore (s : State) (c o : Nat) : Nat :=
  let k := s.core c
  match o with
  | 0x00 => cwStatus s c
  | 0x04 => k.sel
  | 0x08 => k.addr
  | 0x10 => b2n k.ce + (b2n k.ue) <<< 1
  | 0x20 => cwItem s c
  | 0x24 => k.deque.length + (coreLoad s c) <<< 16
  | 0x28 => cwFree s c
  | _ => 0

/-! ### The whole space (18 R552) -/

/-- A 32-bit register, without any act of the read; an unassigned address reads 0 (00 R18). -/
def reg32 (s : State) (a : Nat) : Nat :=
  match a / 4096 with
  | 0x0 =>
    (match entryOf a 0x400 4 64 with
    | some i => s.sync.sem.get i 0
    | none => if a == 0 then engId else if a == 4 then engStatus s else if a == 0x10 then s.flg.eng.toNat else 0)
  | 0x1 => regFault s a
  | 0x2 => regPower s a
  | 0x3 => regInput s a
  | 0x4 => regQueue s ((a - 0x4000) / 256) (a % 256)
  | 0x5 => regQueue s ((a - 0x4000) / 256) (a % 256)
  | 0x6 => regQueue s ((a - 0x4000) / 256) (a % 256)
  | 0x7 => regQueue s ((a - 0x4000) / 256) (a % 256)
  | 0x8 => regSlots s a
  | 0x9 => regTiers s a
  | 0xA => regCas s a
  | 0xB => regTable s a
  | 0xC => regBoot s a
  | 0x18 => if a == 0x18000 then (b2n s.str.freeze) <<< 1 else 0
  | n => if 256 ≤ n && n < 512 then regCore s (n - 256) (a % 4096) else 0

/-- The 64-bit register whose low word is at `a`, if there is one (00 R16; 18 R552). -/
def reg64 (s : State) (a : Nat) : Option Nat :=
  match a / 4096 with
  | 0x0 => if a == 0x08 then some (engConfig s) else if a == 0x18 then some s.life.lt else none
  | 0x1 =>
    (match entryOf a 0x1108 32 16, entryOf a 0x1308 8 10 with
    | some i, _ => some (match s.flt.recs.find i with | some r => r.lt | none => 0)
    | _, some i => some (s.flt.count.get (i + 1) 0)
    | _, _ => if a == 0x1050 then some s.flt.suppressed else none)
  | 0x2 =>
    (match entryOf a 0x2068 8 5, entryOf a 0x2100 8 64 with
    | some i, _ => some (s.pwr.res.get i 0)
    | _, some q => some (s.queue q).startAt
    | _, _ => match a with
      | 0x2010 => some s.pwr.wakeAt
      | 0x2018 => some s.pwr.barExpect
      | 0x2020 => some s.pwr.saveBase
      | 0x2038 => some s.pwr.scrubCe
      | 0x2040 => some s.pwr.scrubUe
      | 0x2048 => some s.pwr.scrubPass
      | 0x2050 => some s.pwr.lateWake
      | 0x2058 => some s.pwr.slow
      | 0x2060 => some s.pwr.energy
      | _ => none)
  | 0x3 => if a == 0x3010 then some s.inp.throttleLt else none
  | 0x8 => (match a with
    | 0x8000 => some s.slots.dirBase
    | 0x8100 => some s.pg.descBase
    | 0x8110 => some s.pg.frameBase
    | 0x8130 => some s.pg.listBase
    | _ => none)
  | 0x9 => (match a with
    | 0x9010 => some s.str.wasteTotal
    | 0x9018 => some s.str.poisonTotal
    | 0x9020 => some s.str.timeouts
    | 0x9408 => some s.tier.shelfBase
    | 0x9418 => some s.tier.sideBase
    | 0x9420 => some s.tier.neapBase
    | 0x9430 => some s.tier.neapQ
    | 0x9438 => some s.tier.lossyQ
    | 0x9458 => some s.tier.neapCount
    | 0x9460 => some s.tier.neapSkip
    | 0x9468 => some s.tier.foldErr
    | _ => none)
  | 0xA =>
    (match entryOf a 0xA100 8 64 with
    | some k => if k % 4 == 3 then none else some (s.cas.pair.get (8 * (k / 4) + k % 4) 0)
    | none => match a with
      | 0xA020 => some s.cas.qmask
      | 0xA028 => some s.cas.semmask
      | 0xA030 => some s.cas.btab
      | 0xA038 => some s.cas.buf
      | 0xA060 => some s.cas.waitLt
      | 0xA068 => some s.cas.repeatCount
      | 0xA070 => some s.cas.dupCount
      | 0xA078 => some s.cas.staleCount
      | 0xA080 => some s.cas.aperBase
      | 0xA088 => some s.cas.aperSize
      | _ => none)
  | 0xC => if a == 0xC018 then some s.fuse.uid else if a == 0xC0E0 then some s.mon.trBase else none
  | 0x18 => (match a with
    | 0x18008 => some s.slots.waitLt
    | 0x18010 => some (s.total 12)
    | 0x18018 => some (s.total 13)
    | 0x18020 => some (s.total 14)
    | 0x18028 => some (s.total 15)
    | _ => none)
  | n =>
    if 4 ≤ n && n < 8 then
      (match a % 256 with
      | 0x00 => some (s.queue ((a - 0x4000) / 256)).ring
      | 0x08 => some (s.queue ((a - 0x4000) / 256)).cpl
      | 0x10 => some (s.queue ((a - 0x4000) / 256)).save
      | _ => none)
    else if 16 ≤ n && n < 24 then (if a % 8 == 0 then some (s.counter ((a - 0x10000) / 128) ((a - 0x10000) / 8 % 16)) else none)
    else if 256 ≤ n && n < 512 then (if a % 4096 == 0x18 then some (s.core (n - 256)).bubble else none)
    else none

/-- The register at `a` is the low word of a 64-bit register. -/
def isLow (s : State) (a : Nat) : Bool := (reg64 s a).isSome
/-- The register at `a` is the high word of a 64-bit register. -/
def isHigh (s : State) (a : Nat) : Bool := 4 ≤ a && (reg64 s (a - 4)).isSome

end Sys2Proof.Machine
end

