-- ==== Sys2Proof/Machine/Control.lean ====
section
/-! DEFINITION. The control port: register writes under their conditions, reads that act, 64-bit staging and capture, and
accesses held for a wake (00 R16; 15 R490, R491; 16 R532; 18 R552-R566). -/
namespace Sys2Proof.Machine

/-- A write outside its condition is entered in the violation log with its register's address (18 R554). -/
def locked (s : State) (a : Nat) : State := viol s 0 0x07 a 0

/-! ### Recovery (16 R521; 10 R315; 18 R556) -/

/-- The frames that reserve stacks hold. -/
def reserveFrames (s : State) : List Nat :=
  (List.range Config.cores).flatMap fun c => tab (s.pg.resFree.get c 0) fun i => entryAt s (stackBase s 3 + 4 * 4096 * c) i

/-- A stack rewritten with the free indices in ascending order. -/
def packStack (s : State) (i : Nat) (l : List Nat) : State := s.wr (stackBase s i) (l.flatMap (leBytes 4))

/-- Stacks 1, 2, 4 and 5 are rebuilt from the descriptors (10 R315). -/
def rebuildStacks (s : State) : State :=
  if !s.pg.init then s
  else
    let ds := tab s.pg.descCount fun d => (d, getDesc s d)
    let near := ds.filterMap fun p => if [1, 3, 4].contains p.2.state then some p.2.frame else none
    let far := ds.filterMap fun p => if [2, 3, 4].contains p.2.state then some p.2.slot else none
    let kept := reserveFrames s
    let sums := ds.filterMap fun p => if bit (sideWord s p.1) 0 then some (fld (sideWord s p.1) 8 24) else none
    let free1 := (ds.filter fun p => p.2.state == 0).map Prod.fst
    let free2 := (List.range s.pg.frameCount).filter fun f => !near.contains f && !kept.contains f
    let free4 := (List.range s.tier.shelfCount).filter fun k => !far.contains k
    let free5 := (List.range s.tier.neapSlots).filter fun k => !sums.contains k
    let s := packStack (packStack (packStack (packStack s 1 free1) 2 free2) 4 free4) 5 free5
    { s with
      pg := { s.pg with descFree := free1.length, free := free2.length }
      tier := { s.tier with shelfFree := free4.length, neapFree := free5.length } }

/-- A write of `ENG_CTRL` (16 R521; 18 R556). -/
def writeEngCtrl (s : State) (v : Nat) : State :=
  let rec' := bit v 0
  let srv := bit v 1
  if (rec' && srv) || !s.life.ready || !s.jobs.isEmpty then (if s.life.ready then locked s 0x14 else s)
  else if rec' && !s.life.recovery then { s with life := { s.life with recovery := true, maint := true } }
  else if srv && s.life.recovery then
    rebuildStacks { s with life := { s.life with recovery := false, maint := false } }
  else s

/-- A write of `ENG_FLAGS`: each 1 clears its flag, IV and OF their locators too (03 R99, R103). -/
def writeFlags (s : State) (v : Nat) : State :=
  { s with flg := { s.flg with
      eng := s.flg.eng &&& ~~~(BitVec.ofNat 5 v)
      iv := if bit v 0 then {} else s.flg.iv
      of := if bit v 2 then {} else s.flg.of } }

/-- A write of the identity and semaphore block (18 R552; 13 R428). -/
def writeGlobal (s : State) (a v : Nat) : State :=
  match entryOf a 0x400 4 64 with
  | some i => setSem s i v
  | none => if a == 0x10 then writeFlags s v else if a == 0x14 then writeEngCtrl s v else s

/-- A write of the fault block (17 R542; 13 R441). -/
def writeFault (s : State) (a v : Nat) : State :=
  if a == 0x1044 then { s with flt := { s.flt with summary := s.flt.summary - (s.flt.summary &&& v) } }
  else if a == 0x1048 && bit v 0 then { s with flt := { s.flt with recs := [], next := 0, wrapped := false, lost := 0 } }
  else if a == 0x13F4 && bit v 0 then { s with flt := { s.flt with vlog := [], vnext := 0, vwrapped := false, vlost := 0 } }
  else s

/-- A write of the power block (16 R539). -/
def writePower (s : State) (a v : Nat) : State :=
  match a with
  | 0x2000 => retarget { s with pwr := { s.pwr with opReq := fld v 0 2, deepest := fld v 4 3, stepdown := bit v 8 } }
  | 0x2008 => retarget { s with pwr := { s.pwr with budget := fld v 0 16 } }
  | 0x200C => { s with pwr := { s.pwr with tempHi := fld v 0 8, tempLo := fld v 8 8 } }
  | 0x2030 => { s with pwr := { s.pwr with scrubRate := fld v 0 16 } }
  | _ => s

/-! ### Inputs (15 R500-R503) -/

/-- A halt ends: an input still asserted is ignored until it is deasserted, and a command held at a breakpoint goes on
(15 R500; 17 R548, R549). -/
def haltRelease (s : State) : State :=
  if s.inp.halted then
    { s with
      inp := { s.inp with
        halted := false
        masked := if s.inp.level.getLsbD 0 then s.inp.masked ||| 1 else s.inp.masked }
      jobs := s.jobs.map fun j => if j.phase == .held then { j with phase := .waiting } else j }
  else s

/-- The units stopped by THERM_TRIP restart once it is deasserted, and transfers that wait are issued (15 R501). -/
def thermRestart (s : State) : State :=
  if s.inp.thermHalt && !s.inp.level.getLsbD 2 then pumpWrites { s with inp := { s.inp with thermHalt := false } } else s

/-- A write of `IN_REARM` (15 R500, R501, R503). -/
def writeRearm (s : State) (v : Nat) : State :=
  let s := if bit v 0 then haltRelease s else s
  let s := if bit v 1 then { s with inp := { s.inp with masked := s.inp.masked &&& 13, stuck := s.inp.stuck &&& 13 } } else s
  let s := if bit v 2 then thermRestart s else s
  if bit v 3 then { s with inp := { s.inp with stuck := s.inp.stuck &&& 7 } } else s

/-- A write of the input and event block (15 R499, R504). -/
def writeInput (s : State) (a v : Nat) : State :=
  match entryOf a 0x3040 4 8 with
  | some n => { s with evt := { s.evt with route := s.evt.route.put n (fld v 0 9) } }
  | none => if a == 0x3004 then writeRearm s v else s

/-! ### Queues (13 R397-R399, R438) -/

/-- A doorbell (13 R399; 16 R529, R531). -/
def ringBell (s : State) (q v : Nat) : State :=
  let k := s.queue q
  let t := fld v 0 16
  if (t + 65536 - k.head) % 65536 ≤ 2 ^ k.log2 && (t + 65536 - k.tail) % 65536 ≤ 2 ^ k.log2 then
    wakeEvent (s.setQueue q { k with tail := t, startAt := 0 })
  else viol s 0 0x02 q v

/-- A cancellation through a queue sequence number (13 R438): published commands not yet taken will complete as cancelled, taken
ones are ended. -/
def cancelThrough (s : State) (q v : Nat) : State :=
  let k := s.queue q
  let t := fld v 0 16
  let covers (n : Nat) : Bool := decide ((t + 65536 - n) % 65536 < 32768)
  let waiting := (k.tail + 65536 - k.head) % 65536
  let n := if covers k.seq then min waiting ((t + 65536 - k.seq) % 65536 + 1) else 0
  let s := s.setQueue q { k with cancelLeft := max k.cancelLeft n }
  (s.jobs.filter fun j => j.q == q && covers j.n).foldl (fun s j => endJob s q j.n 3) s

/-- A write of `Q_CTRL` (13 R397, R398): the size field is locked while the queue is enabled. -/
def writeQCtrl (s : State) (q v : Nat) : State :=
  let k := s.queue q
  let size := fld v 8 5
  let s := if k.enable && size != k.size2 then locked s (0x4018 + 256 * q) else s
  s.setQueue q { k with
    size2 := if k.enable then k.size2 else size
    abort := bit v 7
    noDl := bit v 6
    prio := fld v 3 3
    enable := bit v 0
    since := if !k.enable && bit v 0 then s.takeNo else k.since }

/-- A write of a queue window's 32-bit register (13 R397). -/
def writeQueue (s : State) (q o v : Nat) : State :=
  match o with
  | 0x18 => writeQCtrl s q v
  | 0x1C => ringBell s q v
  | 0x28 => s.setQueue q { s.queue q with cplHead := fld v 0 16 }
  | 0x30 => cancelThrough s q v
  | _ => s

/-! ### Slots, pages, streams, tiers (18 R557-R559; 10 R332; 11 R347; 12) -/

/-- Some sequence is admitted. -/
def anyAdmitted (s : State) : Bool := !s.slots.sids.isEmpty

/-- A write of a register that is locked while a sequence is admitted; an accepted one has the page system set up again
(10 R314, R332; 11 R347). -/
def pageWrite (s : State) (a : Nat) (f : State → State) : State :=
  if anyAdmitted s then locked s a else f { s with pg := { s.pg with init := false } }

/-- The lookup of a SID (18 R558). -/
def findSid (s : State) (v : Nat) : State :=
  { s with slots := { s.slots with find := match slotOf s (fld v 0 20) with
      | some (i, _) => 2 ^ 31 + i
      | none => 0 } }

/-- A write of the slot and page block's 32-bit registers. -/
def writeSlots (s : State) (a v : Nat) : State :=
  match a with
  | 0x8010 => { s with slots := { s.slots with sel := fld v 0 12, win := none } }
  | 0x8014 => findSid s v
  | 0x8108 => pageWrite s a fun s => { s with pg := { s.pg with descCount := v } }
  | 0x8118 => pageWrite s a fun s => { s with pg := { s.pg with frameCount := v } }
  | 0x8120 => pageWrite s a fun s => { s with pg := { s.pg with perCore := fld v 0 12 } }
  | _ => s

/-- A write of the stream and tier blocks' 32-bit registers. -/
def writeTiers (s : State) (a v : Nat) : State :=
  match a with
  | 0x9000 => { s with str := { s.str with ahead := fld v 8 4 } }
  | 0x9004 => { s with str := { s.str with timeout := v } }
  | 0x9008 => { s with str := { s.str with ageLimit := v } }
  | 0x9400 => pageWrite s a fun s => { s with tier := { s.tier with
      maxFalls := fld v 8 6
      lossyEn := bit v 2
      neapEn := bit v 1
      shelfEn := bit v 0 } }
  | 0x9410 => pageWrite s a fun s => { s with tier := { s.tier with shelfCount := v } }
  | 0x9428 => pageWrite s a fun s => { s with tier := { s.tier with neapSlots := v } }
  | 0x9440 => { s with tier := { s.tier with margin := v } }
  | 0x9444 => { s with tier := { s.tier with estLat := v } }
  | 0x9448 => { s with tier := { s.tier with estRate := v } }
  | 0x944C => { s with tier := { s.tier with freeLow := fld v 0 24 } }
  | 0x9450 => { s with tier := { s.tier with freeHigh := fld v 0 24 } }
  | _ => s

/-! ### Cascade and tables (14 R442; 18 R560) -/

/-- A write of a register that is locked while the group is enabled (14 R442). -/
def casWrite (s : State) (a : Nat) (f : Cascade → Cascade) : State :=
  if s.cas.enable then locked s a else { s with cas := f s.cas }

/-- A write of `CAS_CTRL` (14 R442, R444, R478). -/
def writeCasCtrl (s : State) (v : Nat) : State :=
  let s := casEnable s v
  if bit v 0 then s else casDisable s

/-- A write of the cascade block's 32-bit registers. -/
def writeCas (s : State) (a v : Nat) : State :=
  match entryOf a 0xA040 4 8, entryOf a 0xA400 4 256 with
  | some k, _ => casWrite s a fun c => { c with stepMask := setFld c.stepMask (32 * k) 32 v }
  | _, some r => casWrite s a fun c => { c with route := c.route.put r (v &&& 0x8000FFFF) }
  | _, _ =>
    match a with
    | 0xA000 => writeCasCtrl s v
    | 0xA010 => casWrite s a fun c => { c with commitBar := fld v 0 6, commitEn := bit v 8 }
    | 0xA014 => { s with cas := { s.cas with window := v } }
    | 0xA018 => { s with cas := { s.cas with repeatMax := fld v 0 8 } }
    | _ => s

/-- `TBL_ADDR` moves on by a word (18 R560). -/
def tblNext (s : State) : State := { s with tbl := { s.tbl with addr := (s.tbl.addr + 4) % 2 ^ 16 } }

/-- A TABLE of the domain is between its steps 1 and 5 (08 R250, R255). -/
def reloading (s : State) (sfu : Bool) : Bool := tblPend s.tbl sfu || s.jobs.any fun j => j.reloads sfu && j.stage != 0

/-- A write of `TBL_DATA` (08 R255; 18 R560). -/
def writeTblData (s : State) (v : Nat) : State :=
  let sfu := tblDomain s
  let bank := tblBank s
  let ok := bank != activeB s.tbl sfu && !reloading s sfu && bankWritable sfu s.tbl.addr && decide (s.tbl.addr < bankSize sfu)
  tblNext (if ok then { s with tbl := putBank s.tbl sfu bank ((bankOf s.tbl sfu bank).write s.tbl.addr (leBytes 4 v)) }
    else viol s 0 0x05 s.tbl.addr 0)

/-- A write of the table window (18 R560). -/
def writeTable (s : State) (a v : Nat) : State :=
  match a with
  | 0xB004 => { s with tbl := { s.tbl with sel := fld v 0 10 } }
  | 0xB008 => { s with tbl := { s.tbl with addr := 4 * fld v 2 14 } }
  | 0xB00C => writeTblData s v
  | _ => s

/-! ### UART divisor, counters, core windows (15 R510; 18 R562, R564, R565) -/

/-- A new UART divisor takes effect at the end of the character being sent, at once when none is (15 R510). -/
def setDiv (s : State) (v : Nat) : State :=
  if s.mon.tx.isEmpty then { s with mon := { s.mon with div := fld v 0 16, divNext := none } }
  else { s with mon := { s.mon with divNext := some (fld v 0 16) } }

/-- The counter clear (18 R562). -/
def clearCounts (s : State) : State :=
  { s with
    str := { s.str with cnt := [], seen := 0, wasteTotal := 0, poisonTotal := 0 }
    slots := { s.slots with waitLt := 0 }
    cores := s.cores.map fun p => (p.1, { p.2 with bubble := 0 }) }

/-- A write of `CNT_CTRL` (18 R562). -/
def writeCntCtrl (s : State) (v : Nat) : State :=
  let s := if bit v 0 then clearCounts s else s
  { s with str := { s.str with freeze := bit v 1 } }

/-- The T0 address that a core window points at. -/
def cwAddr (s : State) (c : Nat) : Nat := t0Addr c (s.core c).sel (s.core c).addr
/-- `CW_ADDR` moves on by a word (18 R564, R565). -/
def cwNext (s : State) (c : Nat) : State := s.setCore c { s.core c with addr := ((s.core c).addr + 4) % 2 ^ 20 }

/-- The word at `CW_ADDR` has one flipped bit. -/
def T0Mem.corrected (m : T0Mem) (word : Nat) : Bool := m.ce.any fun k => k / 128 == word

/-- A read of `CW_DATA` (18 R564). -/
def readCwData (s : State) (c : Nat) : Nat × State :=
  let a := cwAddr s c
  let bad := s.t0.ue.contains (a / 8)
  let v := if bad then 0 else s.t0.bytes.num a 4
  let s := s.setCore c { s.core c with ue := bad, ce := !bad && s.t0.corrected (a / 8) }
  (v, cwNext (if bad then ueFault s c (a / 8) 0 else s) c)

/-- A write of `CW_DATA` (18 R565): the whole 64-bit word gets fresh check bits. -/
def writeCwData (s : State) (c v : Nat) : State :=
  if !cwStopped s c then cwNext (locked s (0x10000C + 4096 * c)) c
  else
    let a := cwAddr s c
    let w := a / 8
    let bad := s.t0.ue.contains w
    let b := if bad then s.t0.bytes.zero (8 * w) 8 else s.t0.bytes
    let s := { s with t0 := (⟨b.write a (leBytes 4 v), s.t0.ue.filter (· != w), s.t0.ce.filter (fun k => k / 128 != w),
      s.t0.inj.filter (· != w)⟩ : T0Mem) }
    cwNext (s.setCore c { s.core c with ue := bad }) c

/-- A write of a core window (18 R563). -/
def writeCore (s : State) (c o v : Nat) : State :=
  match o with
  | 0x04 => s.setCore c { s.core c with sel := fld v 0 1 }
  | 0x08 => s.setCore c { s.core c with addr := 4 * fld v 2 18 }
  | 0x0C => writeCwData s c v
  | _ => s

/-! ### Writes of whole registers -/

/-- A write of a 32-bit register; a read-only or unassigned address ignores it (00 R17, R18). -/
def write32 (s : State) (a v : Nat) : State :=
  match a / 4096 with
  | 0x0 => writeGlobal s a v
  | 0x1 => writeFault s a v
  | 0x2 => writePower s a v
  | 0x3 => writeInput s a v
  | 0x4 => writeQueue s ((a - 0x4000) / 256) (a % 256) v
  | 0x5 => writeQueue s ((a - 0x4000) / 256) (a % 256) v
  | 0x6 => writeQueue s ((a - 0x4000) / 256) (a % 256) v
  | 0x7 => writeQueue s ((a - 0x4000) / 256) (a % 256) v
  | 0x8 => writeSlots s a v
  | 0x9 => writeTiers s a v
  | 0xA => writeCas s a v
  | 0xB => writeTable s a v
  | 0xC => if a == 0xC040 then setDiv s v else s
  | 0x18 => if a == 0x18000 then writeCntCtrl s v else s
  | n => if 256 ≤ n && n < 512 then writeCore s (n - 256) (a % 4096) v else s

/-- The three base registers of a queue window, locked while the queue is enabled (13 R398). -/
def writeQBase (s : State) (a v : Nat) : State :=
  let q := (a - 0x4000) / 256
  let k := s.queue q
  if k.enable then locked s a
  else match a % 256 with
    | 0x00 => s.setQueue q { k with ring := v }
    | 0x08 => s.setQueue q { k with cpl := v }
    | _ => s.setQueue q { k with save := v }

/-- A write of a whole 64-bit register, named by its low address (00 R16; 18 R554). -/
def write64 (s : State) (a v : Nat) : State :=
  match entryOf a 0x2100 8 64, entryOf a 0xA100 8 64 with
  | some q, _ => s.setQueue q { s.queue q with startAt := v }
  | _, some k => casWrite s a fun c => { c with pair := c.pair.put (8 * (k / 4) + k % 4) v }
  | _, _ =>
    if 0x4000 ≤ a && a < 0x8000 then writeQBase s a v
    else match a with
      | 0x2010 => { s with pwr := { s.pwr with wakeAt := v } }
      | 0x2018 => { s with pwr := { s.pwr with barExpect := v } }
      | 0x2020 => if s.pwr.state == 4 then locked s a else { s with pwr := { s.pwr with saveBase := v } }
      | 0x8000 => pageWrite s a fun s => { s with slots := { s.slots with dirBase := v - v % 2 ^ 26 } }
      | 0x8100 => pageWrite s a fun s => { s with pg := { s.pg with descBase := v } }
      | 0x8110 => pageWrite s a fun s => { s with pg := { s.pg with frameBase := v } }
      | 0x8130 => pageWrite s a fun s => { s with pg := { s.pg with listBase := v } }
      | 0x9408 => pageWrite s a fun s => { s with tier := { s.tier with shelfBase := v } }
      | 0x9418 => pageWrite s a fun s => { s with tier := { s.tier with sideBase := v } }
      | 0x9420 => pageWrite s a fun s => { s with tier := { s.tier with neapBase := v } }
      | 0x9430 => { s with tier := { s.tier with neapQ := v } }
      | 0x9438 => { s with tier := { s.tier with lossyQ := v } }
      | 0xA020 => casWrite s a fun c => { c with qmask := v }
      | 0xA028 => casWrite s a fun c => { c with semmask := v }
      | 0xA030 => casWrite s a fun c => { c with btab := v }
      | 0xA038 => casWrite s a fun c => { c with buf := v }
      | 0xA080 => casWrite s a fun c => { c with aperBase := v }
      | 0xA088 => casWrite s a fun c => { c with aperSize := v }
      | _ => s

/-! ### Accesses -/

/-- A write access of one word that has reached its register (00 R16; 15 R490, R514): a low word is staged, a high word sets the
whole value, and any other word acts at once. -/
def ctrlWrite (s : State) (a v : Nat) : State :=
  if a % 4 != 0 then portViol s 6 0x07 a
  else if isLow s a then { s with ctl := { s.ctl with staged := s.ctl.staged.put a v } }
  else if isHigh s a then
    let low := (s.ctl.staged.find (a - 4)).getD (((reg64 s (a - 4)).getD 0) % 2 ^ 32)
    write64 { s with ctl := { s.ctl with staged := s.ctl.staged.del (a - 4) } } (a - 4) (low + v <<< 32)
  else write32 s a v

/-- A read access of one word, with its answer (00 R16; 15 R490, R514; 18 R559, R560, R564). -/
def ctrlRead (s : State) (a : Nat) : Nat × State :=
  if a % 4 != 0 then (0, portViol s 6 0x07 a)
  else if a == 0x8040 then
    let x := s.slots.recs.get s.slots.sel {}
    let s := { s with slots := { s.slots with win := some x } }
    (winWord s 0, s)
  else if a == 0xB00C then (tblWord s, tblNext s)
  else if 0x100000 ≤ a && a % 4096 == 0xC then readCwData s (a / 4096 - 256)
  else match reg64 s a with
    | some v => (v % 2 ^ 32, { s with ctl := { s.ctl with captured := s.ctl.captured.put a v } })
    | none =>
      if isHigh s a then
        let v := (s.ctl.captured.find (a - 4)).getD ((reg64 s (a - 4)).getD 0)
        (v >>> 32, { s with ctl := { s.ctl with captured := s.ctl.captured.del (a - 4) } })
      else (reg32 s a, s)

/-- Before READY only these ranges answer on the control port (15 R491). -/
def earlyRange (a : Nat) : Bool := decide (a < 0x1000) || (decide (0xC000 ≤ a) && decide (a < 0xD000))
/-- The registers held on VDD_AON (16 R532). -/
def alwaysOn (a : Nat) : Bool := decide (a < 0x8000) || (decide (0xC000 ≤ a) && decide (a < 0xD000))

/-- An access of the control port (15 R490, R491): a write (`w`), or a read that is answered. -/
def portNow (s : State) (w : Bool) (a v : Nat) : State :=
  if !s.life.ready && !earlyRange a then (if w then s else { s with ctl := { s.ctl with answers := s.ctl.answers ++ [0] } })
  else if w then ctrlWrite s a v
  else
    let r := ctrlRead s a
    { r.2 with ctl := { r.2.ctl with answers := r.2.ctl.answers ++ [BitVec.ofNat 32 r.1] } }

/-- An access outside the always-on ranges wakes the engine, and it and the accesses behind it wait for the wake
(15 R490; 16 R531, R532). -/
def portAccess (s : State) (w : Bool) (a v : Nat) : State :=
  if s.life.rstLow then s
  else if s.life.ready && !(s.pwr.state == 0 && s.pwr.move.isNone) && (!alwaysOn a || !s.pwr.heldAcc.isEmpty) then
    wakeEvent { s with pwr := { s.pwr with heldAcc := s.pwr.heldAcc ++ [(w, a, v)] } }
  else portNow s w a v

/-- The accesses held for a wake are answered in their order. -/
def answerHeld (s : State) : State :=
  s.pwr.heldAcc.foldl (fun s p => portNow s p.1 p.2.1 p.2.2) { s with pwr := { s.pwr with heldAcc := [] } }

/-- A write on the control port. -/
def portWrite (a v : Nat) (s : State) : State := portAccess s true a v
/-- A read on the control port. -/
def portRead (a : Nat) (s : State) : State := portAccess s false a 0

/-- Q_DOORBELL. -/
def execQDoorbell (q : BitVec 6) (v : Word) (s : State) : Host.Outcome State Fault Refusal :=
  .next (portWrite (0x401C + 256 * q.toNat) v.toNat s)
/-- Q_CANCEL. -/
def execQCancel (q : BitVec 6) (v : Word) (s : State) : Host.Outcome State Fault Refusal :=
  .next (portWrite (0x4030 + 256 * q.toNat) v.toNat s)
/-- ENG_FLAGS. -/
def execEngFlags (v : Word) (s : State) : Host.Outcome State Fault Refusal := .next (portWrite 0x10 v.toNat s)
/-- RECOVER. -/
def execRecover (s : State) : Host.Outcome State Fault Refusal := .next (portWrite 0x14 1 s)
/-- SERVICE. -/
def execService (s : State) : Host.Outcome State Fault Refusal := .next (portWrite 0x14 2 s)
/-- FAULT_CLEAR. -/
def execFaultClear (v : Word) (s : State) : Host.Outcome State Fault Refusal := .next (portWrite 0x1048 v.toNat s)
/-- VLOG_CLEAR. -/
def execVlogClear (v : Word) (s : State) : Host.Outcome State Fault Refusal := .next (portWrite 0x13F4 v.toNat s)
/-- HALT_REL. -/
def execHaltRel (s : State) : Host.Outcome State Fault Refusal := .next (portWrite 0x3004 1 s)
/-- WAKE_REARM. -/
def execWakeRearm (s : State) : Host.Outcome State Fault Refusal := .next (portWrite 0x3004 2 s)
/-- THERM_REARM. -/
def execThermRearm (s : State) : Host.Outcome State Fault Refusal := .next (portWrite 0x3004 4 s)
/-- DROOP_CLR. -/
def execDroopClr (s : State) : Host.Outcome State Fault Refusal := .next (portWrite 0x3004 8 s)
/-- The counter clear: a write of `CNT_CTRL` that leaves `FREEZE` as it is. -/
def execClearCounters (on : Bool) (s : State) : Host.Outcome State Fault Refusal :=
  .next (portWrite 0x18000 (b2n on + (b2n s.str.freeze) <<< 1) s)
/-- The counter freeze. -/
def execFreezeCounters (on : Bool) (s : State) : Host.Outcome State Fault Refusal := .next (portWrite 0x18000 ((b2n on) <<< 1) s)
/-- SLOT_FIND. -/
def execSlotFind (v : Word) (s : State) : Host.Outcome State Fault Refusal := .next (portWrite 0x8014 v.toNat s)
/-- SLOT_SEL. -/
def execSlotSel (v : Word) (s : State) : Host.Outcome State Fault Refusal := .next (portWrite 0x8010 v.toNat s)
/-- A read of SLOT_WIN0. -/
def execSlotWin0Read (s : State) : Host.Outcome State Fault Refusal := .next (portRead 0x8040 s)
/-- A read of TBL_DATA. -/
def execTblDataRead (s : State) : Host.Outcome State Fault Refusal := .next (portRead 0xB00C s)
/-- A write of TBL_DATA. -/
def execTblDataWrite (v : Word) (s : State) : Host.Outcome State Fault Refusal := .next (portWrite 0xB00C v.toNat s)
/-- A read of CW_DATA. -/
def execCwDataRead (c : BitVec 8) (s : State) : Host.Outcome State Fault Refusal := .next (portRead (0x10000C + 4096 * c.toNat) s)
/-- A write of CW_DATA. -/
def execCwDataWrite (c : BitVec 8) (v : Word) (s : State) : Host.Outcome State Fault Refusal :=
  .next (portWrite (0x10000C + 4096 * c.toNat) v.toNat s)
/-- A read of the low word of a 64-bit register. -/
def execReg64LowRead (a : BitVec 24) (s : State) : Host.Outcome State Fault Refusal := .next (portRead a.toNat s)
/-- A write of the low word of a 64-bit register. -/
def execReg64LowWrite (a : BitVec 24) (v : Word) (s : State) : Host.Outcome State Fault Refusal := .next (portWrite a.toNat v.toNat s)
/-- A write of the high word of a 64-bit register. -/
def execReg64HighWrite (a : BitVec 24) (v : Word) (s : State) : Host.Outcome State Fault Refusal := .next (portWrite a.toNat v.toNat s)
/-- A write that sets CAS_CTRL.ENABLE. -/
def execCasEnable (v : Word) (s : State) : Host.Outcome State Fault Refusal := .next (portWrite 0xA000 (v ||| 1).toNat s)
/-- A write that clears CAS_CTRL.ENABLE and keeps its fields. -/
def execCasDisable (s : State) : Host.Outcome State Fault Refusal := .next (portWrite 0xA000 (casCtrl s - casCtrl s % 2) s)
/-- REG_WRITE. -/
def execRegWrite (a : BitVec 24) (v : Word) (s : State) : Host.Outcome State Fault Refusal := .next (portWrite a.toNat v.toNat s)
/-- CONTROL_PORT_READ. -/
def execControlPortRead (a : BitVec 24) (s : State) : Host.Outcome State Fault Refusal := .next (portRead a.toNat s)

end Sys2Proof.Machine
end

