-- ==== Sys2Proof/Machine/Power.lean ====
section
/-! DEFINITION. Rail setpoints, power states, telemetry and background work (15 R492, R493; 16 R525-R539). -/
namespace Sys2Proof.Machine

/-- VACK, the UART and the conditioned inputs do not reach the engine while EXTEST, CLAMP or HIGHZ is in effect (15 R513). -/
def tapHolds (s : State) : Bool := [0, 3, 4].contains s.tap.ir
/-- The always-on controller runs: RST_N is high (15 R496, R497). -/
def State.running (s : State) : Bool := !s.life.rstLow

/-! ### The setpoint handshake (15 R493) -/

/-- Drives a setpoint and raises VREQ. -/
def driveRail (s : State) (sel code : Nat) (op : Option Nat) : State :=
  { s with pwr := { s.pwr with
      vsel := sel
      vset := code
      vreq := true
      hsLt := s.life.lt
      late := false
      asking := op } }

/-- SETPOINT_CHANGE (15 R493; 16 R525): the next setpoint wanted, else that of a new operating point. -/
def setpointChange (s : State) : State :=
  if !s.running || s.pwr.vreq || s.pwr.vack then s
  else match s.pwr.want with
  | (sel, code) :: rest => driveRail { s with pwr := { s.pwr with want := rest } } sel code none
  | [] =>
    let s := retarget s
    if s.life.ready && s.pwr.state == 0 && s.pwr.move.isNone && s.pwr.opTarget != s.pwr.op then
      driveRail s 0 (opCode s s.pwr.opTarget) (some s.pwr.opTarget)
    else s

/-- The value of VSEL and VSET that a violation and a fault name (15 R514; 17 R541). -/
def railWord (s : State) : Nat := s.pwr.vset % 256 + (s.pwr.vsel % 4) <<< 8

/-- The trace entry of a power state or operating point (17 R550). -/
def tracePower (s : State) : State := trace s 0x0A 5 0xFF 0 0 0 (s.pwr.state + s.pwr.op <<< 4)

/-- A wake is delayed by what VACK takes beyond 1,000 LT (16 R533). -/
def lateAck (s : State) : State :=
  match s.pwr.move with
  | none => s
  | some m =>
    let d := s.life.lt - s.pwr.hsLt - 1000
    if m.wake && d != 0 then
      { s with pwr := { s.pwr with move := some { m with done := m.done + d }, lateWake := add64 s.pwr.lateWake d } }
    else s

/-- The engine sees VACK rise (15 R493, R514; 17 R551). -/
def ackRise (s : State) : State :=
  if s.pwr.vack then s
  else if !s.pwr.vreq then portViol s 7 0x09 (railWord s)
  else
    let d := fireInj s 7 fun _ => true
    if d.1 then { d.2 with pwr := { d.2.pwr with ackInj := true } }
    else
      let s := lateAck s
      let s := { s with pwr := { s.pwr with
        rails := s.pwr.rails.put s.pwr.vsel s.pwr.vset
        op := s.pwr.asking.getD s.pwr.op
        asking := none
        vreq := false
        vack := true
        ackInj := false
        late := false
        hsLt := s.life.lt } }
      tracePower s

/-- The engine sees VACK fall: the handshake is complete. -/
def ackFall (s : State) : State := if s.pwr.vack then { s with pwr := { s.pwr with vack := false, late := false } } else s

/-- VACK_RISE. -/
def vackRise (s : State) : State :=
  let s' := { s with pwr := { s.pwr with vackPin := true } }
  if !s.running then s else if tapHolds s then s' else ackRise s'
/-- VACK_FALL. -/
def vackFall (s : State) : State :=
  let s' := { s with pwr := { s.pwr with vackPin := false } }
  if !s.running then s else if tapHolds s then s' else ackFall s'

/-- VACK_LATE (15 R493, R514; 17 R541): step 2 or 4 overruns its bound, once. -/
def vackLate (lt : Dword) (s : State) : State :=
  let s := advance s lt
  if s.running && (s.pwr.vreq || s.pwr.vack) && !s.pwr.late && decide (s.pwr.hsLt + 100000 ≤ s.life.lt) then
    let s := portViol s 7 0x08 (railWord s)
    let s := fault s 4 1 0xFF s.pwr.ackInj 0 (railWord s) (if s.pwr.vreq then 2 else 4)
    { s with pwr := { s.pwr with late := true } }
  else s

/-! ### Temperature (16 R526) -/

/-- The index and reading of the hottest sensor, in 1/8 °C; the lowest index wins a tie. -/
def hottest (s : State) : Nat × Int :=
  (List.range 16).foldl (fun (b : Nat × Int) i =>
    let t := sgn 16 (s.pwr.temp.get i 0)
    if i == 0 || decide (b.2 < t) then (i, t) else b) (0, 0)

/-- THERMAL_STEPDOWN (16 R526). -/
def thermalStepdown (lt : Dword) (s : State) : State :=
  let s := advance s lt
  let due := match s.pwr.lastStep with | none => true | some t => decide (t + 1000000 ≤ s.life.lt)
  if s.running && s.pwr.stepdown && decide ((8 * s.pwr.tempHi : Nat) ≤ (hottest s).2) && due && s.pwr.thermalLimit != 0 then
    retarget { s with pwr := { s.pwr with thermalLimit := s.pwr.thermalLimit - 1, lastStep := some s.life.lt } }
  else s

/-- THERMAL_STEPUP (16 R526): each rise needs its own 1,000,000 LT. -/
def thermalStepup (lt : Dword) (s : State) : State :=
  let s := advance s lt
  match s.pwr.loSince with
  | none => s
  | some t =>
    if s.running && decide (t + 1000000 ≤ s.life.lt) && decide (s.pwr.thermalLimit < 2) then
      retarget { s with pwr := { s.pwr with thermalLimit := s.pwr.thermalLimit + 1, loSince := some s.life.lt } }
    else s

/-! ### Telemetry (16 R527, R537, R539) -/

/-- A list of readings as a table. -/
def readings (l : List (BitVec 16)) : Tab Nat := (l.take 16).zipIdx.map fun p => (p.2, p.1.toNat)

/-- TELEMETRY_UPDATE (16 R526, R537, R539): the sensors, the estimate, the energy and the residency counts. -/
def telemetryUpdate (lt : Dword) (temps : List (BitVec 16)) (power : BitVec 16) (s : State) : State :=
  let s := advance s lt
  if !s.running || decide (s.life.lt < s.pwr.telLt + 1000) then s
  else
    let e := s.pwr.energyRem + power.toNat * (s.life.lt - s.pwr.telLt)
    let s := { s with pwr := { s.pwr with
      temp := readings temps
      est := power.toNat
      energy := add64 s.pwr.energy (e / 100000)
      energyRem := e % 100000
      res := s.pwr.resAcc.map fun (p : Nat × Nat) => (p.1, p.2 % 2 ^ 64)
      telLt := s.life.lt } }
    { s with pwr := { s.pwr with
      loSince := if (hottest s).2 ≤ (8 * s.pwr.tempLo : Nat) then some (s.pwr.loSince.getD s.life.lt) else none } }

/-- BEAT_RATE_WINDOW (16 R527, R537): each slow cluster adds its 1,000 LT. -/
def beatRateWindow (lt : Dword) (rates : List (BitVec 16)) (s : State) : State :=
  let s := advance s lt
  if !s.running then s
  else
    let slow := ((rates.take 16).filter fun r => decide (r.toNat < opRate s s.pwr.op)).length
    { s with pwr := { s.pwr with beat := readings rates, slow := add64 s.pwr.slow (1000 * slow) } }

/-- CALIBRATION (16 R537): the sensors are calibrated; nothing else that the specification names changes. -/
def calibration (lt : Dword) (s : State) : State := advance s lt

/-! ### Scrubbing (16 R536) -/

/-- One 64-bit word of T0 is scrubbed: a flipped bit is corrected and counted, an uncorrectable word counted and recorded. -/
def scrubWord (c aux : Nat) (s : State) (w : Nat) : State :=
  let s := if s.t0.corrected w then
      { s with
        t0 := { s.t0 with ce := s.t0.ce.filter fun k => k / 128 != w }
        pwr := { s.pwr with scrubCe := add64 s.pwr.scrubCe 1 } }
    else s
  if s.t0.ue.contains w then ueFault { s with pwr := { s.pwr with scrubUe := add64 s.pwr.scrubUe 1 } } c w aux else s

/-- The words of T0 that hold an error, from byte `a` for `n` bytes, in rising order. -/
def badWords (m : T0Mem) (a n : Nat) : List Nat :=
  (m.ce.foldl (fun l k => insNat (k / 128) l) m.ue).filter fun w => decide (a ≤ 8 * w) && decide (8 * w < a + n)

/-- SCRUB (16 R536): one 64-byte row of a core, in S0 to S2. -/
def scrub (c : BitVec 8) (lt : Dword) (s : State) : State :=
  let s := advance s lt
  let c := c.toNat
  let k := s.core c
  if !s.life.ready || s.pwr.scrubRate == 0 || decide (2 < s.pwr.state) || decide (s.life.lt < k.scrubLt + s.pwr.scrubRate) then s
  else
    let s := (badWords s.t0 (c * 2 ^ 21 + 64 * k.scrubRow) 64).foldl (scrubWord c 1) s
    let last := k.scrubRow == 32767
    let s := s.setCore c { s.core c with scrubRow := (k.scrubRow + 1) % 32768, scrubLt := s.life.lt }
    if last && c == 0 then { s with pwr := { s.pwr with scrubPass := add64 s.pwr.scrubPass 1 } } else s

/-! ### Power states (16 R528-R535) -/

/-- Scratchpads lose what they hold (16 R528): their bytes stand as if never written (DESIGN CHOICE, log 3). -/
def dropScratch (m : T0Mem) : T0Mem :=
  let kept (a : Nat) : Bool := a / 2 ^ 20 % 2 == 1
  ⟨m.bytes.filter (fun c => kept c.1), m.ue.filter (fun w => kept (8 * w)), m.ce.filter (fun k => kept (8 * (k / 128))),
    m.inj.filter (fun w => kept (8 * w))⟩

/-- `n` free bytes: the value of the model's counter, then the counter moves on (DESIGN CHOICE, log 14). -/
def freeBytes (s : State) (n : Nat) : List Byte × State :=
  (tab n fun i => BitVec.ofNat 8 (Config.freeValue (s.fresh + i)), { s with fresh := s.fresh + n })

/-- Where core `c`'s part of the save area starts (16 R534). -/
def savePart (s : State) (c : Nat) : Nat := s.pwr.saveBase + 0x100000 + 0x110000 * c

/-- One core's state store and table banks go to the save area; the bytes of the table banks are open (16 R534; DEDUCED, log 29). -/
def saveStore (s : State) (c : Nat) : State :=
  let d := s.t0.fetch (t0Addr c 1 0) (2 ^ 20)
  let a := savePart s c
  let f := freeBytes { s with t1 := s.t1.store a d.1 (unitsOf a d.2) } 0x10000
  f.2.wr (a + 2 ^ 20) f.1

/-- The save for S4 (16 R534): the bytes of the engine-controller state are open. -/
def saveAll (s : State) : State :=
  let f := freeBytes s (2 ^ 20)
  (List.range Config.cores).foldl saveStore (f.2.wr s.pwr.saveBase f.1)

/-- One core's state store comes back from the save area; a poisoned unit gives poison patterns and a fault for each of its
words (12 R387; 16 R534; 17 R541). -/
def restoreStore (s : State) (c : Nat) : State :=
  let a := savePart s c
  let d := s.t1.fetch a (2 ^ 20)
  let s := { s with t0 := s.t0.store (t0Addr c 1 0) d.1 d.2 }
  (badWords s.t0 (t0Addr c 1 0) (2 ^ 20)).foldl (fun s w => ueFault s c w 3) s

/-- What a wake from S3 or S4 does to the state stores (16 R533-R535). -/
def wakeStores (s : State) : State :=
  if s.pwr.state == 3 then
    (List.range Config.cores).foldl (fun s c => (badWords s.t0 (t0Addr c 1 0) (2 ^ 20)).foldl (scrubWord c 2) s) s
  else if s.pwr.state == 4 then (List.range Config.cores).foldl restoreStore s
  else s

/-- An injection flips bits of a T0 word: one bit, or two (17 R551). -/
def flipT0 (s : State) (i : Inject) : State :=
  let w := (i.a * 2 ^ 21 + i.b % 2 ^ 21) / 8
  let m := s.t0
  let old := m.ce.filter fun k => k / 128 == w
  let rest := m.ce.filter fun k => k / 128 != w
  let m' : T0Mem :=
    if m.ue.contains w then m
    else if i.kind == 1 && old.isEmpty then { m with ce := insNat (128 * w + i.c) rest }
    else if i.kind == 1 && old == [128 * w + i.c] then { m with ce := rest }
    else { m with ue := insNat w m.ue, ce := rest, inj := insNat w m.inj }
  { s with t0 := m' }

/-- The injections into T0 that waited for the wake fire (17 R551). -/
def flushFlips (s : State) : State :=
  let now := s.mon.inj.filter fun i => i.kind == 1 || i.kind == 2
  now.foldl flipT0 { s with mon := { s.mon with inj := s.mon.inj.filter fun i => !(i.kind == 1 || i.kind == 2) } }

/-- The engine begins to enter a deeper state (16 R530, R533, R534). -/
def enterState (s : State) (st : Nat) : State :=
  let s := if st == 4 then saveAll s else s
  let w := if st == 3 then [(1, 20)] else if st == 4 then [(1, 20), (0, 48)] else []
  { s with pwr := { s.pwr with move := some ⟨false, st, s.life.lt⟩, want := s.pwr.want ++ w, stayAwake := false } }

/-- A next known event nearer than the wake time: the shortfall is counted (16 R535). -/
def shortWake (s : State) : State :=
  match nextEvent s with
  | none => s
  | some e =>
    let w := wakeTime s.pwr.state
    let g := e - s.life.lt
    if g < w then { s with pwr := { s.pwr with lateWake := add64 s.pwr.lateWake (w - g) } } else s

/-- QUIESCENT (16 R530): the state is chosen afresh, on quiescence or on a change of the next known event. -/
def chooseRow (s : State) : State :=
  if !s.life.ready || s.pwr.move.isSome || (s.pwr.state == 0 && !isQuiescent s) then s
  else
    let st := chooseState s
    let now := max 1 s.pwr.state
    if now < st then enterState s st
    else if st == now then s
    else if st == 1 then startWake (shortWake s) 0
    else startWake s st

/-- TIMED_WAKE (16 R530). -/
def timedWake (lt : Dword) (s : State) : State :=
  let s := advance s lt
  match nextEvent s with
  | none => s
  | some e => if s.life.ready && decide (2 ≤ s.pwr.state) && decide (e ≤ s.life.lt + wakeTime s.pwr.state) then startWake s 0 else s

/-- WAKE_AT_REACHED (16 R529). -/
def wakeAtReached (lt : Dword) (s : State) : State :=
  let s := advance s lt
  if s.running && s.pwr.wakeAt != 0 && decide (s.pwr.wakeAt ≤ s.life.lt) then { s with pwr := { s.pwr with wakeAt := 0 } } else s

/-- What follows a change of power state: a wake that came during an entry, or work that waited for S0 (16 R531, R532, R535). -/
def afterMove (s : State) : State :=
  if s.pwr.state == 0 then
    answerHeld (drainInbox (retarget { s with pwr := { s.pwr with stayAwake := false } }))
  else if s.pwr.stayAwake then startWake s 0
  else s

/-- POWER_STATE_CHANGE_COMPLETE (16 R530-R535). -/
def moveDone (lt : Dword) (s : State) : State :=
  let s := advance s lt
  match s.pwr.move with
  | none => s
  | some m =>
    if decide (s.life.lt < m.done) || s.pwr.vreq || !s.pwr.want.isEmpty then s
    else
      let s := if m.wake then wakeStores s else s
      let s := if !m.wake && 3 ≤ m.dest then { s with t0 := dropScratch s.t0 } else s
      let s := tracePower { s with pwr := { s.pwr with state := m.dest, move := none } }
      afterMove (if m.dest < 3 then flushFlips s else s)

/-- QUIESCENT. -/
def execQuiescent (s : State) : Host.Outcome State Fault Refusal := .next (chooseRow s)
/-- TIMED_WAKE. -/
def execTimedWake (lt : Dword) (s : State) : Host.Outcome State Fault Refusal := .next (timedWake lt s)
/-- WAKE_AT_REACHED. -/
def execWakeAtReached (lt : Dword) (s : State) : Host.Outcome State Fault Refusal := .next (wakeAtReached lt s)
/-- SETPOINT_CHANGE. -/
def execSetpointChange (s : State) : Host.Outcome State Fault Refusal := .next (setpointChange s)
/-- VACK_RISE. -/
def execVackRise (s : State) : Host.Outcome State Fault Refusal := .next (vackRise s)
/-- VACK_FALL. -/
def execVackFall (s : State) : Host.Outcome State Fault Refusal := .next (vackFall s)
/-- VACK_LATE. -/
def execVackLate (lt : Dword) (s : State) : Host.Outcome State Fault Refusal := .next (vackLate lt s)
/-- THERMAL_STEPDOWN. -/
def execThermalStepdown (lt : Dword) (s : State) : Host.Outcome State Fault Refusal := .next (thermalStepdown lt s)
/-- THERMAL_STEPUP. -/
def execThermalStepup (lt : Dword) (s : State) : Host.Outcome State Fault Refusal := .next (thermalStepup lt s)
/-- BEAT_RATE_WINDOW. -/
def execBeatRateWindow (lt : Dword) (rates : List (BitVec 16)) (s : State) : Host.Outcome State Fault Refusal :=
  .next (beatRateWindow lt rates s)
/-- TELEMETRY_UPDATE. -/
def execTelemetryUpdate (lt : Dword) (temps : List (BitVec 16)) (power : BitVec 16) (s : State) : Host.Outcome State Fault Refusal :=
  .next (telemetryUpdate lt temps power s)
/-- CALIBRATION. -/
def execCalibration (lt : Dword) (s : State) : Host.Outcome State Fault Refusal := .next (calibration lt s)
/-- SCRUB. -/
def execScrub (c : BitVec 8) (lt : Dword) (s : State) : Host.Outcome State Fault Refusal := .next (scrub c lt s)
/-- POWER_STATE_CHANGE_COMPLETE. -/
def execPowerStateChangeComplete (lt : Dword) (s : State) : Host.Outcome State Fault Refusal := .next (moveDone lt s)

end Sys2Proof.Machine
end

