-- ==== Sys2Proof/Machine/Inputs.lean ====
section
/-! DEFINITION. Conditioned inputs, the reference clock and the event lines (15 R494, R495, R498-R505). -/
namespace Sys2Proof.Machine

/-- The mask of input `i` in the bit order of `IN_STATUS.LEVEL`. -/
def inBit (i : Nat) : BitVec 4 := BitVec.ofNat 4 (2 ^ i)

/-- The pin of input `i` changes. -/
def setPin (s : State) (i : Nat) (v : Bool) : State :=
  let p := if v then s.inp.pins ||| inBit i else s.inp.pins &&& ~~~(inBit i)
  { s with inp := { s.inp with pins := p } }
/-- The engine sees input `i` change; the time of the change is kept. -/
def setLevel (s : State) (i : Nat) (v : Bool) : State :=
  let l := if v then s.inp.level ||| inBit i else s.inp.level &&& ~~~(inBit i)
  { s with inp := { s.inp with
      level := l
      changeLt := s.inp.changeLt.put i s.life.lt } }

/-! ### What each input does once the engine sees it (15 R499-R502) -/

/-- A rising edge of WAKE_REQ (15 R499; 16 R531). -/
def seeWake (s : State) : State :=
  let low := s.life.lt - s.inp.changeLt.get 1 0
  let far := match s.inp.wakeLt with | none => true | some t => decide (t + 100 ≤ s.life.lt)
  let s' := setLevel s 1 true
  if s.inp.masked.getLsbD 1 then s'
  else if decide (100 ≤ low) && far then wakeEvent { s' with inp := { s'.inp with wakeLt := some s.life.lt } }
  else { s' with inp := { s'.inp with coalesced := sat32 s'.inp.coalesced 1 } }

/-- HALT_REQ asserted (15 R500). -/
def seeHalt (s : State) : State := if s.inp.masked.getLsbD 0 then setLevel s 0 true else haltEngine (setLevel s 0 true)
/-- HALT_REQ deasserted: the halt goes on, and the input is no longer ignored. -/
def dropHalt (s : State) : State :=
  let s := setLevel s 0 false
  { s with inp := { s.inp with masked := s.inp.masked &&& 14 } }

/-- THERM_TRIP asserted (15 R501; 17 R541). -/
def seeTrip (s : State) : State :=
  let h := (hottest s).1
  let s' := setLevel s 2 true
  let s' := if s.inp.thermHalt then s' else levelRise { s' with inp := { s'.inp with thermHalt := true } } 0x13
  fault s' 6 1 0xFF false 0 h (s.pwr.temp.get h 0)

/-- DROOP_WARN asserted (15 R502). -/
def seeDroop (s : State) : State :=
  let s' := setLevel s 3 true
  let s' := { s' with inp := { s'.inp with throttle := true, droopEnd := 0 } }
  if s.inp.throttle then s' else levelRise s' 0x12
/-- DROOP_WARN deasserted: throttling holds for 5,000 LT more. -/
def dropDroop (s : State) : State :=
  let s := setLevel s 3 false
  { s with inp := { s.inp with droopEnd := s.life.lt + 5000 } }

/-- The engine sees input `i` take a level; no change does nothing. -/
def seeInput (s : State) (i : Nat) (v : Bool) : State :=
  if s.inp.level.getLsbD i == v then s
  else match i, v with
  | 0, true => seeHalt s
  | 0, false => dropHalt s
  | 1, true => seeWake s
  | 2, true => seeTrip s
  | 3, true => seeDroop s
  | 3, false => dropDroop s
  | _, _ => setLevel s i v

/-- A pin changes, which the engine sees unless the test access port holds its inputs (15 R513) or RST_N is low. -/
def pinChange (s : State) (i : Nat) (v : Bool) : State :=
  let s := setPin s i v
  if !s.running || tapHolds s then s else seeInput s i v

/-- THROTTLE_END (15 R502). -/
def throttleEnd (lt : Dword) (s : State) : State :=
  let s := advance s lt
  if s.inp.throttle && !s.inp.level.getLsbD 3 && decide (s.inp.droopEnd ≤ s.life.lt) then
    { s with inp := { s.inp with throttle := false } }
  else s

/-- How long an input may be held asserted: WAKE_REQ and DROOP_WARN have a limit (15 R499). -/
def holdLimit : Nat → Option Nat
  | 1 => some 10000000
  | 3 => some 100000000
  | _ => none

/-- INPUT_STUCK (15 R499, R503, R514; 17 R541). The port number of the violation is open (DEDUCED, log 28). -/
def inputStuck (input : BitVec 2) (lt : Dword) (s : State) : State :=
  let s := advance s lt
  let i := input.toNat
  match holdLimit i with
  | none => s
  | some n =>
    if !s.running || !s.inp.level.getLsbD i || s.inp.stuck.getLsbD i || decide (s.life.lt < s.inp.changeLt.get i 0 + n) then s
    else
      let f := freeNat s
      let s := viol f.2 0 0x0C (f.1 % 256 + 0x0A <<< 8) i
      let s := pulse (fault s 7 1 0xFF false 0 i 0) 0x0B
      { s with inp := { s.inp with
        stuck := s.inp.stuck ||| inBit i
        masked := if i == 1 then s.inp.masked ||| 2 else s.inp.masked } }

/-! ### REF_OSC (15 R495) -/

/-- REF_LOSS. -/
def refLoss (s : State) : State :=
  if !s.running || s.life.refLost then s
  else pulse (fault { s with life := { s.life with refLost := true } } 5 1 0xFF false 0 0 0) 0x0E
/-- REF_RESUME. -/
def refResume (s : State) : State := { s with life := { s.life with refLost := false } }

/-! ### Event lines (15 R504, R505) -/

/-- A level source stands. -/
def levelSource (s : State) (src : Nat) : Bool :=
  match src with
  | 0x10 => s.life.ready
  | 0x11 => s.inp.halted
  | 0x12 => s.inp.throttle
  | 0x13 => s.inp.thermHalt
  | _ => false
/-- A line is asserted. -/
def lineOn (s : State) (n : Nat) : Bool :=
  let w := s.evt.route.get n 0
  let p := decide (s.life.lt < s.evt.pulse.get n 0)
  match fld w 6 2 with
  | 1 => p
  | 2 => p || levelSource s (fld w 0 6)
  | _ => false
/-- The level that the engine drives on EVT[n]. -/
def evtPin (s : State) (n : Nat) : Bool := lineOn s n != bit (s.evt.route.get n 0) 8

/-- EVT_PULSE_END: the pulse of a line is over. -/
def evtPulseEnd (line : BitVec 3) (lt : Dword) (s : State) : State :=
  let s := advance s lt
  if decide (s.evt.pulse.get line.toNat 0 ≤ s.life.lt) then { s with evt := { s.evt with pulse := s.evt.pulse.del line.toNat } }
  else s

/-- EVT_PULSE_END. -/
def execEvtPulseEnd (line : BitVec 3) (lt : Dword) (s : State) : Host.Outcome State Fault Refusal := .next (evtPulseEnd line lt s)
/-- WAKE_REQ. -/
def execWakeReq (lt : Dword) (s : State) : Host.Outcome State Fault Refusal := .next (pinChange (advance s lt) 1 true)
/-- WAKE_REQ falls. -/
def execWakeReqDeassert (lt : Dword) (s : State) : Host.Outcome State Fault Refusal := .next (pinChange (advance s lt) 1 false)
/-- HALT_REQ. -/
def execHaltReq (s : State) : Host.Outcome State Fault Refusal := .next (pinChange s 0 true)
/-- HALT_REQ falls. -/
def execHaltReqDeassert (s : State) : Host.Outcome State Fault Refusal := .next (pinChange s 0 false)
/-- THERM_TRIP. -/
def execThermTrip (s : State) : Host.Outcome State Fault Refusal := .next (pinChange s 2 true)
/-- THERM_TRIP falls. -/
def execThermTripDeassert (s : State) : Host.Outcome State Fault Refusal := .next (pinChange s 2 false)
/-- DROOP_WARN. -/
def execDroopWarn (s : State) : Host.Outcome State Fault Refusal := .next (pinChange s 3 true)
/-- DROOP_WARN falls. -/
def execDroopWarnDeassert (lt : Dword) (s : State) : Host.Outcome State Fault Refusal := .next (pinChange (advance s lt) 3 false)
/-- THROTTLE_END. -/
def execThrottleEnd (lt : Dword) (s : State) : Host.Outcome State Fault Refusal := .next (throttleEnd lt s)
/-- INPUT_STUCK. -/
def execInputStuck (input : BitVec 2) (lt : Dword) (s : State) : Host.Outcome State Fault Refusal := .next (inputStuck input lt s)
/-- REF_LOSS. -/
def execRefLoss (s : State) : Host.Outcome State Fault Refusal := .next (refLoss s)
/-- REF_RESUME. -/
def execRefResume (s : State) : Host.Outcome State Fault Refusal := .next (refResume s)

end Sys2Proof.Machine
end

