-- ==== Sys2Proof/Machine/Sha.lean ====
section
/-! DEFINITION. SHA-256 as FIPS 180-4 defines it, and HMAC-SHA-256 (16 R518; 17 R546). -/
namespace Sys2Proof.Machine

/-- A 32-bit word of the hash. -/
abbrev HWord := BitVec 32

/-- The round constants (FIPS 180-4). -/
def shaK : List Nat :=
  [0x428A2F98, 0x71374491, 0xB5C0FBCF, 0xE9B5DBA5, 0x3956C25B, 0x59F111F1, 0x923F82A4, 0xAB1C5ED5,
    0xD807AA98, 0x12835B01, 0x243185BE, 0x550C7DC3, 0x72BE5D74, 0x80DEB1FE, 0x9BDC06A7, 0xC19BF174] ++
  [0xE49B69C1, 0xEFBE4786, 0x0FC19DC6, 0x240CA1CC, 0x2DE92C6F, 0x4A7484AA, 0x5CB0A9DC, 0x76F988DA,
    0x983E5152, 0xA831C66D, 0xB00327C8, 0xBF597FC7, 0xC6E00BF3, 0xD5A79147, 0x06CA6351, 0x14292967] ++
  [0x27B70A85, 0x2E1B2138, 0x4D2C6DFC, 0x53380D13, 0x650A7354, 0x766A0ABB, 0x81C2C92E, 0x92722C85,
    0xA2BFE8A1, 0xA81A664B, 0xC24B8B70, 0xC76C51A3, 0xD192E819, 0xD6990624, 0xF40E3585, 0x106AA070] ++
  [0x19A4C116, 0x1E376C08, 0x2748774C, 0x34B0BCB5, 0x391C0CB3, 0x4ED8AA4A, 0x5B9CCA4F, 0x682E6FF3,
    0x748F82EE, 0x78A5636F, 0x84C87814, 0x8CC70208, 0x90BEFFFA, 0xA4506CEB, 0xBEF9A3F7, 0xC67178F2]

/-- The initial hash value (FIPS 180-4). -/
def shaH : List Nat :=
  [0x6A09E667, 0xBB67AE85, 0x3C6EF372, 0xA54FF53A,
    0x510E527F, 0x9B05688C, 0x1F83D9AB, 0x5BE0CD19]

/-- The eight working words. -/
structure ShaState where
  a : HWord
  b : HWord
  c : HWord
  d : HWord
  e : HWord
  f : HWord
  g : HWord
  h : HWord
  deriving DecidableEq, Repr

/-- Rotation right. -/
def rotr (x : HWord) (n : Nat) : HWord := x.rotateRight n

/-- Padding: a 1 bit, zeros to 56 modulo 64 bytes, and the length in bits. -/
def shaPad (m : List Byte) : List Byte :=
  let n := m.length
  m ++ 0x80 :: List.replicate ((119 - n % 64) % 64) 0 ++ beBytes 8 (8 * n)

/-- The next word of the message schedule from the sixteen before it, newest first. -/
def shaNext (w : List HWord) : HWord :=
  let at' (i : Nat) : HWord := w.getD (i - 1) 0
  let x := at' 15
  let y := at' 2
  let s0 := rotr x 7 ^^^ rotr x 18 ^^^ (x >>> 3)
  let s1 := rotr y 17 ^^^ rotr y 19 ^^^ (y >>> 10)
  at' 16 + s0 + at' 7 + s1

/-- `n` further words of the schedule, the whole list newest first. -/
def shaExtend : Nat → List HWord → List HWord
  | 0, w => w
  | n + 1, w => shaExtend n (shaNext w :: w)

/-- One round. -/
def shaRound (s : ShaState) (kw : HWord × HWord) : ShaState :=
  let s1 := rotr s.e 6 ^^^ rotr s.e 11 ^^^ rotr s.e 25
  let ch := (s.e &&& s.f) ^^^ (~~~s.e &&& s.g)
  let t1 := s.h + s1 + ch + kw.1 + kw.2
  let s0 := rotr s.a 2 ^^^ rotr s.a 13 ^^^ rotr s.a 22
  let mj := (s.a &&& s.b) ^^^ (s.a &&& s.c) ^^^ (s.b &&& s.c)
  ⟨t1 + (s0 + mj), s.a, s.b, s.c, s.d + t1, s.e, s.f, s.g⟩

/-- The sixteen words of a block, big-endian. -/
def blockWords : Nat → List Byte → List HWord
  | 0, _ => []
  | n + 1, b => BitVec.ofNat 32 (ofBe (b.take 4)) :: blockWords n (b.drop 4)

/-- One block of 64 bytes. -/
def shaBlock (s : ShaState) (b : List Byte) : ShaState :=
  let w := (shaExtend 48 (blockWords 16 b).reverse).reverse
  let r := ((shaK.map (BitVec.ofNat 32)).zip w).foldl shaRound s
  ⟨s.a + r.a, s.b + r.b, s.c + r.c, s.d + r.d, s.e + r.e, s.f + r.f, s.g + r.g, s.h + r.h⟩

/-- The blocks of a padded message. -/
def shaBlocks : Nat → ShaState → List Byte → ShaState
  | 0, s, _ => s
  | n + 1, s, m => shaBlocks n (shaBlock s (m.take 64)) (m.drop 64)

/-- The words of a hash value. -/
def ShaState.words (s : ShaState) : List HWord := [s.a, s.b, s.c, s.d, s.e, s.f, s.g, s.h]

/-- The hash value that eight words start. -/
def shaStart (l : List Nat) : ShaState :=
  let w (i : Nat) : HWord := BitVec.ofNat 32 (l.getD i 0)
  ⟨w 0, w 1, w 2, w 3, w 4, w 5, w 6, w 7⟩

/-- SHA-256 of a message: 32 bytes. -/
def sha256 (m : List Byte) : List Byte :=
  let p := shaPad m
  ((shaBlocks (p.length / 64) (shaStart shaH) p).words).flatMap fun w => beBytes 4 w.toNat

/-- HMAC-SHA-256 with a key of 32 bytes. -/
def hmac (key m : List Byte) : List Byte :=
  let k := key ++ List.replicate (64 - key.length) 0
  sha256 ((k.map (· ^^^ 0x5C)) ++ sha256 ((k.map (· ^^^ 0x36)) ++ m))

end Sys2Proof.Machine
end

