-- ==== Sys2Proof/Machine/Boot.lean ====
section
/-! DEFINITION. Reset, the boot read, the configuration image, self-test and READY (15 R496, R497, R506-R509;
16 R516-R524). -/
namespace Sys2Proof.Machine

/-! ### RST_N (15 R496, R497) -/

/-- The block while RST_N is low: everything but T1, the shelf, the fuses, the test access port and the pins is as after reset. -/
def inReset (s : State) : State :=
  { State.reset with
    life := { (State.reset).life with rstLow := true }
    t1 := s.t1
    shelf := s.shelf
    fuse := s.fuse
    tap := s.tap
    inp := { (State.reset).inp with pins := s.inp.pins }
    pwr := { (State.reset).pwr with vackPin := s.pwr.vackPin }
    ctl := { (State.reset).ctl with answers := s.ctl.answers }
    sent := s.sent
    fresh := s.fresh
    pending := s.pending }

/-- RST_N_ASSERT. -/
def rstAssert (s : State) : State := inReset s

/-- RST_N_RELEASE (15 R496): inputs that stand asserted are seen anew. -/
def rstRelease (s : State) : State :=
  if !s.life.rstLow then s
  else
    let s := { s with life := { s.life with rstLow := false } }
    if tapHolds s then s
    else
      let s := if s.inp.pins.getLsbD 1 then setLevel s 1 true else s
      [0, 2, 3].foldl (fun s i => seeInput s i (s.inp.pins.getLsbD i)) s

/-! ### The boot read (15 R507, R508) -/

/-- The number in `n` bytes at `o` of what the flash holds; beyond it the flash reads as erased. -/
def flashNum (f : List Byte) (o n : Nat) : Nat := ofLe (tab n fun i => f.getD (o + i) 0xFF)

/-- The words of the Basic Flash Parameter Table, or none when SFDP is not valid (15 R507). -/
def sfdpTable (f : List Byte) : Option (Nat × Nat) :=
  let len := flashNum f 0x0B 1
  if flashNum f 0 4 == 0x50444653 && flashNum f 0x0A 1 == 1 && decide (9 ≤ len) then some (flashNum f 0x0C 3, len) else none

/-- The read command, SCK code and 4-byte addressing that the table gives (15 R507, R508; field places by JESD216, PRESUMED, log 30). -/
def bootChoice (f : List Byte) : Nat × Nat × Bool :=
  match sfdpTable f with
  | none => (0x03, 2, false)
  | some (a, len) =>
    let w1 := flashNum f a 4
    let w16 := flashNum f (a + 60) 4
    let four := match fld w1 17 2 with
      | 2 => true
      | 1 => decide (16 ≤ len) && bit w16 24
      | _ => false
    (if bit w1 21 then 0xEB else if bit w1 22 then 0x6B else 0x0B, 0, four)

/-- The largest image that may be read (15 R507, R508). -/
def imageLimit (four : Bool) : Nat := if four then 2 ^ 26 else 2 ^ 24

/-- The image that the flash holds: as many bytes as its header says. -/
def flashImage (f : List Byte) : List Byte :=
  let n := flashNum f 8 4
  f.take n ++ List.replicate (n - f.length) 0xFF

/-- A slice of the image lands in a core's scratchpad (16 R517). -/
def stageCore (img : List Byte) (m : T0Mem) (c : Nat) : T0Mem :=
  let d := (img.drop (262144 * c)).take 262144
  if d.isEmpty then m else m.store (t0Addr c 0 0) d (d.map fun _ => false)
/-- The image is staged in T0 (16 R517). -/
def stageImage (img : List Byte) (m : T0Mem) : T0Mem := (List.range Config.cores).foldl (stageCore img) m

/-- Reads the flash into the engine, or marks an image that is too long (15 R507, R508). -/
def readFlash (s : State) (f : List Byte) : State :=
  if imageLimit s.boot.addr4 < flashNum f 8 4 then { s with boot := { s.boot with phase := 4, error := 2 } }
  else
    let img := flashImage f
    { s with
      boot := { s.boot with phase := 2, hash := ofBe (sha256 img), bytes := img.length }
      t0 := stageImage img s.t0 }

/-- BOOT_READ (15 R496, R507, R508). -/
def bootRead (sfdp image : List Byte) (lt : Dword) (s : State) : State :=
  let s := advance s lt
  if !s.running || s.life.refLost || s.boot.phase != 0 || decide (s.life.lt < 1000) then s
  else
    let ch := bootChoice sfdp
    let ok := (sfdpTable sfdp).isSome
    readFlash { s with boot := { s.boot with
      readCmd := ch.1
      sck := ch.2.1
      addr4 := ch.2.2
      sfdpOk := ok
      error := if ok then 0 else 1 } } image

/-! ### The image (16 R519, R520) -/

/-- A section: type, offset and length. -/
structure Section where
  type : Nat
  off : Nat
  len : Nat
  deriving DecidableEq, Repr

/-- The number in `n` bytes of the image at `o`. -/
def imgNum (img : List Byte) (o n : Nat) : Nat := ofLe ((img.drop o).take n)

/-- The section table. -/
def imgSections (img : List Byte) : List Section :=
  tab (imgNum img 6 2) fun i => ⟨imgNum img (0x40 + 16 * i) 2, imgNum img (0x44 + 16 * i) 4, imgNum img (0x48 + 16 * i) 4⟩

/-- The items of a table section: bank-image offset and data; none where one is out of form or beyond its bank. -/
def secItems (img : List Byte) (sfu : Bool) : Nat → Nat → Nat → Option (List (Nat × List Byte))
  | 0, _, _ => some []
  | fuel + 1, a, z =>
    if z ≤ a then some []
    else
      let o := imgNum img a 4
      let n := imgNum img (a + 4) 4
      let next := a + 8 + roundUp n 8
      if o % 4 != 0 || n % 4 != 0 || decide (bankSize sfu < o + n) || decide (z < next) then none
      else (secItems img sfu fuel next z).map ((o, (img.drop (a + 8)).take n) :: ·)

/-- A WO register (00 R17). -/
def writeOnly (a : Nat) : Bool :=
  [0x14, 0x1048, 0x13F4, 0x3004].contains a || (decide (0x4000 ≤ a) && decide (a < 0x8000) && [0x1C, 0x30].contains (a % 256))

/-- The entries of an `OPTABLE`. -/
def secPoints (img : List Byte) (x : Section) : List OpPoint :=
  tab 3 fun i => ⟨imgNum img (x.off + 8 * i) 1, imgNum img (x.off + 8 * i + 2) 2, imgNum img (x.off + 8 * i + 4) 2⟩
/-- The entries of a `PRELOAD`. -/
def secWrites (img : List Byte) (x : Section) : List (Nat × Nat) :=
  tab (x.len / 8) fun i => (imgNum img (x.off + 8 * i) 4, imgNum img (x.off + 8 * i + 4) 4)

/-- An `OPTABLE` in form: three entries, reserved bytes 0, VSET rising within 40 to 160. -/
def pointsOk (img : List Byte) (x : Section) : Bool :=
  let v (i : Nat) : Nat := imgNum img (x.off + 8 * i) 1
  x.len == 24 && ((List.range 3).all fun i => imgNum img (x.off + 8 * i + 1) 1 == 0 && imgNum img (x.off + 8 * i + 6) 2 == 0) &&
    decide (40 ≤ v 0) && decide (v 0 < v 1) && decide (v 1 < v 2) && decide (v 2 ≤ 160)

/-- A section in form (16 R519). -/
def Section.ok (img : List Byte) (x : Section) : Bool :=
  x.off % 8 == 0 && x.len % 8 == 0 && decide (x.off + x.len ≤ imgNum img 8 4) &&
    (match x.type with
    | 1 => pointsOk img x
    | 2 => (secItems img true (x.len + 1) x.off (x.off + x.len)).isSome
    | 3 => (secItems img false (x.len + 1) x.off (x.off + x.len)).isSome
    | 4 => (secWrites img x).all fun w => decide (w.1 < 0x100000) && !writeOnly w.1
    | _ => false)

/-- The reserved words of a section table entry are 0. -/
def entryClean (img : List Byte) (i : Nat) : Bool := imgNum img (0x42 + 16 * i) 2 == 0 && imgNum img (0x4C + 16 * i) 4 == 0

/-- No two sections overlap. -/
def apart (l : List Section) : Bool :=
  l.zipIdx.all fun x => l.zipIdx.all fun y =>
    x.2 == y.2 || decide (x.1.off + x.1.len ≤ y.1.off) || decide (y.1.off + y.1.len ≤ x.1.off)

/-- The image keeps every rule of its format (16 R519). -/
def imageOk (img : List Byte) : Bool :=
  let l := imgSections img
  let n := imgNum img 8 4
  decide (0x40 ≤ img.length) && imgNum img 0 4 == 0x33555354 && imgNum img 4 2 == 1 && decide (1 ≤ l.length) && decide (l.length ≤ 32) &&
    n % 64 == 0 && decide (n ≤ 2 ^ 26) && decide (0x40 + 16 * l.length ≤ n) && imgNum img 0x10 2 == Config.cores &&
    decide (imgNum img 0x12 2 ≤ 1) && imgNum img 0x14 44 == 0 && (List.range l.length).all (entryClean img) &&
    l.all (Section.ok img) && apart l && decide ((l.filter fun x => x.type == 1).length ≤ 1)

/-- One section is applied (16 R520). -/
def applySection (img : List Byte) (s : State) (x : Section) : State :=
  let load (s : State) (sfu : Bool) : State :=
    ((secItems img sfu (x.len + 1) x.off (x.off + x.len)).getD []).foldl (fun s (i : Nat × List Byte) =>
      { s with tbl := putBank s.tbl sfu false ((bankOf s.tbl sfu false).write i.1 i.2) }) s
  match x.type with
  | 1 => { s with pwr := { s.pwr with optable := secPoints img x } }
  | 2 => load s true
  | 3 => load s false
  | _ => (secWrites img x).foldl (fun s (w : Nat × Nat) => ctrlWrite s w.1 w.2) s

/-- The sections are applied in type order, and within a type in table order; then the point in force is taken (16 R520). -/
def applyImage (img : List Byte) (s : State) : State :=
  let l := imgSections img
  let s := { s with boot := { s.boot with revision := imgNum img 12 4, tsu2 := bit (imgNum img 0x12 2) 0 } }
  let s := [1, 2, 3, 4].foldl (fun s t => (l.filter fun x => x.type == t).foldl (applySection img) s) s
  { s with pwr := { s.pwr with
      op := opPoint s
      opTarget := opPoint s
      rails := s.pwr.rails.put 0 (opCode s (opPoint s)) } }

/-! ### Self-test and READY (16 R522-R524) -/

/-- The shadow bank of each domain becomes equal to the active bank (16 R522 test 1, R524). -/
def equalBanks (t : Tables) : Tables :=
  let f (t : Tables) (sfu : Bool) : Tables := putBank t sfu (!activeB t sfu) (bankOf t sfu (activeB t sfu))
  f (f t false) true

/-- A failed self-test fails the engine (16 R523; 17 R541). -/
def selfTestFailed (s : State) (f : SelfTestFail) : State :=
  fault { s with life := { s.life with selftestFail := true, ready := false, maint := true } } 9 f.test.toNat f.core.toNat false 0
    f.detail.toNat f.expected.toNat

/-- Steps 7 and 8 of 16 R516: T0 is zero, and the engine is READY and in service. -/
def goReady (s : State) : State :=
  let s' := { s with
    life := { s.life with ready := true, maint := s.life.recovery, selftestFail := false }
    t0 := {}
    tbl := equalBanks s.tbl }
  if s.life.ready then s' else levelRise s' 0x10

/-- The rails of step 2 of 16 R516 are in force. -/
def railsUp (s : State) : Bool :=
  s.pwr.want.isEmpty && !s.pwr.vreq && s.pwr.rails.get 1 0 == 100 && s.pwr.rails.get 0 0 == 88

/-- The staged image as T0 holds it (16 R517). -/
def stagedImage (s : State) : List Byte :=
  (List.range Config.cores).flatMap fun c => s.t0.bytes.read (t0Addr c 0 0) (min 262144 (s.boot.bytes - 262144 * c))
/-- A staged word cannot be corrected. -/
def stagedBad (s : State) : Bool :=
  s.t0.ue.any fun w => decide (8 * w % 2 ^ 21 < min 262144 (s.boot.bytes - 262144 * (8 * w / 2 ^ 21)))

/-- The image passes the digest check (16 R518); a staged word that cannot be corrected counts as a mismatch (16 R517). -/
def digestOk (s : State) : Bool := s.fuse.digest == 0 || (s.boot.hash == s.fuse.digest && !stagedBad s)

/-- The reread of 15 R509, when the digest fails after a quad read. -/
def rereadImage (s : State) (f : List Byte) : State :=
  if digestOk s || !(s.boot.readCmd == 0x6B || s.boot.readCmd == 0xEB) then s
  else readFlash { s with boot := { s.boot with readCmd := 0x0B, reread := true } } f

/-- BOOT_COMPLETE (16 R516 steps 4 to 8). `reread` is what the flash gives in the reread, `test` a failed self-test if one fails. -/
def bootComplete (reread : List Byte) (test : Option SelfTestFail) (lt : Dword) (s : State) : State :=
  let s := advance s lt
  if !s.running || s.life.refLost || s.boot.phase != 2 || !railsUp s then s
  else
    let s := rereadImage s reread
    if s.boot.phase != 2 then s
    else if !digestOk s then { s with boot := { s.boot with phase := 4, error := 3 } }
    else if !imageOk (stagedImage s) then
      { s with
        boot := { s.boot with phase := 4, error := 4 }
        life := { s.life with unfused := s.fuse.digest == 0 } }
    else
      let log := s.flt
      let s := applyImage (stagedImage s) { s with
        boot := { s.boot with phase := 3 }
        life := { s.life with unfused := s.fuse.digest == 0 } }
      match test with
      | some f => selfTestFailed { s with flt := log } f
      | none => goReady s

/-- A rerun of self-test (16 R524); `none` when the engine is not in the state that it needs. -/
def rerunTest (s : State) (test : Option SelfTestFail) : Option State :=
  if s.boot.phase != 3 || !s.jobs.isEmpty || !s.slots.sids.isEmpty then none
  else some (match test with
    | some f => selfTestFailed { s with tbl := equalBanks s.tbl } f
    | none => goReady s)

/-- RST_N_ASSERT. -/
def execRstNAssert (s : State) : Host.Outcome State Fault Refusal := .next (rstAssert s)
/-- RST_N_RELEASE. -/
def execRstNRelease (s : State) : Host.Outcome State Fault Refusal := .next (rstRelease s)
/-- BOOT_READ. -/
def execBootRead (sfdp image : List Byte) (lt : Dword) (s : State) : Host.Outcome State Fault Refusal := .next (bootRead sfdp image lt s)
/-- BOOT_COMPLETE. -/
def execBootComplete (reread : List Byte) (test : Option SelfTestFail) (lt : Dword) (s : State) : Host.Outcome State Fault Refusal :=
  .next (bootComplete reread test lt s)

end Sys2Proof.Machine
end

