-- ==== Sys2Proof/Machine/Tap.lean ====
section
/-! DEFINITION. The test access port and the boundary register (15 R512, R513). -/
namespace Sys2Proof.Machine

/-- IDCODE (15 R512). -/
def idCode : Nat := engId

/-- A cell of the boundary register at its place. -/
def cell (i : Nat) (v : Bool) : Nat := (b2n v) <<< i
/-- A run of cells. -/
def cells (i n v : Nat) : Nat := (v % 2 ^ n) <<< i

/-- What the engine drives on the pins of the output cells: EVT, SCK and CS_N idle, IO2 and IO3 high, the SPI data not driven,
UART_TX idle, VREQ, VSEL and VSET (15 R492, R504, R506, R513). -/
def engineOuts (s : State) : Nat :=
  ((List.range 8).map fun n => cell (6 + n) (evtPin s n)).foldl (· + ·) 0 + cell 15 true + cell 21 true + cell 23 s.pwr.vreq +
    cells 25 2 s.pwr.vsel + cells 27 8 s.pwr.vset

/-- The pins of the input cells: RST_N, the four conditioned inputs and VACK; REF_OSC, SPI_IO and UART_RX at the moment of the
capture are open (DEDUCED, log 31). -/
def inputCells (s : State) : Nat × State :=
  let f := freeNat s
  (cell 0 (!s.life.rstLow) + cell 1 (bit f.1 0) + cells 2 4 s.inp.pins.toNat + cells 16 4 (f.1 >>> 1) + cell 22 (bit f.1 5) +
    cell 24 s.pwr.vackPin, f.2)

/-- What the boundary register captures: the inputs, and in the output cells what the engine drives. -/
def capture (s : State) : Nat × State :=
  let r := inputCells s
  (r.1 + engineOuts s, r.2)

/-- The levels at the pins of the output cells, where they are driven at all (15 R512, R513). -/
def outputPins (s : State) : Option Nat :=
  if s.tap.ir == 4 then none else if s.tap.ir == 0 || s.tap.ir == 3 then some s.tap.update else some (engineOuts s)

/-- The engine's inputs are held or let go when an instruction takes effect (15 R513): the four inputs are seen deasserted while
they are held and as they stand once they are let go; VACK is seen as it was, and as it stands once let go. -/
def setInstr (s : State) (ir : Nat) : State :=
  let was := tapHolds s
  let s := { s with tap := { s.tap with ir := ir } }
  let now := tapHolds s
  if was == now || !s.running then s
  else if now then [0, 1, 2, 3].foldl (fun s i => seeInput s i false) s
  else
    let s := [0, 1, 2, 3].foldl (fun s i => seeInput s i (s.inp.pins.getLsbD i)) s
    if s.pwr.vackPin == s.pwr.vack then s else if s.pwr.vackPin then ackRise s else ackFall s

/-- A scan of the boundary register under an instruction: what it captured is shifted out, and what is shifted in becomes the
update stage. -/
def scanBoundary (s : State) (ir : Nat) (shift : BitVec 35) : State :=
  let s := setInstr s ir
  let c := capture s
  { c.2 with tap := { c.2.tap with update := shift.toNat, tdo := c.1 } }

/-- A scan of the one-bit bypass register, which captures 0: what is shifted in comes out one cycle later. -/
def scanBypass (s : State) (ir : Nat) (shift : BitVec 35) : State :=
  let s := setInstr s ir
  { s with tap := { s.tap with tdo := 2 * shift.toNat % 2 ^ 35 } }

/-- EXTEST. -/
def extest (shift : BitVec 35) (s : State) : State := scanBoundary s 0 shift
/-- SAMPLE. -/
def sample (shift : BitVec 35) (s : State) : State := scanBoundary s 1 shift
/-- IDCODE. -/
def idcodeRow (s : State) : State :=
  let s := setInstr s 2
  { s with tap := { s.tap with tdo := idCode } }
/-- CLAMP. -/
def clamp (shift : BitVec 35) (s : State) : State := scanBypass s 3 shift
/-- HIGHZ. -/
def highz (shift : BitVec 35) (s : State) : State := scanBypass s 4 shift
/-- BYPASS and the codes that act as it; the codes of the other instructions are not this row's. -/
def bypassRow (code : BitVec 4) (s : State) : State :=
  if code.toNat < 5 then s
  else
    let s := setInstr s code.toNat
    { s with tap := { s.tap with tdo := 0 } }
/-- TAP_RESET (15 R512): IDCODE is in the instruction register. -/
def tapReset (s : State) : State := setInstr s 2

/-- EXTEST. -/
def execExtest (shift : BitVec 35) (s : State) : Host.Outcome State Fault Refusal := .next (extest shift s)
/-- SAMPLE. -/
def execSample (shift : BitVec 35) (s : State) : Host.Outcome State Fault Refusal := .next (sample shift s)
/-- IDCODE. -/
def execIdcode (s : State) : Host.Outcome State Fault Refusal := .next (idcodeRow s)
/-- CLAMP. -/
def execClamp (shift : BitVec 35) (s : State) : Host.Outcome State Fault Refusal := .next (clamp shift s)
/-- HIGHZ. -/
def execHighz (shift : BitVec 35) (s : State) : Host.Outcome State Fault Refusal := .next (highz shift s)
/-- BYPASS. -/
def execBypass (code : BitVec 4) (s : State) : Host.Outcome State Fault Refusal := .next (bypassRow code s)
/-- TAP_RESET. -/
def execTapReset (s : State) : Host.Outcome State Fault Refusal := .next (tapReset s)

end Sys2Proof.Machine
end

