-- ==== Sys2Proof/Machine/Monitor.lean ====
section
/-! DEFINITION. The debug UART and the Dolhus monitor (15 R510, R511; 17 R544-R551; 16 R524). -/
namespace Sys2Proof.Machine

/-! ### Lines (17 R544, R545) -/

/-- The value of an uppercase hexadecimal digit. -/
def digitOf (b : Byte) : Option Nat :=
  let n := b.toNat
  if 48 ≤ n && n ≤ 57 then some (n - 48) else if 65 ≤ n && n ≤ 70 then some (n - 55) else none
/-- A number of at least one digit. -/
def hexOf : List Byte → Option Nat
  | [] => none
  | b :: l => (b :: l).foldl (fun (a : Option Nat) c => a.bind fun x => (digitOf c).map (16 * x + ·)) (some 0)

/-- Splits a text at its spaces. -/
def splitSpaces : List Byte → List (List Byte)
  | [] => [[]]
  | b :: l =>
    let r := splitSpaces l
    if b == chr ' ' then [] :: r
    else match r with
      | w :: t => (b :: w) :: t
      | [] => [[b]]

/-- A line without its CR, in form and with the right checksum: sequence number and fields (17 R544, R545). -/
def readLine (l : List Byte) : Option (Nat × List (List Byte)) :=
  let n := l.length
  let body := (l.take (n - 3)).drop 1
  let ws := splitSpaces (body.drop 3)
  match hexOf (body.take 2), hexOf (l.drop (n - 2)) with
  | some seq, some sum =>
    if decide (8 ≤ n) && decide (n ≤ 254) && l.headD 0 == chr '$' && body.getD 2 0 == chr ':' && l.getD (n - 3) 0 == chr '*' &&
        !body.contains (chr '*') && sum == byteSum body && ws.all (fun w => !w.isEmpty) then some (seq, ws) else none
  | _, _ => none

/-- A divisor that waits for the answer being made waits for the bytes to send up to the answer's end. -/
def baudAfter (b : Option (Nat × Nat)) (n : Nat) : Option (Nat × Nat) :=
  match b with
  | some (0, d) => some (n, d)
  | b => b

/-- Sends an answer to request `seq`, and keeps it as the last one. -/
def answer (s : State) (seq : Nat) (first : Char) (t : List Byte) : State :=
  let l := monLine first (hexN 2 seq ++ chr ':' :: t)
  { s with mon := { s.mon with
      tx := s.mon.tx ++ l
      baud := baudAfter s.mon.baud (s.mon.tx.length + l.length)
      lastSeq := some seq
      lastAns := l
      req := none } }

/-- The first words of the commands of 17 R547. -/
def commandHeads : List (List String) :=
  [["ID"], ["CHAL"], ["UNLK"], ["LOCK"], ["ST"], ["RD"], ["WR"], ["MD"], ["HALT"], ["RES"], ["BP"], ["CNT"], ["STEST"], ["BAUD"],
    ["TR", "ON"], ["TR", "OFF"], ["TR", "ST"], ["INJ", "T0C"], ["INJ", "T0U"], ["INJ", "PPOI"], ["INJ", "TDROP"], ["INJ", "DLN"],
    ["INJ", "CDROP"], ["INJ", "VACK"], ["INJ", "CLR"], ["INJ", "ST"]]
/-- A request begins with the words of a command. -/
def begins (ws : List (List Byte)) (h : List String) : Bool := ws.take h.length == h.map txt

/-- What keeps a command from being executed (17 R546): 0 for `ID`, 1 for `CHAL` and `UNLK`, 2 for every other command. -/
def gate (s : State) (level : Nat) : Option String :=
  if level == 0 then none
  else if !s.fuse.debugEn then some "FUSE"
  else if level == 2 && !s.mon.unlocked then some "LOCKED"
  else none

/-- A complete line: one that fails its checks is discarded, one that repeats the last sequence number is answered again, an
unknown command is answered at once, and a known one waits for its row. -/
def takeLine (s : State) (l : List Byte) : State :=
  match readLine l with
  | none => s
  | some (seq, ws) =>
    if s.mon.lastSeq == some seq then { s with mon := { s.mon with tx := s.mon.tx ++ s.mon.lastAns } }
    else if commandHeads.any (begins ws) then { s with mon := { s.mon with req := some (seq, ws) } }
    else answer s seq '?' (txt ((gate s 2).getD "SYNTAX"))

/-- The line being received has run out of time (17 R545). -/
def lineLate (s : State) : Bool := !s.mon.line.isEmpty && decide (s.mon.lineLt + 100000000 ≤ s.life.lt)
/-- An overdue line is discarded. -/
def dropLine (s : State) : State := if lineLate s then { s with mon := { s.mon with line := [] } } else s

/-- The monitor takes one byte of the FIFO. -/
def feedByte (s : State) (b : Byte) : State :=
  let s := dropLine s
  if b == 13 then takeLine { s with mon := { s.mon with line := [] } } s.mon.line
  else { s with mon := { s.mon with
      lineLt := if s.mon.line.isEmpty then s.life.lt else s.mon.lineLt
      line := s.mon.line ++ [b] } }

/-- The monitor empties the FIFO until a request waits. -/
def drainFifo : Nat → State → State
  | 0, s => s
  | n + 1, s =>
    if s.mon.req.isSome then s
    else match s.mon.fifo with
      | [] => s
      | b :: l => drainFifo n (feedByte { s with mon := { s.mon with fifo := l } } b)

/-- UART_RX_FRAME (15 R511). -/
def uartRx (b : Byte) (stop : Bool) (lt : Dword) (s : State) : State :=
  let s := advance s lt
  if !s.running || s.life.refLost || tapHolds s then s
  else if !stop then { s with mon := { s.mon with frameErr := min (s.mon.frameErr + 1) 0xFFFF } }
  else if 64 ≤ s.mon.fifo.length then { s with mon := { s.mon with overrun := min (s.mon.overrun + 1) 0xFFFF } }
  else drainFifo 64 { s with mon := { s.mon with fifo := s.mon.fifo ++ [b] } }

/-- UART_TX_CHARACTER_END (15 R510; 17 R547). -/
def uartTx (s : State) : State :=
  match s.mon.tx with
  | [] => s
  | _ :: l =>
    if !s.running || s.life.refLost then s
    else
      let m := { s.mon with tx := l, div := s.mon.divNext.getD s.mon.div, divNext := none }
      match m.baud with
      | none => { s with mon := m }
      | some (k, d) => if k ≤ 1 then { s with mon := { m with div := d, baud := none } } else { s with mon := { m with baud := some (k - 1, d) } }

/-- MONITOR_LINE_TIMEOUT (17 R545). -/
def lineTimeout (lt : Dword) (s : State) : State := dropLine (advance s lt)

/-- NONCE_EXPIRY (17 R546). -/
def nonceExpiry (lt : Dword) (s : State) : State :=
  let s := advance s lt
  match s.mon.nonce with
  | none => s
  | some (_, e) => if e ≤ s.life.lt then { s with mon := { s.mon with nonce := none } } else s

/-! ### Executing a request -/

/-- What a command's execution comes to: an answer, an error text, or a wait for a wake. -/
inductive MonRes where
  | ok (text : List Byte) (s : State)
  | err (text : String) (s : State)
  | wait (s : State)

/-- The answer `OK`. -/
def okText : List Byte := txt "OK"

/-- The row of a command: the waiting request is executed when it is this command (17 R545-R547), and the monitor goes on with
the FIFO. -/
def monRow (head : List String) (level : Nat) (run : State → List (List Byte) → MonRes) (s : State) : State :=
  match s.mon.req with
  | none => s
  | some (seq, ws) =>
    if !s.running || !begins ws head then s
    else match gate s level with
      | some e => drainFifo 64 (answer s seq '?' (txt e))
      | none =>
        match run s (ws.drop head.length) with
        | .ok t s => drainFifo 64 (answer s seq '!' t)
        | .err e s => drainFifo 64 (answer s seq '?' (txt e))
        | .wait s => s

/-- A command that takes no arguments. -/
def noArgs (f : State → MonRes) (s : State) (ws : List (List Byte)) : MonRes := if ws.isEmpty then f s else .err "SYNTAX" s

/-- The arguments as numbers, or none where one is no number. -/
def numArgs (ws : List (List Byte)) : Option (List Nat) := ws.mapM hexOf

/-- The engine is in a state in which the control network reaches every register (16 R532). -/
def reachable (s : State) : Bool := !s.life.ready || (s.pwr.state == 0 && s.pwr.move.isNone)
/-- A command that needs the engine awake wakes it and waits (16 R532; 17 R545). -/
def whenAwake (s : State) (f : MonRes) : MonRes := if reachable s then f else .wait (wakeEvent s)

/-- `ID`. -/
def monId (s : State) : MonRes :=
  .ok (fields [hexN 8 idCode, hexMin Config.cores, hexN 8 s.boot.revision, hexMin (b2n s.fuse.debugEn), hexMin (b2n s.mon.unlocked)]) s

/-- `CHAL` (17 R546). -/
def monChal (entropy : BitVec 64) (s : State) : MonRes :=
  if 3 ≤ s.mon.wrong then .err "LOCKED" s
  else .ok (hexN 16 entropy.toNat) { s with mon := { s.mon with nonce := some (entropy.toNat, s.life.lt + 6000000000) } }

/-- The response that unlocks (17 R546): the first eight bytes as a number. -/
def response (s : State) (nonce : Nat) : Nat :=
  ofBe ((hmac (beBytes 32 s.fuse.key) (beBytes 8 nonce ++ leBytes 8 s.fuse.uid)).take 8)

/-- `UNLK` (17 R546). -/
def monUnlk (s : State) (ws : List (List Byte)) : MonRes :=
  match ws with
  | [w] =>
    (match hexOf w, s.mon.nonce with
    | some r, some (n, e) =>
      if w.length != 16 then .err "SYNTAX" s
      else if e ≤ s.life.lt then .err "STATE" { s with mon := { s.mon with nonce := none } }
      else if r == response s n then .ok okText { s with mon := { s.mon with nonce := none, unlocked := true } }
      else
        let k := s.mon.wrong + 1
        .err "LOCKED" (fault { s with mon := { s.mon with nonce := none, wrong := k } } 10 1 0xFF false 0 k 0)
    | some _, none => .err (if w.length != 16 then "SYNTAX" else "STATE") s
    | none, _ => .err "SYNTAX" s)
  | _ => .err "SYNTAX" s

/-- `LOCK`. -/
def monLock (s : State) : MonRes := .ok okText { s with mon := { s.mon with unlocked := false } }

/-- `ST` (17 R547). -/
def monSt (s : State) : MonRes :=
  .ok (fields ([engStatus s, inStatus s, pwrStatus s, faultStatus s, dbgStatus s].map (hexN 8))) s

/-- Reads words one after another. -/
def readWords : Nat → State → Nat → List Nat × State
  | 0, s, _ => ([], s)
  | n + 1, s, a =>
    let r := ctrlRead s a
    let t := readWords n r.2 (a + 4)
    (r.1 :: t.1, t.2)

/-- `RD` (17 R547). -/
def monRd (s : State) (ws : List (List Byte)) : MonRes :=
  let go (a n : Nat) : MonRes :=
    if n == 0 || decide (64 < n) || a % 4 != 0 || decide (2 ^ 24 < a + 4 * n) then .err "RANGE" s
    else
      let r := readWords n s a
      let m : MonRes := .ok (fields (r.1.map (hexN 8))) r.2
      if alwaysOn a && alwaysOn (a + 4 * (n - 1)) then m else whenAwake s m
  match numArgs ws with
  | some [a] => go a 1
  | some [a, n] => go a n
  | _ => .err "SYNTAX" s

/-- `WR` (17 R547). -/
def monWr (s : State) (ws : List (List Byte)) : MonRes :=
  match numArgs ws with
  | some [a, v] =>
    if decide (2 ^ 24 ≤ a) || a % 4 != 0 || decide (2 ^ 32 ≤ v) then .err "RANGE" s
    else
      let m : MonRes := .ok okText (ctrlWrite s a v)
      if alwaysOn a then m else whenAwake s m
  | _ => .err "SYNTAX" s

/-- `MD` (17 R547; 12 R386). -/
def monMd (s : State) (ws : List (List Byte)) : MonRes :=
  match numArgs ws with
  | some [a, n] =>
    if n == 0 || decide (256 < n) || decide (2 ^ 47 < a + n) then .err "RANGE" s
    else whenAwake s (.ok (fields ((s.t1.fetch a n).1.map fun b => hexN 2 b.toNat)) s)
  | _ => .err "SYNTAX" s

/-- `HALT` (17 R548). -/
def monHaltCmd (s : State) (ws : List (List Byte)) : MonRes :=
  match numArgs ws with
  | some [] => .ok okText (haltEngine s)
  | some [c] =>
    if Config.cores ≤ c then .err "RANGE" s
    else .ok okText { s with inp := { s.inp with monHalt := insNat c s.inp.monHalt } }
  | _ => .err "SYNTAX" s

/-- `RES` (17 R548, R551). -/
def monRes (s : State) (ws : List (List Byte)) : MonRes :=
  match numArgs ws with
  | some [] =>
    let s := haltRelease s
    .ok okText { s with inp := { s.inp with monHalt := [] }, mon := { s.mon with bpHit := false } }
  | some [c] =>
    if Config.cores ≤ c then .err "RANGE" s
    else .ok okText { s with inp := { s.inp with monHalt := s.inp.monHalt.erase c } }
  | _ => .err "SYNTAX" s

/-- `BP` (17 R549). -/
def monBp (s : State) (ws : List (List Byte)) : MonRes :=
  let put (n v : Nat) : MonRes := .ok okText { s with mon := { s.mon with bp := s.mon.bp.put n v } }
  match ws with
  | [n, k] =>
    (match hexOf n with
    | some n => if k != txt "OFF" then .err "SYNTAX" s else if 4 ≤ n then .err "RANGE" s else put n 0
    | none => .err "SYNTAX" s)
  | [n, q, t, k] =>
    (match hexOf n, hexOf q, hexOf t with
    | some n, some q, some t =>
      if k != txt "T" && k != txt "C" then .err "SYNTAX" s
      else if 4 ≤ n || 64 ≤ q || 65536 ≤ t then .err "RANGE" s
      else put n (t + q <<< 16 + (b2n (k == txt "C")) <<< 22 + 2 ^ 31)
    | _, _, _ => .err "SYNTAX" s)
  | _ => .err "SYNTAX" s

/-- `CNT` (17 R547): stall slots 1 to 9 of a core, or the engine-wide counters of the counter block. -/
def monCnt (s : State) (ws : List (List Byte)) : MonRes :=
  match numArgs ws with
  | some [] => whenAwake s (.ok (fields ([s.slots.waitLt, s.total 12, s.total 13, s.total 14, s.total 15].map (hexN 16))) s)
  | some [c] =>
    if Config.cores ≤ c then .err "RANGE" s
    else whenAwake s (.ok (fields (tab 9 fun i => hexN 16 (s.counter c (i + 1)))) s)
  | _ => .err "SYNTAX" s

/-- `TR ON` (17 R550). -/
def monTrOn (s : State) (ws : List (List Byte)) : MonRes :=
  match numArgs ws with
  | some [base, size, mask, mode] =>
    if base % 4096 != 0 || decide (2 ^ 47 < base + size) || size % 4096 != 0 || size == 0 || decide (2 ^ 30 < size) ||
        decide (0x80 ≤ mask) || decide (2 ≤ mode) then .err "RANGE" s
    else .ok okText { s with mon := { s.mon with
      trBase := base
      trSize := size
      trNext := 0
      trMask := mask
      trWrap := mode == 1
      trOn := true
      trFull := false } }
  | _ => .err "SYNTAX" s
/-- `TR OFF`. -/
def monTrOff (s : State) : MonRes := .ok okText { s with mon := { s.mon with trOn := false } }
/-- `TR ST`. -/
def monTrSt (s : State) : MonRes :=
  .ok (fields [hexMin (b2n s.mon.trOn), hexMin (b2n s.mon.trFull), hexN 16 s.mon.trBase, hexN 8 s.mon.trSize, hexN 8 s.mon.trNext,
    hexN 8 s.mon.trDrop]) s

/-- TRACE_DROP (17 R550): an entry that could not be written is counted. -/
def traceDrop (s : State) : State :=
  if s.mon.trOn then { s with mon := { s.mon with trDrop := sat32 s.mon.trDrop 1 } } else s

/-! ### Injections (17 R551) -/

/-- Arms an injection, at most eight; one into T0 flips its bits at once unless its core is without power. -/
def arm (s : State) (i : Inject) : MonRes :=
  if 8 ≤ s.mon.inj.length then .err "STATE" s
  else if (i.kind == 1 || i.kind == 2) && s.pwr.state < 3 then .ok okText (flipT0 s i)
  else .ok okText { s with mon := { s.mon with inj := s.mon.inj ++ [i] } }

/-- Arms an injection whose arguments lie below their limits. -/
def armArgs (kind : Nat) (limits : List Nat) (s : State) (ws : List (List Byte)) : MonRes :=
  match numArgs ws with
  | none => .err "SYNTAX" s
  | some l =>
    if l.length != limits.length then .err "SYNTAX" s
    else if (l.zip limits).any fun p => decide (p.2 ≤ p.1) then .err "RANGE" s
    else arm s ⟨kind, l.getD 0 0, l.getD 1 0, l.getD 2 0⟩

/-- `INJ CLR`. -/
def monInjClr (s : State) : MonRes := .ok okText { s with mon := { s.mon with inj := [] } }
/-- The names of the kinds. -/
def injName (k : Nat) : String := ["", "T0C", "T0U", "PPOI", "TDROP", "DLN", "CDROP", "VACK"].getD k ""
/-- How many arguments a kind has. -/
def injArgs (k : Nat) : Nat := [0, 3, 2, 1, 1, 1, 0, 0].getD k 0
/-- `INJ ST`. -/
def monInjSt (s : State) : MonRes :=
  .ok (fields (hexMin s.mon.inj.length :: s.mon.inj.flatMap fun i => txt (injName i.kind) :: ([i.a, i.b, i.c].take (injArgs i.kind)).map hexMin)) s

/-- `STEST` (16 R524). -/
def monStest (test : Option SelfTestFail) (s : State) : MonRes :=
  whenAwake s (match rerunTest s test with
    | none => .err "STATE" s
    | some s => .ok okText s)

/-- `BAUD`: the divisor waits until the answer has been sent (17 R547). -/
def monBaud (s : State) (ws : List (List Byte)) : MonRes :=
  match numArgs ws with
  | some [d] => if 65536 ≤ d then .err "RANGE" s else .ok okText { s with mon := { s.mon with baud := some (0, d) } }
  | _ => .err "SYNTAX" s

/-- ID. -/
def execIdCmd (s : State) : Host.Outcome State Fault Refusal := .next (monRow ["ID"] 0 (noArgs monId) s)
/-- CHAL. -/
def execChal (entropy : BitVec 64) (s : State) : Host.Outcome State Fault Refusal := .next (monRow ["CHAL"] 1 (noArgs (monChal entropy)) s)
/-- UNLK. -/
def execUnlk (s : State) : Host.Outcome State Fault Refusal := .next (monRow ["UNLK"] 1 monUnlk s)
/-- LOCK. -/
def execLockCmd (s : State) : Host.Outcome State Fault Refusal := .next (monRow ["LOCK"] 2 (noArgs monLock) s)
/-- ST. -/
def execStCmd (s : State) : Host.Outcome State Fault Refusal := .next (monRow ["ST"] 2 (noArgs monSt) s)
/-- RD. -/
def execRdCmd (s : State) : Host.Outcome State Fault Refusal := .next (monRow ["RD"] 2 monRd s)
/-- WR. -/
def execWrCmd (s : State) : Host.Outcome State Fault Refusal := .next (monRow ["WR"] 2 monWr s)
/-- MD. -/
def execMdCmd (s : State) : Host.Outcome State Fault Refusal := .next (monRow ["MD"] 2 monMd s)
/-- HALT of the monitor. -/
def execMonitorHalt (s : State) : Host.Outcome State Fault Refusal := .next (monRow ["HALT"] 2 monHaltCmd s)
/-- RES of the monitor. -/
def execMonitorRes (s : State) : Host.Outcome State Fault Refusal := .next (monRow ["RES"] 2 monRes s)
/-- BP. -/
def execBpCmd (s : State) : Host.Outcome State Fault Refusal := .next (monRow ["BP"] 2 monBp s)
/-- CNT. -/
def execCntCmd (s : State) : Host.Outcome State Fault Refusal := .next (monRow ["CNT"] 2 monCnt s)
/-- TR ON. -/
def execTrOn (s : State) : Host.Outcome State Fault Refusal := .next (monRow ["TR", "ON"] 2 monTrOn s)
/-- TR OFF. -/
def execTrOff (s : State) : Host.Outcome State Fault Refusal := .next (monRow ["TR", "OFF"] 2 (noArgs monTrOff) s)
/-- TR ST. -/
def execTrSt (s : State) : Host.Outcome State Fault Refusal := .next (monRow ["TR", "ST"] 2 (noArgs monTrSt) s)
/-- TRACE_DROP. -/
def execTraceDrop (s : State) : Host.Outcome State Fault Refusal := .next (traceDrop s)
/-- INJ T0C. -/
def execInjT0c (s : State) : Host.Outcome State Fault Refusal := .next (monRow ["INJ", "T0C"] 2 (armArgs 1 [Config.cores, 2 ^ 21, 72]) s)
/-- INJ T0U. -/
def execInjT0u (s : State) : Host.Outcome State Fault Refusal := .next (monRow ["INJ", "T0U"] 2 (armArgs 2 [Config.cores, 2 ^ 21]) s)
/-- INJ PPOI. -/
def execInjPpoi (s : State) : Host.Outcome State Fault Refusal := .next (monRow ["INJ", "PPOI"] 2 (armArgs 3 [Config.cores]) s)
/-- INJ TDROP. -/
def execInjTdrop (s : State) : Host.Outcome State Fault Refusal := .next (monRow ["INJ", "TDROP"] 2 (armArgs 4 [Config.cores]) s)
/-- INJ DLN. -/
def execInjDln (s : State) : Host.Outcome State Fault Refusal := .next (monRow ["INJ", "DLN"] 2 (armArgs 5 [Config.queues]) s)
/-- INJ CDROP. -/
def execInjCdrop (s : State) : Host.Outcome State Fault Refusal := .next (monRow ["INJ", "CDROP"] 2 (armArgs 6 []) s)
/-- INJ VACK. -/
def execInjVack (s : State) : Host.Outcome State Fault Refusal := .next (monRow ["INJ", "VACK"] 2 (armArgs 7 []) s)
/-- INJ CLR. -/
def execInjClr (s : State) : Host.Outcome State Fault Refusal := .next (monRow ["INJ", "CLR"] 2 (noArgs monInjClr) s)
/-- INJ ST. -/
def execInjSt (s : State) : Host.Outcome State Fault Refusal := .next (monRow ["INJ", "ST"] 2 (noArgs monInjSt) s)
/-- STEST. -/
def execStest (test : Option SelfTestFail) (lt : Dword) (s : State) : Host.Outcome State Fault Refusal :=
  .next (monRow ["STEST"] 2 (noArgs (monStest test)) (advance s lt))
/-- BAUD. -/
def execBaud (s : State) : Host.Outcome State Fault Refusal := .next (monRow ["BAUD"] 2 monBaud s)
/-- UART_RX_FRAME. -/
def execUartRxFrame (b : Byte) (stop : Bool) (lt : Dword) (s : State) : Host.Outcome State Fault Refusal := .next (uartRx b stop lt s)
/-- UART_TX_CHARACTER_END. -/
def execUartTxCharacterEnd (s : State) : Host.Outcome State Fault Refusal := .next (uartTx s)
/-- MONITOR_LINE_TIMEOUT. -/
def execMonitorLineTimeout (lt : Dword) (s : State) : Host.Outcome State Fault Refusal := .next (lineTimeout lt s)
/-- NONCE_EXPIRY. -/
def execNonceExpiry (lt : Dword) (s : State) : Host.Outcome State Fault Refusal := .next (nonceExpiry lt s)

end Sys2Proof.Machine
end

