-- ==== Sys2Proof/Machine/Rounds.lean ====
section
/-! DEFINITION. The weight round: slices and pieces, their staging, the hops of both rings (01 R25-R30; 05 R164; 12 R394-R396; 13 R418).
The rows of the members stand still while a round runs: a member's layers take their weights from memory whatever the ring holds, with
the same bits (01 R27; DESIGN CHOICE, log 26). -/
namespace Sys2Proof.Machine

/-! ### Slices and pieces -/

/-- A program entry on the weight round: its command, its place in the program and its bytes. -/
structure RoundEntry where
  q : Nat
  n : Nat
  entry : Nat
  bytes : List Byte

/-- The entries of the running layer programs that have `ROUND` set, in the order of the commands and of each program (13 R418). -/
def roundEntries (s : State) : List RoundEntry :=
  s.jobs.flatMap fun j =>
    if j.op == 0x09 && j.phase == .running then
      ((programOf s j.cmd).zipIdx.filter fun c => roundOf c.1 != 0).map fun c => ⟨j.q, j.n, c.2, c.1⟩
    else []

/-- The bits of one output column of a weight matrix. -/
def ArrOp.colBits (o : ArrOp) : Nat := max 1 (o.k * o.w.fmt.bits)

/-- The rounds that an application takes: the conveyor one, the staged form as many column ranges as keep a slice within 128 KiB
(01 R28, 12 R395). -/
def ArrOp.ranges (o : ArrOp) (conveyor : Bool) : Nat :=
  if conveyor then 1 else max 1 (cdiv o.n (512 * max 1 (2 ^ 20 / o.colBits)))

/-- The 512 slices of one column range: columns `floor (j N / 512)` to `floor ((j + 1) N / 512) - 1` of it, with all of K (01 R25). -/
def ArrOp.slices (o : ArrOp) (part parts : Nat) : List Slice :=
  let a := part * o.n / parts
  let w := (part + 1) * o.n / parts - a
  tab 512 fun j => ⟨j, a + j * w / 512, a + (j + 1) * w / 512, 0, o.k⟩

/-- A slice cut along K into pieces of whole K-groups, at most 64 KiB each, one K-group at least (12 R395). -/
def ArrOp.cut (o : ArrOp) (x : Slice) : List Slice :=
  let cols := x.c1 - x.c0
  let g := o.gk * max 1 (65536 * 8 / max 1 (o.gk * cols * o.w.fmt.bits))
  if cols == 0 then [] else tab (cdiv o.k g) fun i => { x with k0 := i * g, k1 := min o.k ((i + 1) * g) }

/-- The pieces of one ring in the order in which they enter, numbered from `base` (12 R395). -/
def ArrOp.pieces (o : ArrOp) (base : Nat) (l : List Slice) : List Slice :=
  (l.flatMap o.cut).zipIdx.map fun p => { p.1 with num := base + p.2 }

/-- The number of the first piece of ring B. -/
def ringB : Nat := 2 ^ 20

/-- The weights that a slice holds; those of a transposed application form a strided block of the stored matrix (05 R164). -/
def ArrOp.sliceElems (o : ArrOp) (x : Slice) : List (Tensor × Nat) :=
  (List.range (if o.w.d2 == 1 then 1 else o.batch)).flatMap fun b =>
    (tab (x.c1 - x.c0) fun i => x.c0 + i).flatMap fun c => tab (x.k1 - x.k0) fun i =>
      (o.w, o.weightElem { o.box 0 with b := b } (x.k0 + i) c)

/-! ### Staging (12 R394, R395) -/

/-- The round after the one that the registers name: its entry, its column range and its operation; the next range of the same entry, else
the next entry of the program, else the first (DESIGN CHOICE, log 26). -/
def nextRound (s : State) (r : Ring) : Option (RoundEntry × Nat × ArrOp) :=
  let l := roundEntries s
  let same (e : RoundEntry) : Bool := e.q == r.q && e.n == r.n
  let e := if r.part + 1 < r.parts then l.find? fun e => same e && e.entry + 1 == r.after else none
  let go (e : RoundEntry) (part : Nat) : Option (RoundEntry × Nat × ArrOp) :=
    match prepArray s { q := e.q, n := e.n, prog := true } e.bytes with
    | .error _ => none
    | .ok o => some (e, part, o)
  match e with
  | some e => go e (r.part + 1)
  | none => match (l.find? fun e => same e && decide (r.after ≤ e.entry)).or l.head? with
    | none => none
    | some e => go e 0

/-- The core that fetches part of a round of phase `p`: the starting core of a slice, or in rotation a core of the injector's cluster for a
piece (01 R26; 12 R394, R395). -/
def feedCore (conveyor : Bool) (p i : Nat) : Nat :=
  if conveyor then p / 16 * 16 + i % ringB % 16 else (i % 256 + p) % Config.cores

/-- The transfers of a round are asked for, unless they have been (12 R394, R395). -/
def stageRound (s : State) (e : RoundEntry) (o : ArrOp) (round phase : Nat) (l : List Slice) : State :=
  s.withJob e.q e.n fun s j =>
    if j.parts.any fun p => p.unit / 2 ^ 40 == round then s
    else
      let ps := l.flatMap fun x =>
        ({ unit := ringUnit round x.num, core := feedCore (roundOf e.bytes == 2) phase x.num, elems := o.sliceElems x } : Part).pieces s
          { q := e.q, n := e.n, prog := true }
      issueReads (s.setJob { j with ask := some (j.ask.getD [] ++ ps), parts := j.parts ++ ps }) e.q e.n

/-- What has been staged of a round is let go. -/
def dropStaged (s : State) (q n round : Nat) : State :=
  s.withJob q n fun s j => s.setJob { j with
    fetched := j.fetched.filter fun f => f.unit / 2 ^ 40 != round
    parts := j.parts.filter fun p => p.unit / 2 ^ 40 != round }

/-! ### The rings (01 R26) -/

/-- Every slice moves to the next higher core. -/
def ringUp (l : List (Option Slice)) : List (Option Slice) := (l.drop (l.length - 1)) ++ l.take (l.length - 1)
/-- Every slice moves to the next lower core. -/
def ringDown (l : List (Option Slice)) : List (Option Slice) := l.drop 1 ++ l.take 1

/-- What the second buffers of a ring receive: the neighbours' slices, but at the injector of a conveyor the next piece (01 R28, 12 R395). -/
def Ring.coming (r : Ring) (move : List (Option Slice) → List (Option Slice)) (cur : List (Option Slice)) (feed : List Slice) :
    List (Option Slice) :=
  if r.conveyor then (move cur).set r.phase feed.head? else move cur

/-- The second buffers follow the current ones. -/
def Ring.receive (r : Ring) : Ring := { r with nextA := r.coming ringUp r.curA r.feedA, nextB := r.coming ringDown r.curB r.feedB }

/-- The slices as a staged round starts: slice `j` of each half at core `(j + p) mod 256` (01 R26). -/
def ringStart (p : Nat) (l : List Slice) : List (Option Slice) := tab Config.cores fun c => l[(c + Config.cores - p) % Config.cores]?
/-- A conveyor as it starts: the first piece at the injector. -/
def beltStart (p : Nat) (l : List Slice) : List (Option Slice) := tab Config.cores fun c => if c == p then l.head? else none

/-- The bytes of scratchpad that a round takes of a core: four slice buffers and two staging buffers, or four piece buffers
(01 R28; 12 R394, R396). -/
def ArrOp.claim (o : ArrOp) (conveyor : Bool) (l : List Slice) : Nat :=
  let most := (l.map fun x => cdiv ((x.c1 - x.c0) * (x.k1 - x.k0) * o.w.fmt.bits) 8).foldl max 0
  if conveyor then 4 * most else 6 * most

/-- The slices or pieces of a round on ring A and on ring B. -/
def ArrOp.roundSlices (o : ArrOp) (conveyor : Bool) (part : Nat) : List Slice × List Slice :=
  let l := o.slices part (o.ranges conveyor)
  if conveyor then (o.pieces 0 (l.take 256), o.pieces ringB (l.drop 256)) else (l.take 256, l.drop 256)

/-- The round of an entry's column range begins with phase `p`: 256 hop periods, or P + 255 in the conveyor form (01 R26, 12 R395). -/
def ringRun (e : RoundEntry) (part : Nat) (o : ArrOp) (round p : Nat) : Ring :=
  let cv := roundOf e.bytes == 2
  let l := o.roundSlices cv part
  let r : Ring := {
    phase := p
    active := true
    hops := if cv then max l.1.length l.2.length + 255 else 256
    conveyor := cv
    count := round
    q := e.q
    n := e.n
    after := e.entry + 1
    part := part
    parts := o.ranges cv
    curA := if cv then beltStart p l.1 else ringStart p l.1
    curB := if cv then beltStart p l.2 else ringStart p l.2
    feedA := if cv then l.1.drop 1 else []
    feedB := if cv then l.2.drop 1 else []
    claim := o.claim cv (l.1 ++ l.2) }
  r.receive

/-- The slices of the next staged round are fetched while a round runs (12 R394). -/
def stageNext (s : State) : State :=
  match nextRound s s.ring with
  | none => s
  | some (e, part, o) =>
    if roundOf e.bytes == 2 then s
    else
      let l := o.roundSlices false part
      stageRound s e o (s.ring.count + 1) ((s.ring.phase + 97) % Config.cores) (l.1 ++ l.2)

/-- ROUND_START (01 R30): the phase advances by 97, the slices staged become the current ones, and those of the next round are fetched. -/
def roundStart (s : State) : State :=
  if !s.awake || s.ring.active then s
  else match nextRound s s.ring with
    | none => s
    | some (e, part, o) =>
      let p := (s.ring.phase + 97) % Config.cores
      let round := s.ring.count + 1
      let l := o.roundSlices (roundOf e.bytes == 2) part
      stageNext { (stageRound s e o round p (l.1 ++ l.2)) with ring := ringRun e part o round p }

/-- What the round in progress waits for has landed (01 R29). -/
def slicesHere (s : State) : Bool :=
  match s.job s.ring.q s.ring.n with
  | none => true
  | some j => !((j.ask.getD []).any fun p => s.ring.wants p.unit) &&
      !(s.str.tags.any fun t => match t.2.use with | .fetch q n u => q == j.q && n == j.n && s.ring.wants u | _ => false)

/-- A station holds no slice, or one whose valid bit is clear (01 R25, R47). -/
def emptyStation (x : Option Slice) : Bool := match x with | none => true | some x => x.c0 == x.c1

/-- The rings after a hop: the second buffers become the current ones (01 R26, R28). -/
def Ring.turn (r : Ring) : Ring :=
  if r.hop + 1 < r.hops then
    ({ r with hop := r.hop + 1, curA := r.nextA, curB := r.nextB, feedA := r.feedA.drop 1, feedB := r.feedB.drop 1 } : Ring).receive
  else
    { r with hop := r.hop + 1, active := false, claim := 0, curA := [], curB := [], nextA := [], nextB := [], feedA := [], feedB := [] }

/-- HOP_PERIOD_END (01 R26, R29): once every next slice has arrived, the slices hop; stations without one count as bubbles (01 R47). -/
def hopEnd (s : State) : State :=
  let r := s.ring
  if !s.awake || !r.active || !slicesHere s then s
  else
    let s := (r.curA.zip r.curB).zipIdx.foldl (fun s x => bubbles s x.2 (b2n (emptyStation x.1.1) + b2n (emptyStation x.1.2))) s
    let s := { s with ring := r.turn }
    if s.ring.active then s else dropStaged s r.q r.n r.count

/-- ROUND_START. -/
def execRoundStart (s : State) : Host.Outcome State Fault Refusal := .next (roundStart s)
/-- HOP_PERIOD_END. -/
def execHopPeriodEnd (s : State) : Host.Outcome State Fault Refusal := .next (hopEnd s)

end Sys2Proof.Machine
end

