-- ==== Sys2Proof/Machine/Steps.lean ====
section
/-! DEFINITION. STEP: layer programs, members, their page needs, their commits and their ends (09 R300-R307; 10 R325-R331;
13 R417, R418). -/
namespace Sys2Proof.Machine

/-! ### The layer program (13 R417, R418) -/

/-- One entry of a layer program that has passed its checks. -/
inductive Entry where
  | work (p : Prep)
  | attn (o : AttnOp)

/-- The tensors that an entry reads. -/
def Entry.ins : Entry → List Tensor
  | .work p => p.ins
  | .attn o => [o.qkv]
/-- The tensors that an entry writes. -/
def Entry.outs : Entry → List Tensor
  | .work p => p.outs
  | .attn o => [o.y]

/-- The opcodes of a layer program. -/
def entryOps : List Nat := [0x01, 0x10, 0x11, 0x12, 0x13, 0x0A, 0x09]

/-- The flags that a STEP's header gives its entries where their opcodes allow them (DEDUCED, log 26). -/
def entryBytes (step c : List Byte) : List Byte :=
  let op := opOf c
  let hf := hfOf step
  let add := (if bit hf 0 && compatOk op && op != 0x09 then 1 else 0) ||| (if bit hf 1 && shadowOk op && op != 0x09 then 2 else 0)
  c.set 1 (BitVec.ofNat 8 (hfOf c ||| add))

/-- A bad bit of an entry's own 64 bytes. -/
def entryBad (c : List Byte) : Bool :=
  let op := opOf c
  let flags := fld (hfOf c) 3 5 != 0 || (bit (hfOf c) 0 && !compatOk op) || (bit (hfOf c) 1 && !shadowOk op)
  let masks := if op == 0x09 then bodyMask 0x08 else bodyMask op
  !entryOps.contains op || fld (c.headD 0).toNat 6 2 != 0 || flags || ofLe ((c.drop 2).take 14) != 0 ||
    (match masks with | none => true | some ms => ms.zipIdx.any fun m => bw c m.2 &&& m.1 != bw c m.2)

/-- Checks an entry for a member. -/
def prepEntryAt (s : State) (x : Ctx) (c : List Byte) : Except Bad Entry := do
  check (!entryBad c) (badField 0)
  match opOf c with
  | 0x01 => return .work (← prepArrayEntry s x c)
  | 0x10 => return .work (← prepVec s x c)
  | 0x11 => return .work (← prepSfn s x c)
  | 0x12 => return .work (← prepNorm s x c)
  | 0x13 => return .work (← prepSmax s x c)
  | 0x0A => return .attn (← prepAttn s x true c)
  | _ => return .work (← prepScanEntry s x c)

/-- The address of entry `i` of a STEP's program. -/
def Job.entryAddr (j : Job) (i : Nat) : Nat := fld (j.body 8) 0 48 + 64 * i

/-- Checks entry `i` for a member; a bad field of the entry is one of a referenced structure. -/
def prepEntry (s : State) (j : Job) (x : Ctx) (i : Nat) (c : List Byte) : Except Bad Entry :=
  match prepEntryAt s x (entryBytes j.cmd c) with
  | .ok e => .ok e
  | .error b => .error (if b.cause == 1 && b.detail != 0xFF then badRef (j.entryAddr i) else b)

/-- The context of member `r` of a STEP, sequence `sid`. -/
def Job.memberCtx (j : Job) (r sid : Nat) : Ctx :=
  { q := j.q, n := j.n, prog := true, sid := some sid, r := r, spill := fld (j.body 0x18) 0 48, scratch := fld (j.body 0x20) 0 32
    core := match j.members[r]? with | some m => m.core | none => 0 }

/-- Member `i` has ended. -/
def Job.memberOver (j : Job) (i : Nat) : Bool := match j.members[i]? with | some m => m.phase == .ended | none => false
/-- All entries of a program for a member. -/
def prepProgram (s : State) (j : Job) (x : Ctx) : Except Bad (List Entry) :=
  ((programOf s j.cmd).zipIdx).mapM fun c => prepEntry s j x c.2 c.1

/-- STEP's checks: on its set, and on the program for every member that has not ended (09 R275, R300; 13 R412, R417). -/
def chkStep (s : State) (j : Job) : Except Bad (List Nat) := do
  let t ← need s j.ctx .index (j.body 0) 0x10
  let sids := if j.members.isEmpty then t.ints s j.ctx else j.members.map Member.sid
  check (decide (1 ≤ sids.length) && decide (sids.length ≤ 4096) && noDup sids) (badField 0x10)
  if j.members.isEmpty then ownAll s j.q sids
  check (fld (j.body 8) 0 48 % 64 == 0) (badField 0x18)
  let _ ← sids.zipIdx.mapM fun m =>
    if j.memberOver m.2 then .ok [] else prepProgram s j (j.memberCtx m.2 m.1)
  return sids

/-- STEP starts: parked members are brought in, and every member waits for its issue (09 R301). -/
def runStep (s : State) (j : Job) (sids : List Nat) : State :=
  (withMembers s j sids).withJob j.q j.n fun s j =>
    let r := unparkAll s j j.liveSids j.liveSids
    if !r.1 then r.2
    else r.2.withJob j.q j.n fun s j =>
      settle (trace (s.setJob { j with phase := .running, slotWait := false }) 0x02 0 0xFF j.q j.n j.op sids.length) j.q j.n

/-- STEP. -/
def stepRow (q : BitVec 6) (n : BitVec 16) (s : State) : State := startRow 0x09 q.toNat n.toNat s chkStep runStep

/-! ### Page needs (10 R325) -/

/-- Free units of the node pages. -/
def freeUnits (s : State) : Nat :=
  (s.pg.nodePages.map fun d => let b := pageAddr s d; ((tab 31 fun i => i + 1).filter fun u => !bit (s.rd (b + 8 * u) 8) 63).length).foldl
    (· + ·) 0

/-- A sequence's root is shared: a write below it copies it (09 R294). -/
def rootShared (s : State) (sid : Nat) : Bool :=
  match seqRec s sid with | some x => decide (1 < nodeCount s x.root) | none => false

/-- What a write to a virtual page makes fresh: its level-2 node, its leaf node, its page. A page below a shared node is shared. -/
def pathNeed (s : State) (sid vpn : Nat) : Bool × Bool × Bool :=
  match seqRec s sid with
  | none => (false, false, false)
  | some x =>
    let fam := seqFam s x
    match interior s fam (x.root + 8 * fld vpn 16 8) with
    | none => (true, true, true)
    | some l2 =>
      let a := rootShared s sid || decide (1 < nodeCount s l2)
      match interior s fam (l2 + 8 * fld vpn 8 8) with
      | none => (a, true, true)
      | some lf =>
        let b := a || decide (1 < nodeCount s lf)
        match leafEntry s fam (lf + 8 * fld vpn 0 8) with
        | none => (a, b, true)
        | some d => (a, b, b || decide (1 < (getDesc s d).count))

/-- The fresh pages that writes to some pages take: the pages themselves and the node pages for new or copied nodes. -/
def pageNeed (s : State) (l : List (Nat × Nat)) : Nat :=
  let ps := l.map fun p => (p, pathNeed s p.1 p.2)
  let pages := (ps.filter fun p => p.2.2.2).length
  let l2 := ((ps.filter fun p => p.2.1).map fun p => (p.1.1, p.1.2 / 65536)).eraseDups.length
  let lf := ((ps.filter fun p => p.2.2.1).map fun p => (p.1.1, p.1.2 / 256)).eraseDups.length
  let roots := ((l.map Prod.fst).eraseDups.filter fun a => rootShared s a).length
  pages + cdiv (roots + l2 + lf - freeUnits s) 31

/-- The pages of a member's working copy. -/
def workPages (x : Slot) : List (Nat × Nat) :=
  if x.resid == 1 then [] else tab (statePages x) fun i => (x.sid, copyBase x (!x.sel) + i)

/-- Every page that a member's step writes. -/
def memberWrites (s : State) (x : Ctx) (y : Slot) (es : List Entry) : List (Nat × Nat) :=
  (workPages y ++ es.flatMap fun e =>
    (e.outs.flatMap fun t => if t.list then t.pages s x else []) ++
      (match e with | .attn o => (o.wpages y.pos).map fun v => (y.sid, v) | .work _ => [])).eraseDups

/-! ### Issuing members (09 R301; 10 R325-R330) -/

/-- A member that stalled before member `i` of a command: an earlier one of the set, or one of a command served earlier. -/
def dryBefore (s : State) (j : Job) (i : Nat) (ok : Member → Bool) : Bool :=
  s.jobs.any fun k => k.op == 0x09 && k.phase == .running &&
    (k.members.zipIdx.any fun m => m.1.phase == .dry && ok m.1 && (k.before j || (k.take == j.take && decide (m.2 < i))))

/-- Pops `k` frames and descriptors: from a core's reserve or from the pool. -/
def popMany (res : Option Nat) : Nat → State → Option (List Nat × List Nat × State)
  | 0, s => some ([], [], s)
  | k + 1, s =>
    match (match res with | some c => popReserve s c | none => popFrame s) with
    | none => none
    | some (f, s) =>
      match popDesc s with
      | none => none
      | some (d, s) => (popMany res k s).map fun r => (f :: r.1, d :: r.2.1, r.2.2)

/-- The frames and descriptors of a need, from the pool or from the core's reserve: whether the reserve's token is taken. -/
def takeNeed (s : State) (j : Job) (i core need : Nat) : Option (Bool × List Nat × List Nat × State) :=
  let pool := if need == 0 then some ([], [], s) else if dryBefore s j i fun _ => true then none else popMany none need s
  match pool with
  | some r => some (false, r)
  | none =>
    if (s.core core).token.isSome || dryBefore s j i (fun m => m.core == core) then none
    else (popMany (some core) need s).map fun r =>
      (true, r.1, r.2.1, r.2.2.setCore core { r.2.2.core core with token := some (j.q, j.n, i) })

/-- What a member has run so far: the state, the ranges of the working copy written, what it reports, its counts, the poisoned
elements, and whether the working copy took poison. -/
structure Layers where
  s : State
  x : Ctx
  rep : Rep
  floor : Nat
  masked : Nat
  bad : Nat
  poison : Bool

/-- The result of running entries: done, no page to be had, or a check that fails. -/
inductive Ran where
  | ok (l : Layers)
  | dry
  | bad (b : Nat × Nat × Nat)

/-- Poison among the writes to a working copy. -/
def poisons (y : Slot) (w : Wr) : Bool :=
  w.poison.any id && (match w.place with
    | .store _ => y.resid == 1
    | .paged sid => sid == y.sid && y.resid != 1 && (workPages y).any fun p => p.2 == w.addr / 65536
    | .t1 | .kept => false)

/-- The tiles of an entry are written and their reports kept; the restarts of integer work count as they happen (04 R139). -/
def keepTiles (l : Layers) (q n core : Nat) (y : Slot) (outs : List Tensor) (ts : List Tile) : Option Layers :=
  (ts.foldl (fun (o : Option Layers) t => o.bind fun l =>
    (writeRuns true q n core plainKv l.s t.wr).map fun s =>
      { l with
        s := bubbles (count (count s core 14 t.retry) core 15 t.discard) core t.bubble
        rep := l.rep.and t.rep
        floor := l.floor + t.floor
        masked := l.masked + t.masked
        bad := l.bad + t.poison
        poison := l.poison || t.wr.any (poisons y) }) (some l)).map fun l =>
    { l with x := { l.x with written := l.x.written ++ outs.filterMap fun t =>
        if t.space == 2 && !t.list then some (t.addr, t.dense) else none } }

/-- Pages that an entry's inputs come from: a state copy is read from the copy of record. -/
def inPages (s : State) (x : Ctx) (e : Entry) : List (Nat × Nat) := e.ins.flatMap fun t => t.pages s { x with prog := false }

/-- Runs one entry for a member. -/
def runEntry (q n core : Nat) (y : Slot) (j : Job) (l : Layers) (c : List Byte × Nat) : Ran :=
  match prepEntry l.s j l.x c.2 c.1 with
  | .error b => .bad (b.cause, b.detail, b.aux)
  | .ok e =>
    let l := if l.x.written.isEmpty then { l with s := logUnmapped l.s j.loc (inPages l.s l.x e) } else l
    let l := { l with s := countNeaps (noteState l.s l.x e.ins) q n (match e with
      | .work _ => (lossyPages l.s (inPages l.s l.x e)).length
      | .attn _ => 0) }
    match e with
    | .work p =>
      let r := p.run l.s
      match r.2 with
      | some f => .bad f
      | none => match keepTiles l q n core y e.outs r.1 with
        | some l => .ok l
        | none => .dry
    | .attn o =>
      if o.compat && decide (2 ^ 20 < (if o.win == 0 then y.pos + 1 else min o.win (y.pos + 1))) then
        .bad (1, 0xFF, j.entryAddr c.2 % 2 ^ 32)
      else match writeRuns true q n core o.kvCode l.s (kvWrites l.s l.x o 0 y.sid y.pos) with
      | none => .dry
      | some s =>
        let reads := o.pages y.pos
        let s := logUnmapped s j.loc (reads.map fun v => (y.sid, v))
        let k := (s.job q n).getD j
        let s := countNeaps s q n (neapPages s k y.sid reads).length
        let r := attnTiles s l.x o k 0 y.sid y.pos core
        match r.2 with
        | some f => .bad f
        | none => match keepTiles { l with s := s } q n core y e.outs r.1 with
          | some l => .ok l
          | none => .dry

/-- Runs entries in program order (13 R417). -/
def runEntries (q n core : Nat) (y : Slot) (j : Job) : List (List Byte × Nat) → Layers → Ran
  | [], l => .ok l
  | c :: cs, l => match runEntry q n core y j l c with
    | .ok l => runEntries q n core y j cs l
    | r => r

/-- Member `i` of a command changed. -/
def setMember (s : State) (q n i : Nat) (f : Member → Member) : State :=
  s.withJob q n fun s j => match j.members[i]? with
    | some m => s.setJob { j with members := j.members.set i (f m) }
    | none => s

/-- Every page that a member's step touches is reached, but keys and values that are only read may take the neap path. -/
def reachMember (s : State) (j : Job) (x : Ctx) (y : Slot) (m : Member) (es : List Entry) : Bool × State :=
  let mine := (es.flatMap fun e => inPages s x e ++ e.outs.flatMap fun t => t.pages s x).eraseDups
  es.foldl (fun (a : Bool × State) e => match e, a.2.job j.q j.n with
    | .attn o, some j =>
      let r := reachKv a.2 j m.core y.sid (streamDeadline a.2 j m) (o.pages y.pos) (o.wpages y.pos)
      (a.1 && r.1, r.2)
    | _, _ => a) (touchAll s m.core (some (j.q, j.n)) mine)

/-- A tensor that entries of the program write, so that a step finds it where it stands (07 R221; DESIGN CHOICE, log 26). -/
def madeHere (s : State) (x : Ctx) (es : List Entry) (t : Tensor) : Bool :=
  es.any fun e => e.outs.any fun o =>
    ((t.source x).any fun a => (o.source x).any fun b => meet a b) ||
      (t.list && (t.pages s x).any fun p => (o.pages s x).contains p)

/-- The transfers of a member's operands: what its entries read and do not themselves make, on the member's core (12 R381). -/
def memberPieces (s : State) (j : Job) (x : Ctx) (i : Nat) (m : Member) (es : List Entry) : List Piece :=
  let parts := es.flatMap fun e => match e with
    | .work p => p.parts
    | .attn o => o.parts s j 0 m.sid m.pos m.core
  (parts.flatMap fun p => ({ p with
    unit := i
    core := m.core
    elems := p.elems.filter fun q => !madeHere s x es q.1 } : Part).pieces s x).eraseDups

/-- A member's operands are fetched: `true` when all have landed. -/
def fetchMember (s : State) (j : Job) (x : Ctx) (i : Nat) (m : Member) (es : List Entry) : Bool × State :=
  let s := if m.asked then s
    else
      let ps := memberPieces s j x i m es
      s.setJob { j with
        ask := some (j.ask.getD [] ++ ps)
        parts := j.parts ++ ps
        members := j.members.set i { m with asked := true } }
  let s := issueReads s j.q j.n
  ((match s.job j.q j.n with | some j => landedOn s j i m.core | none => false), s)

/-- Every unended member of a command is ended and the command is malformed: a program entry broke (DEDUCED, log 26). -/
def breakStep (s : State) (q n : Nat) (b : Nat × Nat × Nat) : State :=
  s.withJob q n fun s j =>
    let s := (List.range j.members.length).foldl (fun s i => endMember s q n i 1) s
    s.withJob q n fun s j => malform s j b.1 b.2.1 b.2.2

/-- A member takes its page need and runs its layers (10 R326; 13 R417). -/
def issueMember (s : State) (j : Job) (i : Nat) (m : Member) (k : Nat) (y : Slot) (es : List Entry) : State :=
  let x := j.memberCtx i m.sid
  let need := max m.need (pageNeed s (memberWrites s x y es))
  match takeNeed s j i m.core need with
  | none => setMember s j.q j.n i fun m => { m with phase := .dry, need := need }
  | some (tok, fs, ds, s1) =>
    let s1 := setSlotState s1 k y 2
    let s1 := { s1 with pg := { s1.pg with allot := some (fs, ds) } }
    let kvs := es.flatMap fun e => match e with
      | .attn o => neapPages s1 j m.sid (o.pages y.pos)
      | .work _ => lossyPages s1 (inPages s1 x e)
    match runEntries j.q j.n m.core y j (programOf s j.cmd).zipIdx ⟨s1, x, Rep.nil, 0, 0, 0, false⟩ with
    | .bad b => breakStep s j.q j.n b
    | .dry => setMember s j.q j.n i fun m => { m with phase := .dry, need := need + 1 }
    | .ok l =>
      let left := l.s.pg.allot.getD ([], [])
      let s := ({ l.s with pg := { l.s.pg with allot := none } } : State).withJob j.q j.n fun s j =>
        s.setJob { j with fetched := j.fetched.filter fun f => f.unit != i }
      pumpWrites <| setMember s j.q j.n i fun m =>
        { m with
          phase := .issued
          frames := left.1
          descs := left.2
          token := tok
          rep := l.rep
          floor := l.floor
          masked := l.masked
          bad := l.bad
          poison := l.poison
          neap := !kvs.isEmpty }

/-- A member that may be issued now: its slot is `IDLE` and its pages are reached. -/
def tryMember (s : State) (j : Job) (i : Nat) (m : Member) : State :=
  match seqRec s m.sid with
  | none => settle (endMember s j.q j.n i 1) j.q j.n
  | some y =>
    if y.pos == 4194304 then settle (endMember s j.q j.n i 5) j.q j.n
    else match slotOf s m.sid with
    | none => (unparkAll s j [m.sid] (j.members.map Member.sid)).2
    | some (k, y) =>
      if y.state == 7 then settle (endMember s j.q j.n i 1) j.q j.n
      else if y.state != 1 || seqBusy s m.sid then s
      else
        let s := setMember s j.q j.n i fun m => { m with core := y.core, pos := y.pos }
        let m := { m with core := y.core, pos := y.pos }
        let x := { j.memberCtx i m.sid with core := y.core }
        match prepProgram s j x with
        | .error b => breakStep s j.q j.n (b.cause, b.detail, b.aux)
        | .ok es =>
          let r := reachMember s j x y m es
          if !r.1 then r.2
          else r.2.withJob j.q j.n fun s j =>
            let m := { m with asked := match j.members[i]? with | some m => m.asked | none => false }
            let f := fetchMember s j x i m es
            if !f.1 then f.2
            else f.2.withJob j.q j.n fun s j => issueMember (noteLanded s j.q j.n) j i m k y es

/-- MEMBER_ISSUE (09 R301; 10 R325-R329). -/
def memberIssue (q : BitVec 6) (n : BitVec 16) (r : BitVec 12) (s : State) : State :=
  s.withJob q.toNat n.toNat fun s j =>
    match j.members[r.toNat]? with
    | none => s
    | some m =>
      if j.op != 0x09 || j.phase != .running || !(m.phase == .waiting || m.phase == .dry) || !s.awake ||
          s.coreStopped m.core || actBefore s j.take m.sid then s
      else tryMember s j r.toNat m

/-! ### Commits and ends (09 R302-R305; 10 R331) -/

/-- A member that has run its layers commits by one selector write. -/
def commitMember (s : State) (j : Job) (i : Nat) (m : Member) : State :=
  match seqRec s m.sid with
  | none => s
  | some x =>
    let s := putSeq s m.sid { x with
      sel := !x.sel
      pos := x.pos + 1
      lastLt := s.life.lt
      halt := false
      poison := x.poison || m.poison }
    let s := count (count (report s j.loc m.core m.rep) m.core 12 m.floor) m.core 13 m.masked
    let s := s.withJob j.q j.n fun s j => s.setJob { j with
      fl := j.fl ||| m.rep.fl
      poison := sat32 j.poison m.bad }
    settle (endMember s j.q j.n i (if m.missed then 2 else 0)) j.q j.n

/-- MEMBER_COMMIT (09 R302). -/
def memberCommit (q : BitVec 6) (n : BitVec 16) (r : BitVec 12) (s : State) : State :=
  (s.withJob q.toNat n.toNat fun s j => if j.op == 0x09 && j.phase == .running then
      settle (missMembers s j.q j.n) j.q j.n else s).withJob q.toNat n.toNat fun s j =>
    match j.members[r.toNat]? with
    | none => s
    | some m => if j.op == 0x09 && m.phase == .issued then commitMember s j r.toNat m else s

/-- Nothing can end a stall for `need` fresh pages: no victim falls, or descriptors are short, and no fall is in progress
(10 R331, R567). -/
def noMorePages (s : State) (need : Nat) : Bool :=
  s.pg.falls.isEmpty && (decide (s.pg.descFree < need) || !(List.range s.pg.descCount).any (eligible s))

/-- The reserve of a member's core cannot serve it (10 R329). -/
def noReserve (s : State) (core need : Nat) : Bool :=
  (s.core core).token.isSome || decide (s.pg.resFree.get core 0 < need) || decide (s.pg.descFree < need)

/-- A stalled member is halted at its last complete step (10 R331). -/
def exhaust (s : State) (j : Job) (i : Nat) (m : Member) : State :=
  let s := match seqRec s m.sid with
    | some x => putSeq s m.sid { x with halt := true }
    | none => s
  let s := fault s 2 1 m.core false j.loc m.sid m.need
  settle (endMember s j.q j.n i 4) j.q j.n

/-- PAGE_EXHAUSTED (10 R331): of a STEP's member `r`, or of another writer that waits for a page. -/
def pageExhausted (q : BitVec 6) (n : BitVec 16) (r : BitVec 12) (s : State) : State :=
  s.withJob q.toNat n.toNat fun s j =>
    if j.op == 0x09 then
      match j.members[r.toNat]? with
      | none => s
      | some m =>
        if m.phase == .dry && noMorePages s m.need && noReserve s m.core m.need && decide (s.pg.free < m.need ∨ s.pg.descFree < m.need)
        then exhaust s j r.toNat m else s
    else if j.dry && noMorePages s 1 && (s.pg.free == 0 || s.pg.descFree == 0) && j.phase != .done then
      endJob s j.q j.n 5
    else s

/-- STEP. -/
def execStepCmd (q : BitVec 6) (n : BitVec 16) (s : State) : Host.Outcome State Fault Refusal := .next (stepRow q n s)
/-- MEMBER_ISSUE. -/
def execMemberIssue (q : BitVec 6) (n : BitVec 16) (r : BitVec 12) (s : State) : Host.Outcome State Fault Refusal :=
  .next (memberIssue q n r s)
/-- MEMBER_COMMIT. -/
def execMemberCommit (q : BitVec 6) (n : BitVec 16) (r : BitVec 12) (s : State) : Host.Outcome State Fault Refusal :=
  .next (memberCommit q n r s)
/-- PAGE_EXHAUSTED. -/
def execPageExhausted (q : BitVec 6) (n : BitVec 16) (r : BitVec 12) (s : State) : Host.Outcome State Fault Refusal :=
  .next (pageExhausted q n r s)

end Sys2Proof.Machine
end

