-- ==== Sys2Proof/Machine/Dispatch.lean ====
section
/-! DEFINITION. The dispatch of commands to their meanings, one arm per constructor. -/
namespace Sys2Proof.Machine

/-- The effect of a command on everything but the queue of waiting commands. -/
def exec (i : Instr) (s : State) : Host.Outcome State Fault Refusal :=
  match i with
  | .commandTake q => Sys2Proof.Machine.execCommandTake q s
  | .dependencyRelease q n => Sys2Proof.Machine.execDependencyRelease q n s
  | .mma q n => Sys2Proof.Machine.execMma q n s
  | .dmm q n => Sys2Proof.Machine.execDmm q n s
  | .conv q n => Sys2Proof.Machine.execConv q n s
  | .scan q n => Sys2Proof.Machine.execScan q n s
  | .stepCmd q n => Sys2Proof.Machine.execStepCmd q n s
  | .attn q n => Sys2Proof.Machine.execAttn q n s
  | .vec q n => Sys2Proof.Machine.execVec q n s
  | .sfn q n => Sys2Proof.Machine.execSfn q n s
  | .norm q n => Sys2Proof.Machine.execNorm q n s
  | .smax q n => Sys2Proof.Machine.execSmax q n s
  | .topk q n => Sys2Proof.Machine.execTopk q n s
  | .copy q n => Sys2Proof.Machine.execCopy q n s
  | .fill q n => Sys2Proof.Machine.execFill q n s
  | .admitCmd q n => Sys2Proof.Machine.execAdmit q n s
  | .park q n => Sys2Proof.Machine.execPark q n s
  | .unpark q n => Sys2Proof.Machine.execUnpark q n s
  | .pin q n => Sys2Proof.Machine.execPin q n s
  | .unpin q n => Sys2Proof.Machine.execUnpin q n s
  | .fork q n => Sys2Proof.Machine.execFork q n s
  | .retire q n => Sys2Proof.Machine.execRetire q n s
  | .pageRise q n => Sys2Proof.Machine.execPageRise q n s
  | .pageFall q n => Sys2Proof.Machine.execPageFall q n s
  | .fence q n => Sys2Proof.Machine.execFence q n s
  | .barrier q n => Sys2Proof.Machine.execBarrier q n s
  | .barrierArrival q n => Sys2Proof.Machine.execBarrierArrival q n s
  | .signal q n => Sys2Proof.Machine.execSignal q n s
  | .waitCmd q n => Sys2Proof.Machine.execWaitCmd q n s
  | .reduce q n => Sys2Proof.Machine.execReduce q n s
  | .tableCmd q n => Sys2Proof.Machine.execTableCmd q n s
  | .tableReloadStart q n => Sys2Proof.Machine.execTableReloadStart q n s
  | .epochSwitch sfu => Sys2Proof.Machine.execEpochSwitch sfu s
  | .nop q n => Sys2Proof.Machine.execNop q n s
  | .qDoorbell q v => Sys2Proof.Machine.execQDoorbell q v s
  | .qCancel q v => Sys2Proof.Machine.execQCancel q v s
  | .engFlags v => Sys2Proof.Machine.execEngFlags v s
  | .recover => Sys2Proof.Machine.execRecover s
  | .service => Sys2Proof.Machine.execService s
  | .faultClear v => Sys2Proof.Machine.execFaultClear v s
  | .vlogClear v => Sys2Proof.Machine.execVlogClear v s
  | .haltRel => Sys2Proof.Machine.execHaltRel s
  | .wakeRearm => Sys2Proof.Machine.execWakeRearm s
  | .thermRearm => Sys2Proof.Machine.execThermRearm s
  | .droopClr => Sys2Proof.Machine.execDroopClr s
  | .clearCounters on => Sys2Proof.Machine.execClearCounters on s
  | .freezeCounters on => Sys2Proof.Machine.execFreezeCounters on s
  | .slotFind v => Sys2Proof.Machine.execSlotFind v s
  | .slotSel v => Sys2Proof.Machine.execSlotSel v s
  | .slotWin0Read => Sys2Proof.Machine.execSlotWin0Read s
  | .tblDataRead => Sys2Proof.Machine.execTblDataRead s
  | .tblDataWrite v => Sys2Proof.Machine.execTblDataWrite v s
  | .cwDataRead c => Sys2Proof.Machine.execCwDataRead c s
  | .cwDataWrite c v => Sys2Proof.Machine.execCwDataWrite c v s
  | .reg64LowRead a => Sys2Proof.Machine.execReg64LowRead a s
  | .reg64LowWrite a v => Sys2Proof.Machine.execReg64LowWrite a v s
  | .reg64HighWrite a v => Sys2Proof.Machine.execReg64HighWrite a v s
  | .casEnable v => Sys2Proof.Machine.execCasEnable v s
  | .casDisable => Sys2Proof.Machine.execCasDisable s
  | .regWrite a v => Sys2Proof.Machine.execRegWrite a v s
  | .streamReadData p id unit last err poison data => Sys2Proof.Machine.execStreamReadData p id unit last err poison data s
  | .streamWriteAck p id err => Sys2Proof.Machine.execStreamWriteAck p id err s
  | .streamCreditGrant p wdata k => Sys2Proof.Machine.execStreamCreditGrant p wdata k s
  | .shelfReadData id unit last err poison data => Sys2Proof.Machine.execShelfReadData id unit last err poison data s
  | .shelfWriteAck id err => Sys2Proof.Machine.execShelfWriteAck id err s
  | .linkCreditGrant shelf k => Sys2Proof.Machine.execLinkCreditGrant shelf k s
  | .tagTimeout core tag lt => Sys2Proof.Machine.execTagTimeout core tag lt s
  | .joinMsg m => Sys2Proof.Machine.execJoinMsg m s
  | .joinRetry lt => Sys2Proof.Machine.execJoinRetry lt s
  | .welcomeMsg m => Sys2Proof.Machine.execWelcomeMsg m s
  | .startMsg m => Sys2Proof.Machine.execStartMsg m s
  | .refuseMsg m => Sys2Proof.Machine.execRefuseMsg m s
  | .arriveMsg m => Sys2Proof.Machine.execArriveMsg m s
  | .releaseMsg m => Sys2Proof.Machine.execReleaseMsg m s
  | .contrib m => Sys2Proof.Machine.execContrib m s
  | .resultMsg m => Sys2Proof.Machine.execResultMsg m s
  | .creditMsg m => Sys2Proof.Machine.execCreditMsg m s
  | .nak m => Sys2Proof.Machine.execNak m s
  | .abandon m => Sys2Proof.Machine.execAbandon m s
  | .commitMsg m => Sys2Proof.Machine.execCommitMsg m s
  | .stepCommit => Sys2Proof.Machine.execStepCommit s
  | .repeatMsg m => Sys2Proof.Machine.execRepeatMsg m s
  | .stepRepeat lt => Sys2Proof.Machine.execStepRepeat lt s
  | .repeatAck m => Sys2Proof.Machine.execRepeatAck m s
  | .resumeMsg m => Sys2Proof.Machine.execResumeMsg m s
  | .cascadeHalt m => Sys2Proof.Machine.execCascadeHalt m s
  | .aperWr m => Sys2Proof.Machine.execAperWr m s
  | .aperRd m => Sys2Proof.Machine.execAperRd m s
  | .aperData m => Sys2Proof.Machine.execAperData m s
  | .aperAck m => Sys2Proof.Machine.execAperAck m s
  | .steal c => Sys2Proof.Machine.execSteal c s
  | .clusterPollTimeout c lt => Sys2Proof.Machine.execClusterPollTimeout c lt s
  | .sequenceBalance => Sys2Proof.Machine.execSequenceBalance s
  | .migrationComplete slot => Sys2Proof.Machine.execMigrationComplete slot s
  | .preemption c q n => Sys2Proof.Machine.execPreemption c q n s
  | .itemResume c => Sys2Proof.Machine.execItemResume c s
  | .swap c => Sys2Proof.Machine.execSwap c s
  | .saturationEvent c => Sys2Proof.Machine.execSaturationEvent c s
  | .openSetDrain c => Sys2Proof.Machine.execOpenSetDrain c s
  | .tileCommit q n => Sys2Proof.Machine.execTileCommit q n s
  | .hopPeriodEnd => Sys2Proof.Machine.execHopPeriodEnd s
  | .roundStart => Sys2Proof.Machine.execRoundStart s
  | .seamCarryReady q n seq chunk => Sys2Proof.Machine.execSeamCarryReady q n seq chunk s
  | .memberIssue q n r => Sys2Proof.Machine.execMemberIssue q n r s
  | .memberCommit q n r => Sys2Proof.Machine.execMemberCommit q n r s
  | .pageExhausted q n r => Sys2Proof.Machine.execPageExhausted q n r s
  | .slotWaitEnd q n => Sys2Proof.Machine.execSlotWaitEnd q n s
  | .parkComplete slot => Sys2Proof.Machine.execParkComplete slot s
  | .unparkComplete slot => Sys2Proof.Machine.execUnparkComplete slot s
  | .evictor => Sys2Proof.Machine.execEvictor s
  | .fallCommit d => Sys2Proof.Machine.execFallCommit d s
  | .riseComplete d => Sys2Proof.Machine.execRiseComplete d s
  | .neapStreamDeadline d lt => Sys2Proof.Machine.execNeapStreamDeadline d lt s
  | .deadlineMiss q n lt => Sys2Proof.Machine.execDeadlineMiss q n lt s
  | .completionRecord q n => Sys2Proof.Machine.execCompletionRecord q n s
  | .quiescent => Sys2Proof.Machine.execQuiescent s
  | .timedWake lt => Sys2Proof.Machine.execTimedWake lt s
  | .wakeAtReached lt => Sys2Proof.Machine.execWakeAtReached lt s
  | .setpointChange => Sys2Proof.Machine.execSetpointChange s
  | .vackRise => Sys2Proof.Machine.execVackRise s
  | .vackFall => Sys2Proof.Machine.execVackFall s
  | .vackLate lt => Sys2Proof.Machine.execVackLate lt s
  | .thermalStepdown lt => Sys2Proof.Machine.execThermalStepdown lt s
  | .thermalStepup lt => Sys2Proof.Machine.execThermalStepup lt s
  | .beatRateWindow lt rates => Sys2Proof.Machine.execBeatRateWindow lt rates s
  | .telemetryUpdate lt temps power => Sys2Proof.Machine.execTelemetryUpdate lt temps power s
  | .calibration lt => Sys2Proof.Machine.execCalibration lt s
  | .scrub c lt => Sys2Proof.Machine.execScrub c lt s
  | .evtPulseEnd line lt => Sys2Proof.Machine.execEvtPulseEnd line lt s
  | .wakeReq lt => Sys2Proof.Machine.execWakeReq lt s
  | .haltReq => Sys2Proof.Machine.execHaltReq s
  | .haltReqDeassert => Sys2Proof.Machine.execHaltReqDeassert s
  | .thermTrip => Sys2Proof.Machine.execThermTrip s
  | .thermTripDeassert => Sys2Proof.Machine.execThermTripDeassert s
  | .droopWarn => Sys2Proof.Machine.execDroopWarn s
  | .droopWarnDeassert lt => Sys2Proof.Machine.execDroopWarnDeassert lt s
  | .throttleEnd lt => Sys2Proof.Machine.execThrottleEnd lt s
  | .inputStuck input lt => Sys2Proof.Machine.execInputStuck input lt s
  | .refLoss => Sys2Proof.Machine.execRefLoss s
  | .refResume => Sys2Proof.Machine.execRefResume s
  | .rstNAssert => Sys2Proof.Machine.execRstNAssert s
  | .rstNRelease => Sys2Proof.Machine.execRstNRelease s
  | .bootRead sfdp image lt => Sys2Proof.Machine.execBootRead sfdp image lt s
  | .bootComplete reread test lt => Sys2Proof.Machine.execBootComplete reread test lt s
  | .extest shift => Sys2Proof.Machine.execExtest shift s
  | .sample shift => Sys2Proof.Machine.execSample shift s
  | .idcode => Sys2Proof.Machine.execIdcode s
  | .clamp shift => Sys2Proof.Machine.execClamp shift s
  | .highz shift => Sys2Proof.Machine.execHighz shift s
  | .bypass code => Sys2Proof.Machine.execBypass code s
  | .tapReset => Sys2Proof.Machine.execTapReset s
  | .uartRxFrame b stop lt => Sys2Proof.Machine.execUartRxFrame b stop lt s
  | .monitorLineTimeout lt => Sys2Proof.Machine.execMonitorLineTimeout lt s
  | .nonceExpiry lt => Sys2Proof.Machine.execNonceExpiry lt s
  | .idCmd => Sys2Proof.Machine.execIdCmd s
  | .chal entropy => Sys2Proof.Machine.execChal entropy s
  | .unlk => Sys2Proof.Machine.execUnlk s
  | .lockCmd => Sys2Proof.Machine.execLockCmd s
  | .stCmd => Sys2Proof.Machine.execStCmd s
  | .rdCmd => Sys2Proof.Machine.execRdCmd s
  | .wrCmd => Sys2Proof.Machine.execWrCmd s
  | .mdCmd => Sys2Proof.Machine.execMdCmd s
  | .monitorHalt => Sys2Proof.Machine.execMonitorHalt s
  | .monitorRes => Sys2Proof.Machine.execMonitorRes s
  | .bpCmd => Sys2Proof.Machine.execBpCmd s
  | .cntCmd => Sys2Proof.Machine.execCntCmd s
  | .trOn => Sys2Proof.Machine.execTrOn s
  | .trOff => Sys2Proof.Machine.execTrOff s
  | .trSt => Sys2Proof.Machine.execTrSt s
  | .traceDrop => Sys2Proof.Machine.execTraceDrop s
  | .injT0c => Sys2Proof.Machine.execInjT0c s
  | .injT0u => Sys2Proof.Machine.execInjT0u s
  | .injPpoi => Sys2Proof.Machine.execInjPpoi s
  | .injTdrop => Sys2Proof.Machine.execInjTdrop s
  | .injDln => Sys2Proof.Machine.execInjDln s
  | .injCdrop => Sys2Proof.Machine.execInjCdrop s
  | .injVack => Sys2Proof.Machine.execInjVack s
  | .injClr => Sys2Proof.Machine.execInjClr s
  | .injSt => Sys2Proof.Machine.execInjSt s
  | .stest test lt => Sys2Proof.Machine.execStest test lt s
  | .baud => Sys2Proof.Machine.execBaud s
  | .wakeReqDeassert lt => Sys2Proof.Machine.execWakeReqDeassert lt s
  | .controlPortRead a => Sys2Proof.Machine.execControlPortRead a s
  | .uartTxCharacterEnd => Sys2Proof.Machine.execUartTxCharacterEnd s
  | .powerStateChangeComplete lt => Sys2Proof.Machine.execPowerStateChangeComplete lt s

end Sys2Proof.Machine
end

