-- ==== Sys2Proof/Safety.lean ====
section
/-! DEFINITION. What the claims about the block speak of: when an access reaches its register, when the engine serves commands,
what a command row needs, and what stays true of every state. -/
namespace Sys2Proof.Safety
open Sys2Proof.Machine

/-- An access of address `a` reaches its register at once: RST_N is high, the address answers (15 R491), and nothing holds the
access for a wake (16 R532). -/
abbrev Reaches (s : State) (a : Nat) : Prop :=
  s.life.rstLow = false ∧ (s.life.ready = true ∨ earlyRange a = true) ∧
    ((s.pwr.state = 0 ∧ s.pwr.move = none) ∨ (alwaysOn a = true ∧ s.pwr.heldAcc = []))

/-- The engine is READY, in S0 and not moving between power states. -/
abbrev Awake (s : State) : Prop := s.life.ready = true ∧ s.pwr.state = 0 ∧ s.pwr.move = none

/-- Local time runs: REF_OSC is there and RST_N is high (15 R495, R496). -/
abbrev TimeRuns (s : State) : Prop := s.life.refLost = false ∧ s.life.rstLow = false

/-- `s` with local time moved on to `lt`, when that is later (log 1): what a row that carries its LT does first. -/
def At (s : State) (lt : Dword) : State := advance s lt

/-- `j` is the taken and incomplete command `n` of queue `q`, of opcode `op`. -/
abbrev Taken (s : State) (q : BitVec 6) (n : BitVec 16) (op : Nat) (j : Job) : Prop :=
  s.job q.toNat n.toNat = some j ∧ j.op = op

/-- The command may start, and units may take it: nothing of 13 R406, R428, 12 R382 and 08 R252 holds it and no halt stands. -/
abbrev Startable (s : State) (j : Job) : Prop := mayRun s j = true

/-- The command may start where units take no part: nothing of 13 R406, R428, 12 R382 and 08 R252 holds it. -/
abbrev MayStart (s : State) (j : Job) : Prop := mayStart s j = true

/-- No trace, breakpoint or injection is armed (17 R549-R551). -/
abbrev Quiet (s : State) : Prop := s.mon.trOn = false ∧ s.mon.bp = [] ∧ s.mon.inj = []

/-- Every taken command has its own take number. -/
abbrev TakesDistinct (s : State) : Prop := ∀ a ∈ s.jobs, ∀ b ∈ s.jobs, a.take = b.take → a = b

/-- No stream's transfer waits for a tag: no committed write, no operand read, no move of a page. -/
abbrev NothingWaits (s : State) : Prop := waiters s = []

/-- No fall stands at its commit point unmarked: each still waits for an acknowledgement, has lost a write, or is marked. -/
abbrev FallsMarked (s : State) : Prop := ∀ f ∈ s.pg.falls, f.left ≠ 0 ∨ f.cls = 9 ∨ (getDesc s f.d).commit = true

/-- Every transfer that has a tag has been sent. -/
abbrev AllSent (s : State) : Prop := ∀ p ∈ s.str.tags, p.2.sent = true

/-- The operands that the parts `ps` of a starting command read are at hand: their pages are near and are not lossy, every one is mapped, their
reads have been issued and have landed, and no injection stands on a word of T0. -/
abbrev AtHand (s : State) (j : Job) (x : Ctx) (ps : List Part) : Prop :=
  let pages := (ps.flatMap fun p => runPages (p.elemRuns s x fun _ => true)).eraseDups
  touchParts s j x ps = (true, s) ∧ logUnmapped s j.loc pages = s ∧ lossyPages s pages = [] ∧ j.ask = some [] ∧ j.ahead = false ∧
    fetching s j.q j.n = false ∧ s.t0.inj = []

/-- The engine takes message `m` of type `type` from the link at once: it is awake, the message is in form and fits the receive
credit, and it is of this step and attempt (14 R450, R477; 15 R489). -/
abbrev Receives (s : State) (type : Nat) (m : Msg) : Prop :=
  Awake s ∧ m.type.toNat = type ∧ msgOk m = true ∧ isStale s m = false ∧ msgFlits m ≤ s.str.linkRx

/-- Messages go out at once: none waits, and the cascade channel has credits for any one message (15 R489). -/
abbrev LinkFree (s : State) : Prop := s.cas.waiting = [] ∧ 17 ≤ s.str.linkCas

/-- `s` after sending a message that finds its credits. -/
def SentOne (s : State) (m : Msg) : State :=
  { s with sent := s.sent ++ [m], str := { s.str with linkCas := s.str.linkCas - msgFlits m } }

/-- The always-on controller runs and the test access port holds no input of the engine (15 R496, R513). -/
abbrev PinsReach (s : State) : Prop := s.life.rstLow = false ∧ tapHolds s = false

/-- A monitor request with the given words waits for its row, its gate is open, and no byte waits behind it (17 R544-R546). -/
abbrev Asked (s : State) (seq : Nat) (head : List String) (level : Nat) (args : List (List Byte)) : Prop :=
  s.mon.req = some (seq, head.map txt ++ args) ∧ s.life.rstLow = false ∧ s.mon.fifo = [] ∧ gate s level = none

/-- Every memory of the block is in canonical form (log 3). -/
abbrev MemoryOk (s : State) : Prop :=
  s.t1.bytes.wf = true ∧ s.t0.bytes.wf = true ∧ s.shelf.bytes.wf = true ∧ s.tbl.dqA.wf = true ∧ s.tbl.dqB.wf = true ∧
    s.tbl.sfuA.wf = true ∧ s.tbl.sfuB.wf = true

end Sys2Proof.Safety
end

