-- ==== Sys2Proof/Certificates/Slice0/Obligations.lean ====
section
/-! DEFINITION. The statements of this model for the provers. -/
open Sys2Proof Sys2Proof.Machine Sys2Proof.Safety

/-! ### The machine -/

/-- A step on a waiting command is `exec` of that command with the rest of the queue. -/
def Obligations.StepRunsFrontCommand : Prop :=
  ∀ (c : Instr) (rest : List Instr) (s : State), s.pending = c :: rest → step s = exec c { s with pending := rest }

/-- A step with no waiting command is the model's tick (log 1, DESIGN CHOICE): local time moves by one, or stands while REF_OSC
is lost or RST_N is low (15 R495, R496), and nothing changes but the counts of time. -/
def Obligations.IdleStepPassesTime : Prop :=
  ∀ s : State, s.pending = [] →
    ∃ t, step s = .next t ∧ (¬ TimeRuns s → t = s) ∧
      (TimeRuns s → t.life = { s.life with lt := (s.life.lt + 1) % 2 ^ 64 }) ∧
      t.inp = { s.inp with throttleLt := t.inp.throttleLt } ∧ t.slots = { s.slots with waitLt := t.slots.waitLt } ∧
      t.cas = { s.cas with waitLt := t.cas.waitLt } ∧ t.str = { s.str with seen := t.str.seen, cnt := t.str.cnt } ∧
      t.pwr = { s.pwr with resAcc := t.pwr.resAcc } ∧
      t = { s with life := t.life, inp := t.inp, slots := t.slots, cas := t.cas, str := t.str, pwr := t.pwr }

/-- Every memory stays in canonical form, whatever command runs and in whatever state. Rests on the model's choices of log 3. -/
def Obligations.StepKeepsMemoryCanonical : Prop :=
  ∀ s s' : State, MemoryOk s → step s = .next s' → MemoryOk s'

/-- The invariant of `StepKeepsMemoryCanonical` holds right after reset. Rests on the model's choices of log 3. -/
def Obligations.ResetMemoryCanonical : Prop := MemoryOk State.reset

/-- No command changes a fuse. No command's meaning touches the queue of waiting commands. Rests on the model's choices of log
5. -/
def Obligations.CommandsLeaveFusesAndQueue : Prop :=
  (∀ (c : Instr) (s s' : State), exec c s = .next s' → s'.fuse = s.fuse) ∧
  (∀ (c : Instr) (s s' : State), exec c s = .next s' → s'.pending = s.pending)

/-- Local time never goes back but by RST_N, in states whose local time is a 64-bit number. Rests on the model's choices of log
1. -/
def Obligations.LocalTimeNeverGoesBack : Prop :=
  ∀ (c : Instr) (s s' : State), s.life.lt < 2 ^ 64 → c ≠ .rstNAssert → exec c s = .next s' →
    s.life.lt ≤ s'.life.lt ∧ s'.life.lt < 2 ^ 64

/-! ### Faults, the violation log and events (13 R441; 15 R504; 17 R540, R541) -/

/-- Every fault adds 1 to the count of its class and sets the class's summary bit. One of classes 2 to 7 with the class, code
and core of a record younger than 1,000 LT makes no record and counts as suppressed; any other makes the record at the ring's
next place and pulses `FAULT`, a `DEADLINE` one `DEADLINE` too (17 R540, R541). A violation is written in turn into the 64
entries of the log; nothing but the log, the event lines and the trace changes (13 R441). -/
def Obligations.FaultsAndViolationsAreRecorded : Prop :=
  (∀ (s : State) (cls code core cmd detail aux : Nat) (inj : Bool),
     let t := fault s cls code core inj cmd detail aux
     let like := 2 ≤ cls ∧ cls ≤ 7 ∧ ∃ r ∈ s.flt.recent, r.1 = cls ∧ r.2.1 = code ∧ r.2.2.1 = core ∧ s.life.lt < r.2.2.2 + 1000
     t.flt.count.get cls 0 = add64 (s.flt.count.get cls 0) 1 ∧ t.flt.summary = s.flt.summary ||| 2 ^ cls ∧
       (∀ k, k ≠ cls → t.flt.count.get k 0 = s.flt.count.get k 0) ∧ t.flt.vlog = s.flt.vlog ∧
       t = { s with flt := t.flt, evt := t.evt, t1 := t.t1, mon := t.mon } ∧ (s.mon.trOn = false → t.t1 = s.t1 ∧ t.mon = s.mon) ∧
       (¬ like →
         t.flt.recs.find s.flt.next = some ⟨cls, code, core, inj, cmd, s.life.lt, detail % 2 ^ 32, aux % 2 ^ 32⟩ ∧
           (cls, code, core, s.life.lt) ∈ t.flt.recent ∧
           t.flt.next = (s.flt.next + 1) % 16 ∧ t.flt.suppressed = s.flt.suppressed ∧
           t.evt = if cls = 1 then (pulse (pulse s 0x0C) 0x07).evt else (pulse s 0x0C).evt) ∧
       (like → t.flt.recs = s.flt.recs ∧ t.flt.recent = s.flt.recent ∧ t.flt.next = s.flt.next ∧
         t.flt.suppressed = add64 s.flt.suppressed 1 ∧ t.evt = s.evt)) ∧
  (∀ (s : State) (cmd cause detail aux : Nat),
     let t := viol s cmd cause detail aux
     t.flt.vlog.find s.flt.vnext = some ⟨cmd, cause + (detail % 2 ^ 24) <<< 8, aux % 2 ^ 32, s.life.lt % 2 ^ 32⟩ ∧
       t.flt.vnext = (s.flt.vnext + 1) % 64 ∧ (∀ i, i ≠ s.flt.vnext → t.flt.vlog.find i = s.flt.vlog.find i) ∧
       t.flt.recs = s.flt.recs ∧ t.flt.summary = s.flt.summary ∧ t.flt.count = s.flt.count ∧
       t = { s with flt := t.flt, evt := t.evt, t1 := t.t1, mon := t.mon } ∧ (s.mon.trOn = false → t.t1 = s.t1 ∧ t.mon = s.mon))

/-- A pulse asserts, for 10 LT, just the lines routed to its source in pulse or level mode (15 R504). EVT_PULSE_END: a line
whose 10 LT are over, by the row's LT, stands deasserted in pulse mode (15 R504). Rests on the model's choices of log 28. -/
def Obligations.PulsesLastTenLt : Prop :=
  (∀ (s : State) (src n : Nat), n < 8 → src ≠ 0 →
     let w := s.evt.route.get n 0
     (pulse s src).evt.pulse.get n 0 =
       if fld w 0 6 = src ∧ (fld w 6 2 = 1 ∨ fld w 6 2 = 2) then s.life.lt + 10 else s.evt.pulse.get n 0) ∧
  (∀ (s : State) (line : BitVec 3) (lt : Dword), s.evt.pulse.get line.toNat 0 ≤ (At s lt).life.lt →
     ∃ t, exec (.evtPulseEnd line lt) s = .next t ∧ t.evt.pulse.find line.toNat = none ∧ t.evt.route = s.evt.route ∧
       (fld (s.evt.route.get line.toNat 0) 6 2 ≠ 2 → lineOn t line.toNat = false) ∧
       (∀ n, n ≠ line.toNat → t.evt.pulse.find n = s.evt.pulse.find n) ∧
       t = { At s lt with evt := t.evt })

/-! ### The control port (00 R16-R18; 15 R490, R491; 16 R532; 18 R552-R566) -/

/-- ENG_FLAGS, FAULT_CLEAR and VLOG_CLEAR: each clears what it names and nothing else (03 R103; 17 R542; 13 R441). HALT_REL ends
a halt, and an input still asserted is then ignored; WAKE_REARM, THERM_REARM and DROOP_CLR re-arm their inputs (15 R500-R503).
RECOVER enters recovery and SERVICE leaves it while every queue is idle; a write made otherwise after READY, or one that sets
both bits, is logged with the register's address and changes nothing else (16 R521; 18 R556). The counter clear sets every
counter that 18 R562 covers to 0 and no other; the freeze changes only whether counters count. Rests on the model's choices of
log 28. -/
def Obligations.ControlWritesClearAndRelease : Prop :=
  ((∀ (v : Word) (s : State), Reaches s 0x10 →
     exec (.engFlags v) s = .next { s with flg := {
       eng := s.flg.eng &&& ~~~(v.setWidth 5)
       iv := if v.getLsbD 0 then {} else s.flg.iv
       of := if v.getLsbD 2 then {} else s.flg.of } }) ∧
   (∀ (v : Word) (s : State), Reaches s 0x1048 →
     exec (.faultClear v) s = .next (if v.getLsbD 0 then
       { s with flt := { s.flt with recs := [], next := 0, wrapped := false, lost := 0 } } else s)) ∧
   (∀ (v : Word) (s : State), Reaches s 0x13F4 →
     exec (.vlogClear v) s = .next (if v.getLsbD 0 then
       { s with flt := { s.flt with vlog := [], vnext := 0, vwrapped := false, vlost := 0 } } else s))) ∧
  ((∀ s : State, Reaches s 0x3004 → s.inp.halted = true →
     exec .haltRel s = .next { s with
       inp := { s.inp with
         halted := false
         masked := if s.inp.level.getLsbD 0 then s.inp.masked ||| 1 else s.inp.masked }
       jobs := s.jobs.map fun j => if j.phase = .held then { j with phase := .waiting } else j }) ∧
   (∀ s : State, Reaches s 0x3004 →
     exec .wakeRearm s = .next { s with inp := { s.inp with masked := s.inp.masked &&& 13, stuck := s.inp.stuck &&& 13 } } ∧
     (NothingWaits s →
       exec .thermRearm s = .next { s with inp := { s.inp with thermHalt := s.inp.thermHalt && s.inp.level.getLsbD 2 } }) ∧
     (s.inp.thermHalt = true → s.inp.level.getLsbD 2 = false →
       exec .thermRearm s = .next (pumpWrites { s with inp := { s.inp with thermHalt := false } })) ∧
     exec .droopClr s = .next { s with inp := { s.inp with stuck := s.inp.stuck &&& 7 } })) ∧
  (∀ s : State, Reaches s 0x14 → s.life.ready = true →
     (s.jobs = [] → s.life.recovery = false →
       exec .recover s = .next { s with life := { s.life with recovery := true, maint := true } }) ∧
     (s.jobs = [] → s.life.recovery = true →
       ∃ t, exec .service s = .next t ∧ t.life = { s.life with recovery := false, maint := false } ∧ t.jobs = s.jobs ∧
         t.slots = s.slots ∧ t.flt = s.flt ∧ t.t0 = s.t0 ∧ (s.pg.init = false → t.t1 = s.t1 ∧ t.pg = s.pg ∧ t.tier = s.tier)) ∧
     (s.jobs ≠ [] → exec .recover s = .next (viol s 0 0x07 0x14 0) ∧ exec .service s = .next (viol s 0 0x07 0x14 0)) ∧
     (∀ v : Word, v.getLsbD 0 = true → v.getLsbD 1 = true → exec (.regWrite 0x14 v) s = .next (viol s 0 0x07 0x14 0))) ∧
  (∀ s : State, Reaches s 0x18000 → s.life.ready = true →
     (∃ t, exec (.clearCounters true) s = .next t ∧ (∀ k, t.str.cnt.get k 0 = 0) ∧ t.str.seen = 0 ∧ t.str.wasteTotal = 0 ∧
       t.str.poisonTotal = 0 ∧ t.slots.waitLt = 0 ∧ (∀ c, (t.core c).bubble = 0) ∧ t.str.freeze = s.str.freeze ∧
       t.str.timeouts = s.str.timeouts ∧ t.str.tags = s.str.tags ∧ t.flt = s.flt ∧ t.inp = s.inp ∧ t.pwr = s.pwr ∧
       t.cas = s.cas ∧ t.tier = s.tier ∧ t.t1 = s.t1) ∧
     (∀ on, exec (.freezeCounters on) s = .next { s with str := { s.str with freeze := on } }))

/-- SLOT_FIND looks its SID up once; SLOT_SEL selects a slot and discards the capture; a read of SLOT_WIN0 captures the whole
record of the selected slot and answers its first word (18 R558, R559). TBL_DATA: a read answers the word at TBL_ADDR of the
selected bank; a write reaches the shadow bank when its conditions hold and is refused and logged otherwise; each adds 4 to
TBL_ADDR modulo 2^16 (18 R560). CW_DATA: a read answers the word at CW_ADDR, an uncorrectable one as 0 with UE set and a T0_UE
fault; a write of a stopped core's word is stored and cures its 64-bit word, and is refused and logged while the core runs; each
adds 4 to CW_ADDR modulo 2^20 (18 R564, R565). Rests on the model's choices of log 17. -/
def Obligations.WindowsReadAndWrite : Prop :=
  ((∀ (v : Word) (s : State), Reaches s 0x8014 → s.life.ready = true →
     exec (.slotFind v) s = .next { s with slots := { s.slots with
       find := match slotOf s (v.toNat % 2 ^ 20) with
         | some (i, _) => 2 ^ 31 + i
         | none => 0 } }) ∧
   (∀ (v : Word) (s : State), Reaches s 0x8010 → s.life.ready = true →
     exec (.slotSel v) s = .next { s with slots := { s.slots with sel := v.toNat % 2 ^ 12, win := none } }) ∧
   (∀ s : State, Reaches s 0x8040 → s.life.ready = true →
     ∃ t w, exec .slotWin0Read s = .next t ∧ t.slots = { s.slots with win := some (s.slots.recs.get s.slots.sel {}) } ∧
       t.ctl.answers = s.ctl.answers ++ [BitVec.ofNat 32 w] ∧ w = winWord t 0 ∧ t = { s with slots := t.slots, ctl := t.ctl })) ∧
  ((∀ s : State, Reaches s 0xB00C → s.life.ready = true →
     exec .tblDataRead s = .next { s with
       tbl := { s.tbl with addr := (s.tbl.addr + 4) % 2 ^ 16 }
       ctl := { s.ctl with answers := s.ctl.answers ++ [BitVec.ofNat 32 (tblWord s)] } }) ∧
   (∀ (v : Word) (s : State), Reaches s 0xB00C → s.life.ready = true →
     let sfu := tblDomain s
     let ok := tblBank s ≠ activeB s.tbl sfu ∧ reloading s sfu = false ∧ bankWritable sfu s.tbl.addr = true ∧ s.tbl.addr < bankSize sfu
     (ok → ∃ t, exec (.tblDataWrite v) s = .next t ∧ t.tbl.addr = (s.tbl.addr + 4) % 2 ^ 16 ∧
       bankOf t.tbl sfu (tblBank s) = (bankOf s.tbl sfu (tblBank s)).write s.tbl.addr (leBytes 4 v.toNat) ∧
       bankOf t.tbl sfu (!tblBank s) = bankOf s.tbl sfu (!tblBank s) ∧ bankOf t.tbl (!sfu) false = bankOf s.tbl (!sfu) false ∧
       bankOf t.tbl (!sfu) true = bankOf s.tbl (!sfu) true ∧ t = { s with tbl := t.tbl }) ∧
     (¬ ok → ∃ t, exec (.tblDataWrite v) s = .next t ∧
       t.tbl = { s.tbl with addr := (s.tbl.addr + 4) % 2 ^ 16 } ∧ t.flt = (viol s 0 0x05 s.tbl.addr 0).flt))) ∧
  ((∀ (c : BitVec 8) (s : State), Reaches s (0x10000C + 4096 * c.toNat) → s.life.ready = true →
     let a := cwAddr s c.toNat
     (s.t0.ue.contains (a / 8) = false →
       ∃ t, exec (.cwDataRead c) s = .next t ∧ t.ctl.answers = s.ctl.answers ++ [BitVec.ofNat 32 (s.t0.bytes.num a 4)] ∧
         (t.core c.toNat).ue = false ∧ (t.core c.toNat).addr = ((s.core c.toNat).addr + 4) % 2 ^ 20 ∧ t.t0 = s.t0 ∧ t.flt = s.flt ∧
         t.t1 = s.t1) ∧
     (s.t0.ue.contains (a / 8) = true →
       ∃ t, exec (.cwDataRead c) s = .next t ∧ t.ctl.answers = s.ctl.answers ++ [0] ∧ (t.core c.toNat).ue = true ∧
         (t.core c.toNat).addr = ((s.core c.toNat).addr + 4) % 2 ^ 20 ∧
         t.flt.count.get 3 0 = add64 (s.flt.count.get 3 0) 1 ∧ t.t0.bytes = s.t0.bytes)) ∧
   (∀ (c : BitVec 8) (v : Word) (s : State), Reaches s (0x10000C + 4096 * c.toNat) → s.life.ready = true →
     let a := cwAddr s c.toNat
     (cwStopped s c.toNat = true → s.t0.ue.contains (a / 8) = false →
       ∃ t, exec (.cwDataWrite c v) s = .next t ∧ t.t0.bytes = s.t0.bytes.write a (leBytes 4 v.toNat) ∧
         t.t0.corrected (a / 8) = false ∧ (t.core c.toNat).addr = ((s.core c.toNat).addr + 4) % 2 ^ 20 ∧
         t = { s with t0 := t.t0, cores := t.cores }) ∧
     (cwStopped s c.toNat = false →
       ∃ t, exec (.cwDataWrite c v) s = .next t ∧ t.t0 = s.t0 ∧
         t.flt = (viol s 0 0x07 (0x10000C + 4096 * c.toNat) 0).flt ∧
         (t.core c.toNat).addr = ((s.core c.toNat).addr + 4) % 2 ^ 20)))

/-- A low-word write is staged and acts on nothing; a low-word read answers and captures, and the high-word read after it answers
the captured value's high word (00 R16). A high-word write sets the whole 64-bit register at once, from the staged low word or,
when none is staged, from the register's own, and no other 64-bit register: for every register that is written so, under the
condition of its lock (00 R16; 13 R398; 14 R442; 16 R539; 18 R554); `SEQ_DIR_BASE` keeps its low 26 bits zero. A read-only one
stays as it is. What stands staged when none was written is the model's choice (log 28). -/
def Obligations.Wide64RegistersStageAndCapture : Prop :=
  ((∀ (a : BitVec 24) (v : Word) (s : State), Reaches s a.toNat → a.toNat % 4 = 0 → isLow s a.toNat = true →
     exec (.reg64LowWrite a v) s = .next { s with ctl := { s.ctl with staged := s.ctl.staged.put a.toNat v.toNat } }) ∧
   (∀ (a : BitVec 24) (s : State) (v : Nat), Reaches s a.toNat → a.toNat % 4 = 0 → reg64 s a.toNat = some v →
     ∃ t, exec (.reg64LowRead a) s = .next t ∧ t.ctl.answers = s.ctl.answers ++ [BitVec.ofNat 32 v] ∧
       t.ctl.captured.find a.toNat = some v ∧ t = { s with ctl := t.ctl }) ∧
   (∀ (a : Nat) (s : State) (v w : Nat), Reaches s (a + 4) → a % 4 = 0 → a + 4 < 2 ^ 24 → reg64 s a = some w →
     s.ctl.captured.find a = some v →
     exec (.controlPortRead (BitVec.ofNat 24 (a + 4))) s = .next { s with ctl := { s.ctl with
       answers := s.ctl.answers ++ [BitVec.ofNat 32 (v / 2 ^ 32)]
       captured := s.ctl.captured.del a } })) ∧
  (∀ (a : Nat) (v : Word) (s : State) (old : Nat), Reaches s (a + 4) → s.life.ready = true → a + 4 < 2 ^ 24 → reg64 s a = some old →
    let new := (s.ctl.staged.find a).getD (old % 2 ^ 32) + v.toNat * 2 ^ 32
    let write := Instr.reg64HighWrite (BitVec.ofNat 24 (a + 4)) v
    (a ∈ [0x2010, 0x2018, 0x9430, 0x9438] ∨ (∃ q, q < 64 ∧ a = 0x2100 + 8 * q) ∨ (a = 0x2020 ∧ s.pwr.state ≠ 4) ∨
        (a ∈ [0x8100, 0x8110, 0x8130, 0x9408, 0x9418, 0x9420] ∧ s.slots.sids = []) ∨
        (a ∈ [0xA020, 0xA028, 0xA030, 0xA038, 0xA080, 0xA088] ∧ s.cas.enable = false) ∨
        (∃ k, k < 64 ∧ k % 4 ≠ 3 ∧ a = 0xA100 + 8 * k ∧ s.cas.enable = false) ∨
        (∃ q, q < 64 ∧ a ∈ [0x4000 + 256 * q, 0x4008 + 256 * q, 0x4010 + 256 * q] ∧ (s.queue q).enable = false) →
      ∃ t, exec write s = .next t ∧ reg64 t a = some new ∧ (∀ b, b ≠ a → reg64 t b = reg64 s b) ∧
        t.ctl = { s.ctl with staged := s.ctl.staged.del a } ∧
        t = { s with ctl := t.ctl, pwr := t.pwr, qs := t.qs, slots := t.slots, pg := t.pg, tier := t.tier, cas := t.cas }) ∧
    (a = 0x8000 → s.slots.sids = [] →
      ∃ t, exec write s = .next t ∧ t.slots = { s.slots with dirBase := new - new % 2 ^ 26 } ∧
        t = { s with ctl := t.ctl, slots := t.slots, pg := t.pg }) ∧
    (a ∈ [0x08, 0x18, 0x1050, 0x2038, 0x2040, 0x2048, 0x2050, 0x2058, 0x2060, 0x3010, 0x9010, 0x9018, 0x9020, 0x9458, 0x9460,
        0x9468, 0xA060, 0xA068, 0xA070, 0xA078, 0xC018, 0xC0E0, 0x18008, 0x18010, 0x18018, 0x18020, 0x18028] →
      exec write s = .next { s with ctl := { s.ctl with staged := s.ctl.staged.del a } }))

/-- REG_WRITE: plain registers take the bits of their fields and nothing else changes; a read-only or unassigned address ignores
the write; a misaligned one is ignored and logged as a partner violation (00 R17, R18; 15 R490; 16 R526, R536; 12 R379; 10; 15
R504). A write of a locked register changes no register and is logged with the register's address: the queue bases while the
queue is enabled, the page registers while a sequence is admitted, the locked cascade registers while the group is enabled (18
R554). -/
def Obligations.RegisterWritesTakeTheirFields : Prop :=
  (∀ (v : Word) (s : State), s.life.rstLow = false → Awake s →
     exec (.regWrite 0x200C v) s = .next { s with pwr := { s.pwr with tempHi := v.toNat % 256, tempLo := v.toNat / 256 % 256 } } ∧
     exec (.regWrite 0x2030 v) s = .next { s with pwr := { s.pwr with scrubRate := v.toNat % 2 ^ 16 } } ∧
     exec (.regWrite 0x9004 v) s = .next { s with str := { s.str with timeout := v.toNat } } ∧
     exec (.regWrite 0x944C v) s = .next { s with tier := { s.tier with freeLow := v.toNat % 2 ^ 24 } } ∧
     exec (.regWrite 0xA018 v) s = .next { s with cas := { s.cas with repeatMax := v.toNat % 256 } } ∧
     exec (.regWrite 0xB008 v) s = .next { s with tbl := { s.tbl with addr := 4 * (v.toNat / 4 % 2 ^ 14) } } ∧
     (∀ q : BitVec 6, exec (.regWrite (BitVec.ofNat 24 (0x4028 + 256 * q.toNat)) v) s =
       .next (s.setQueue q.toNat { s.queue q.toNat with cplHead := v.toNat % 2 ^ 16 })) ∧
     (∀ n : BitVec 3, exec (.regWrite (BitVec.ofNat 24 (0x3040 + 4 * n.toNat)) v) s =
       .next { s with evt := { s.evt with route := s.evt.route.put n.toNat (v.toNat % 2 ^ 9) } }) ∧
     exec (.regWrite 0x0004 v) s = .next s ∧ exec (.regWrite 0x20000 v) s = .next s ∧
     (∀ a : BitVec 24, a.toNat % 4 ≠ 0 → exec (.regWrite a v) s = .next (portViol s 6 0x07 a.toNat))) ∧
  (∀ (v : Word) (s : State), s.life.rstLow = false → Awake s →
     (∀ q : BitVec 6, (s.queue q.toNat).enable = true →
       ∃ t, exec (.reg64HighWrite (BitVec.ofNat 24 (0x4004 + 256 * q.toNat)) v) s = .next t ∧ t.qs = s.qs ∧
         t.flt.vlog.find s.flt.vnext = some ⟨0, 0x07 + ((0x4000 + 256 * q.toNat) % 2 ^ 24) <<< 8, 0, s.life.lt % 2 ^ 32⟩) ∧
     (s.slots.sids ≠ [] → exec (.regWrite 0x8108 v) s = .next (viol s 0 0x07 0x8108 0) ∧
       exec (.regWrite 0x9410 v) s = .next (viol s 0 0x07 0x9410 0)) ∧
     (s.cas.enable = true → exec (.regWrite 0xA010 v) s = .next (viol s 0 0x07 0xA010 0)))

/-- From the release of RST_N until READY only two ranges answer, as they do after READY; at any other address a read answers 0
and a write does nothing, without a log entry (15 R491). -/
def Obligations.OnlyTwoRangesAnswerBeforeReady : Prop :=
  ∀ (a : BitVec 24) (v : Word) (s : State), s.life.rstLow = false → s.life.ready = false →
    let early := a.toNat < 0x1000 ∨ (0xC000 ≤ a.toNat ∧ a.toNat < 0xD000)
    (early →
      exec (.regWrite a v) s = .next (ctrlWrite s a.toNat v.toNat) ∧
      (∃ t, exec (.controlPortRead a) s = .next t ∧
        t.ctl.answers = (ctrlRead s a.toNat).2.ctl.answers ++ [BitVec.ofNat 32 (ctrlRead s a.toNat).1] ∧
        t = { (ctrlRead s a.toNat).2 with ctl := t.ctl }) ∧
      (a.toNat % 4 = 0 → isLow s a.toNat = false → isHigh s a.toNat = false →
        exec (.controlPortRead a) s = .next { s with ctl := { s.ctl with answers := s.ctl.answers ++ [BitVec.ofNat 32 (reg32 s a.toNat)] } })) ∧
    (¬ early →
      exec (.regWrite a v) s = .next s ∧
      exec (.controlPortRead a) s = .next { s with ctl := { s.ctl with answers := s.ctl.answers ++ [0] } })

/-- CONTROL_PORT_READ: a 32-bit register answers its value and nothing changes but the answers; a misaligned address answers 0
and is logged (15 R490; 00 R17, R18). An access outside the always-on ranges wakes an engine that is not in S0 and waits for the
wake behind the accesses held before it (16 R531, R532). Rests on the model's choices of log 28. -/
def Obligations.AccessesAnswerWaitOrWake : Prop :=
  ((∀ (a : BitVec 24) (s : State), Reaches s a.toNat → s.life.ready = true → a.toNat % 4 = 0 → isLow s a.toNat = false →
     isHigh s a.toNat = false → a.toNat ≠ 0x8040 → a.toNat ≠ 0xB00C → ¬ (0x100000 ≤ a.toNat ∧ a.toNat % 4096 = 0xC) →
     exec (.controlPortRead a) s = .next { s with ctl := { s.ctl with answers := s.ctl.answers ++ [BitVec.ofNat 32 (reg32 s a.toNat)] } }) ∧
   (∀ (a : BitVec 24) (s : State), Reaches s a.toNat → s.life.ready = true → a.toNat % 4 ≠ 0 →
     ∃ t, exec (.controlPortRead a) s = .next t ∧ t.ctl.answers = s.ctl.answers ++ [0] ∧
       t = { portViol s 6 0x07 a.toNat with ctl := t.ctl })) ∧
  (∀ (a : BitVec 24) (s : State), s.life.rstLow = false → s.life.ready = true → s.pwr.state = 2 → s.pwr.move = none →
     0x8000 ≤ a.toNat → ¬ (0xC000 ≤ a.toNat ∧ a.toNat < 0xD000) →
     exec (.controlPortRead a) s = .next { s with pwr := { s.pwr with
       heldAcc := s.pwr.heldAcc ++ [(false, a.toNat, 0)]
       stayAwake := true
       move := some ⟨true, 0, s.life.lt + 200⟩ } })

/-- Nothing that a control-port read, a monitor command that answers with data, or a test access port instruction gives out
depends on the `DEBUG_KEY` fuse word, but whether it is programmed (18 R561). Rests on the model's choices of log 31. -/
def Obligations.DebugKeyIsNotReadable : Prop :=
  ∀ (s t t' : State) (k : Nat), (s.fuse.key = 0 ↔ k = 0) →
    let s' : State := { s with fuse := { s.fuse with key := k } }
    (∀ a, exec (.controlPortRead a) s = .next t → exec (.controlPortRead a) s' = .next t' → t'.ctl.answers = t.ctl.answers) ∧
    (∀ c e, c ∈ [Instr.idCmd, .chal e, .lockCmd, .stCmd, .rdCmd, .mdCmd, .cntCmd, .trSt, .injSt] →
      exec c s = .next t → exec c s' = .next t' → t'.mon = t.mon) ∧
    (∀ c v code, c ∈ [Instr.extest v, .sample v, .idcode, .clamp v, .highz v, .bypass code, .tapReset] →
      exec c s = .next t → exec c s' = .next t' → t'.tap = t.tap ∧ outputPins t' = outputPins t)

/-! ### Queues of commands (13 R397-R406, R422-R440) -/

/-- Q_DOORBELL: a tail in range publishes the slots up to it, any other value is ignored and logged (13 R399). Q_CANCEL on a
queue with no taken command: the published commands through the given sequence number, and only those, will complete as
cancelled (13 R438). -/
def Obligations.DoorbellsPublishAndCancelsCover : Prop :=
  (∀ (q : BitVec 6) (v : Word) (s : State), s.life.rstLow = false → Awake s →
     let k := s.queue q.toNat
     let t := v.toNat % 2 ^ 16
     let ok := (t + 65536 - k.head) % 65536 ≤ 2 ^ k.log2 ∧ (t + 65536 - k.tail) % 65536 ≤ 2 ^ k.log2
     (ok → exec (.qDoorbell q v) s = .next (s.setQueue q.toNat { k with tail := t, startAt := 0 })) ∧
     (¬ ok → exec (.qDoorbell q v) s = .next (viol s 0 0x02 q.toNat v.toNat))) ∧
  (∀ (q : BitVec 6) (v : Word) (s : State), s.life.rstLow = false → Awake s → (∀ j ∈ s.jobs, j.q ≠ q.toNat) →
     let k := s.queue q.toNat
     let d := (v.toNat % 2 ^ 16 + 65536 - k.seq) % 65536
     let n := if d < 32768 then min ((k.tail + 65536 - k.head) % 65536) (d + 1) else 0
     exec (.qCancel q v) s = .next (s.setQueue q.toNat { k with cancelLeft := max k.cancelLeft n }))

/-- COMMAND_TAKE: the next published command is copied whole and becomes a waiting job; a command with a bad field is MALFORMED
with one log entry, and one covered by a cancel is CANCELLED (13 R401, R402, R438, R440). DEPENDENCY_RELEASE: of the dependency
mask those bits stay whose commands, taken since the queue was enabled, have not completed (13 R406). Both then let the stream unit
fetch ahead, which does nothing while `AHEAD_CMDS` is 0 (12 R381). Rests on the model's choices of logs 5 and 6. -/
def Obligations.CommandsAreTakenAndReleased : Prop :=
  (∀ (q : BitVec 6) (s : State), Awake s → Quiet s →
     let k := s.queue q.toNat
     let unread := (k.cplTail + 65536 - k.cplHead) % 65536
     let flight := (s.jobs.filter fun j => j.q == q.toNat).length
     k.enable = true → k.head ≠ k.tail → flight < 64 → flight + unread < 2 ^ k.log2 → bit s.cas.qmask q.toNat = false →
     k.rollLeft = 0 →
     let c := (s.t1.fetch (k.ring + 64 * (k.head % 2 ^ k.log2)) 64).1
     let j : Job :=
       { q := q.toNat, n := k.seq, take := s.takeNo, cmd := c, prio := k.prio, noDl := k.noDl, abort := k.abort,
         deps := ofLe ((c.drop 4).take 2), phase := .waiting, attempt := s.cas.attempt }
     let qs := s.qs.put q.toNat
       { k with
         head := (k.head + 1) % 65536
         seq := (k.seq + 1) % 65536
         cancelLeft := k.cancelLeft - 1 }
     (takeBad s q.toNat k.seq c = none → k.cancelLeft = 0 →
       exec (.commandTake q) s = .next (fetchAhead { s with
         qs := qs
         takeNo := s.takeNo + 1
         jobs := s.jobs ++ [{ j with deps := depsLeft s j, fences := fencesOf s j }] } q.toNat)) ∧
     (takeBad s q.toNat k.seq c = none → k.cancelLeft ≠ 0 →
       ∃ t x, exec (.commandTake q) s = .next (fetchAhead t q.toNat) ∧ x ∈ t.jobs ∧ x.take = s.takeNo ∧ x.q = q.toNat ∧ x.n = k.seq ∧ x.status = 3 ∧
         x.phase = .done ∧ t = { s with qs := qs, takeNo := s.takeNo + 1, jobs := t.jobs }) ∧
     (∀ o, takeBad s q.toNat k.seq c = some o →
       ∃ t x, exec (.commandTake q) s = .next (fetchAhead t q.toNat) ∧ x ∈ t.jobs ∧ x.take = s.takeNo ∧ x.q = q.toNat ∧ x.n = k.seq ∧ x.status = 4 ∧
         x.phase = .done ∧ x.fl = 0 ∧ x.idx = none ∧ t.flt = (viol s j.loc 1 o 0).flt ∧
         t = { s with qs := qs, takeNo := s.takeNo + 1, jobs := t.jobs, flt := t.flt, evt := t.evt })) ∧
  (∀ (q : BitVec 6) (n : BitVec 16) (s : State) (j : Job), s.job q.toNat n.toNat = some j →
     exec (.dependencyRelease q n) s = .next (fetchAhead (s.setJob { j with deps := depsLeft s j }) q.toNat) ∧
     (∀ i, i < 16 → (bit (depsLeft s j) i = true ↔ bit j.deps i = true ∧
       ∃ k ∈ s.jobs, k.q = j.q ∧ k.n = (j.n + 65536 - (i + 1)) % 65536 ∧ k.take < j.take ∧ (s.queue j.q).since ≤ k.take))) ∧
  (∀ (q : Nat) (s : State), s.str.ahead = 0 → fetchAhead s q = s)

/-- NOP, FENCE, SIGNAL and WAIT complete in full with committed index 0 once their conditions hold; SIGNAL adds to its
semaphore, and a WAIT whose condition does not hold stands (12 R382, R383; 13 R404, R425-R428). BARRIER and BARRIER_ARRIVAL: an
arrival waits for the earlier commands of its queue, is counted in its generation, is MALFORMED when its count is not the
generation's, and with the last one every arrival of a local barrier completes (13 R429). Rests on the model's choices of log 5.
-/
def Obligations.OrderingCommandsComplete : Prop :=
  (∀ (q : BitVec 6) (n : BitVec 16) (s : State) (j : Job), MayStart s j →
     (∀ k ∈ s.jobs, k.op = 0x33 → k.phase ≠ .running) →
     let done : Job := { j.end with idx := some 0 }
     (Taken s q n 0x3F j → exec (.nop q n) s = .next (s.setJob done)) ∧
     (Taken s q n 0x30 j → fld (j.body 0) 0 2 ≠ 3 →
       exec (.fence q n) s = .next (if fenceClear s j then s.setJob done else s)) ∧
     (Taken s q n 0x32 j → s.earlier j = false → j.body 0x10 = 0 →
       let i := fld (j.body 0) 0 6
       exec (.signal q n) s = .next { s.setJob done with sync := { s.sync with
         sem := s.sync.sem.put i ((s.sync.sem.get i 0 + fld (j.body 8) 0 32) % 2 ^ 32) } }) ∧
     (Taken s q n 0x32 j → s.earlier j = true → exec (.signal q n) s = .next s) ∧
     (Taken s q n 0x33 j →
       exec (.waitCmd q n) s = .next (s.setJob (if (s.sync.sem.get (fld (j.body 0) 0 6) 0 + 2 ^ 32 - fld (j.body 8) 0 32) % 2 ^ 32 < 2 ^ 31
         then done else { j with phase := .running })))) ∧
  (∀ (q : BitVec 6) (n : BitVec 16) (s s0 : State) (j : Job) (c : Instr), Taken s q n 0x31 j →
     ((c = .barrier q n ∧ MayStart s j ∧ s0 = s.setJob { j with phase := .running }) ∨
       (c = .barrierArrival q n ∧ j.phase = .running ∧ s0 = s)) →
     let b := fld (j.body 0) 0 6
     let m := fld (j.body 0) 8 6 + 1
     let k := s.sync.bars.get b {}
     (s.earlier j = true → exec c s = .next s0) ∧
     (s.earlier j = false → k.arrivals.contains (j.q, j.n) = false → k.sent = false →
       (k.count = 0 ∨ k.count = m → k.arrivals.length + 1 < m →
         exec c s = .next { s0 with sync := { s.sync with bars := s.sync.bars.put b { k with
           count := m
           cascade := if k.count = 0 then bit (j.body 0) 16 else k.cascade
           arrivals := k.arrivals ++ [(j.q, j.n)] } } }) ∧
       (k.count ≠ 0 → k.count ≠ m → exec c s = .next (malform s0 { j with phase := .running } 1 0x11 0)) ∧
       (k.count = 0 ∨ k.count = m → m ≤ k.arrivals.length + 1 → (if k.count = 0 then bit (j.body 0) 16 else k.cascade) = false →
         TakesDistinct s →
         ∃ t, exec c s = .next t ∧ (t.sync.bars.get b {}).count = 0 ∧ (t.sync.bars.get b {}).arrivals = [] ∧
           (∀ a ∈ k.arrivals ++ [(j.q, j.n)], ∀ x, t.job a.1 a.2 = some x → x.phase = .done) ∧
           t = { s with jobs := t.jobs, sync := t.sync })))

/-- TABLE and TABLE_RELOAD_START: with well-formed items, all of them writable, and a function bank that passes its check, the
shadow bank takes the active bank's image with the items written, and the switch is pending; behind an earlier switch of its
domain the command waits (08 R250, R253; 13 R421). EPOCH_SWITCH: once every earlier user of the domain has ended, the epoch
count of the domain rises, the pending bit falls and the TABLE is complete; until then nothing happens (08 R250, R252, R255).
Rests on the model's choices of log 17. -/
def Obligations.TablesReloadAndSwitch : Prop :=
  (∀ (q : BitVec 6) (n : BitVec 16) (s : State) (j : Job) (c : Instr), Taken s q n 0x3C j → j.stage = 0 → j.stepCmd = false →
     j.fetched = [] → ((c = .tableCmd q n ∧ MayStart s j) ∨ (c = .tableReloadStart q n ∧ Awake s ∧ j.phase = .running)) →
     let sfu := bit (j.body 0) 0
     let act := activeB s.tbl sfu
     let items := tblItems s j
     let m := items.foldl (fun (m : Memory) i => m.write i.off (s.t1.fetch i.src i.len).1) (bankOf s.tbl sfu (if items = [] then !act else act))
     (∀ i ∈ items, i.formed = true ∧ bit i.src 47 = false ∧ i.outside sfu = none) →
     (earlierReload s j = false → (sfu = true → bankBad m = none) →
       exec c s = .next { s.setJob { j with phase := .running, stage := 2 } with
         tbl := putPend (putBank s.tbl sfu (!act) m) sfu true }) ∧
     (earlierReload s j = true →
       exec c s = .next (if j.phase = .running then s else s.setJob { j with phase := .running }))) ∧
  (∀ (sfu : Bool) (s : State) (j : Job), s.jobs.find? (fun k => k.reloads sfu && k.stage == 2) = some j →
     (usersDone s j = true →
       exec (.epochSwitch sfu) s = .next { s.setJob { j.end with stage := 3, idx := some 0 } with
         tbl := if sfu then { s.tbl with sfuPend := false, sfuEpoch := (s.tbl.sfuEpoch + 1) % 256 }
           else { s.tbl with dqPend := false, dqEpoch := (s.tbl.dqEpoch + 1) % 256 } }) ∧
     (usersDone s j = false → exec (.epochSwitch sfu) s = .next s))

/-! ### Stream ports and the link (12 R377-R379; 15 R483-R489, R514) -/

/-- Credit grants add up to the limit of their kind; the excess is ignored and logged (15 R484, R489). Rests on the model's
choices of log 6. -/
def Obligations.CreditsStopAtTheirLimits : Prop :=
  ∀ (s : State) (k : BitVec 8), s.life.rstLow = false → AllSent s → s.cas.waiting = [] →
    (∀ (p : BitVec 2) (wdata : Bool),
      let old := if wdata then s.str.portData.get p.toNat 0 else s.str.portReq.get p.toNat 0
      let top := if wdata then 16384 else 4096
      let t : State := { s with str := if wdata
        then { s.str with portData := s.str.portData.put p.toNat (min (old + k.toNat) top) }
        else { s.str with portReq := s.str.portReq.put p.toNat (min (old + k.toNat) top) } }
      exec (.streamCreditGrant p wdata k) s =
        .next (if old + k.toNat ≤ top then t else portViol t p.toNat 0x05 (old + k.toNat - top))) ∧
    (∀ shelf : Bool,
      let old := if shelf then s.str.linkShelf else s.str.linkCas
      let t : State := { s with str := if shelf then { s.str with linkShelf := min (old + k.toNat) 8192 }
        else { s.str with linkCas := min (old + k.toNat) 8192 } }
      exec (.linkCreditGrant shelf k) s =
        .next (if old + k.toNat ≤ 8192 then t else portViol t (if shelf then 4 else 5) 0x05 (old + k.toNat - 8192)))

/-- Read data: a unit that is not the last is held with its tag; the last one lands the units in the core's T0 for the command that
reads, or for the rise, poisoned or bad bytes as zeros with poison, which the core counts, and frees the tag (12 R386, R387; 15
R485, R488). Where in T0 they land is the model's choice (log 6). -/
def Obligations.ReadUnitsLandWhenComplete : Prop :=
  ∀ (p : BitVec 2) (id : BitVec 19) (unit : BitVec 2) (last err poison : Bool) (data : List Byte) (s : State) (t : Tag) (c : Instr),
    let core := fld id.toNat 11 8
    let key := tagKey core (fld id.toNat 2 9)
    s.life.ready = true → s.str.gens.get key 0 = fld id.toNat 0 2 → s.str.tags.find key = some t → t.sent = true →
    ((c = .streamReadData p id unit last err poison data ∧ t.chan = .port p.toNat) ∨
      (c = .shelfReadData id unit last err poison data ∧ t.chan = .shelf)) →
    t.write = false → t.bad = false → s.mon.inj = [] → t.span.contains unit.toNat = true →
    (t.units.any fun u => u.1 == unit.toNat) = false →
    (last = false → exec c s = .next { s with str := { s.str with
      tags := s.str.tags.put key { t with units := t.units ++ [(unit.toNat, poison || err, data)] } } }) ∧
    (last = true → t.span = [unit.toNat] → t.units = [] → NothingWaits s →
      let bad := poison || err
      let a := (unitSpan t unit.toNat).1
      let n := (unitSpan t unit.toNat).2 - a
      let got := if bad then List.replicate n 0 else (data.drop (a % 64)).take n
      let counts (s' : State) : Prop := s'.str.tags = s.str.tags.del key ∧ (bad = false → s'.str.cnt = s.str.cnt) ∧
        (bad = true → s.str.freeze = false → s'.str.cnt.get (16 * core + 11) 0 = add64 (s.str.cnt.get (16 * core + 11) 0) 1)
      (∀ q m u j, t.use = .fetch q m u → s.job q m = some j →
        let k := landNext s core t.stage
        ∃ s', exec c s = .next s' ∧ counts s' ∧
          s' = { s with
            jobs := (s.setJob { j with fetched := j.fetched ++ [⟨u, core, a, got, bad, k, t.stage⟩] }).jobs
            t0 := s.t0.store (landAt core t.stage k a) got (List.replicate got.length bad)
            str := s'.str }) ∧
      (∀ d, t.use = .rise d →
        ∃ s', exec c s = .next s' ∧ counts s' ∧
          s' = { s with
            pg := { s.pg with rises := s.pg.rises.map fun r => if r.d = d then
              { r with body := r.body ++ [(a, got)], poisoned := r.poisoned || bad, left := r.left - 1 } else r }
            str := s'.str }))

/-- A write acknowledgement frees its tag, and takes a transfer off the fall that it served; with the last one the fall header
stands in the side table and the descriptor has `COMMIT` set (10 R320; 11 R351); with ERR the write is lost, which the violation
log holds (12 R379; 15 R486, R488). A response whose generation is stale, whose tag is not in flight on its channel, or whose kind
is not its tag's is discarded and logged once per port and kind in 1,000 LT (15 R514, R515). Rests on the model's choices of log
6. -/
def Obligations.WriteAcksAndStrayResponses : Prop :=
  (∀ (p : BitVec 2) (id : BitVec 19) (s : State) (t : Tag) (c : Instr),
     let key := tagKey (fld id.toNat 11 8) (fld id.toNat 2 9)
     s.life.ready = true → s.str.gens.get key 0 = fld id.toNat 0 2 → s.str.tags.find key = some t → t.sent = true →
     t.write = true → NothingWaits s → FallsMarked s →
     (c = .streamWriteAck p id false ∧ t.chan = .port p.toNat) ∨ (c = .shelfWriteAck id false ∧ t.chan = .shelf) →
     let s0 : State := { s with str := { s.str with tags := s.str.tags.del key } }
     ((∀ d, t.use ≠ .fall d) → exec c s = .next s0) ∧
     (∀ d, t.use = .fall d → (∀ f ∈ s.pg.falls, f.d = d → 1 < f.left) →
       exec c s = .next { s0 with
         pg := { s.pg with falls := s.pg.falls.map fun f => if f.d = d then { f with left := f.left - 1 } else f } }) ∧
     (∀ f, t.use = .fall f.d → s.pg.falls = [f] → f.left = 1 → f.cls ≠ 9 → f.summary = none → (getDesc s f.d).commit = false →
       exec c s = .next (putDesc (State.wr { s0 with pg := { s.pg with falls := [{ f with left := 0 }] } }
         (s.tier.sideBase + 32 * f.d) f.header) f.d { getDesc s f.d with commit := true })) ∧
     (∀ q n j, t.use = .write q n → t.chan = .port p.toNat → s.job q n = some j → s.mon.trOn = false →
       ∃ s', exec (.streamWriteAck p id true) s = .next s' ∧ s'.str.tags = s.str.tags.del key ∧
         s'.flt = (viol s j.loc 0x0B (fld id.toNat 11 8) (fld id.toNat 2 9)).flt ∧ s'.t0 = s.t0 ∧ s'.qs = s.qs ∧
         s'.jobs = (s.setJob { j with poison := sat32 j.poison (elemsIn t.len t.ebits t.phase) }).jobs)) ∧
  (∀ (p : BitVec 2) (id : BitVec 19) (unit : BitVec 2) (last err poison : Bool) (data : List Byte) (s : State) (c : Instr) (port : Nat)
     (ok : Tag → Bool) (write : Bool),
     (c = .streamReadData p id unit last err poison data ∧ port = p.toNat ∧ ok = onPort p.toNat ∧ write = false) ∨
       (c = .streamWriteAck p id err ∧ port = p.toNat ∧ ok = onPort p.toNat ∧ write = true ∧ FallsMarked s) ∨
       (c = .shelfReadData id unit last err poison data ∧ port = 4 ∧ ok = onShelf ∧ write = false) ∨
       (c = .shelfWriteAck id err ∧ port = 4 ∧ ok = onShelf ∧ write = true ∧ FallsMarked s) →
     let key := tagKey (fld id.toNat 11 8) (fld id.toNat 2 9)
     s.life.ready = true → s.mon.trOn = false →
     (s.str.gens.get key 0 ≠ fld id.toNat 0 2 → exec c s = .next (portViol s port 0x02 id.toNat)) ∧
     (s.str.gens.get key 0 = fld id.toNat 0 2 →
       (s.str.tags.find key = none → exec c s = .next (portViol s port 0x01 id.toNat)) ∧
       (∀ t, s.str.tags.find key = some t →
         (t.sent = false ∨ ok t = false → exec c s = .next (portViol s port 0x01 id.toNat)) ∧
         (t.sent = true → ok t = true → t.write ≠ write → exec c s = .next (portViol s port 0x04 id.toNat)))))

/-- TAG_TIMEOUT: a tag past its limit is freed, its generation moves on and the timeout counts; a read of a command lands its
missing units as zeros with poison; before the limit only time passes (12 R379). Rests on the model's choices of logs 1 and 6. -/
def Obligations.TimeoutsFreeTheirTags : Prop :=
  ∀ (core : BitVec 8) (tag : BitVec 9) (lt : Dword) (s : State) (t : Tag),
    let key := tagKey core.toNat tag.toNat
    s.str.tags.find key = some t →
    ((At s lt).life.lt < t.due → exec (.tagTimeout core tag lt) s = .next (At s lt)) ∧
    (t.due ≤ (At s lt).life.lt → NothingWaits s →
      ∃ s', exec (.tagTimeout core tag lt) s = .next s' ∧ s'.str.tags.find key = none ∧
        s'.str.gens.get key 0 = (s.str.gens.get key 0 + 1) % 4 ∧ s'.str.timeouts = add64 s.str.timeouts 1 ∧
        s'.life.lt = (At s lt).life.lt ∧ s'.qs = s.qs ∧ s'.flg = s.flg ∧ (t.write = true → s'.t0 = s.t0) ∧
        (∀ q n u j, t.use = .fetch q n u → t.write = false → s.job q n = some j → t.units = [] →
          s'.jobs = (s.setJob { j with fetched := j.fetched ++ t.span.zipIdx.map fun v =>
            ⟨u, core.toNat, (unitSpan t v.1).1, List.replicate ((unitSpan t v.1).2 - (unitSpan t v.1).1) 0, true,
              landNext s core.toNat t.stage + v.2, t.stage⟩ }).jobs))

/-! ### Array commands and cores (01 R34-R37, R25-R30; 04 R131-R148; 05 R152, R160; 13 R434-R437) -/

/-- MMA, DMM and CONV: a command that passes its checks, with its operands at hand, places one item for each of its tiles, in Q16 for each
four, on the core of the item's first tile modulo 256, opens its bucket if it has one, and runs; one that fails a check is rejected; one
whose bucket is held up waits (01 R34; 05 R152; 13 R425, R440; 14 R457). Rests on the model's choices of logs 5 and 21. -/
def Obligations.ArrayCommandsPlaceTheirTiles : Prop :=
  ∀ (q : BitVec 6) (n : BitVec 16) (s : State) (j : Job) (c : Instr), Quiet s → Startable s j →
    ((c = .mma q n ∧ Taken s q n 0x01 j) ∨ (c = .dmm q n ∧ Taken s q n 0x02 j) ∨ (c = .conv q n ∧ Taken s q n 0x03 j)) →
    (∀ b, chkArray s j = .error b → exec c s = .next (reject s j b.cause b.detail b.aux)) ∧
    (∀ o, chkArray s j = .ok o → o.reduce = true → bucketWaits s (bw j.cmd 5) = true →
      exec c s = .next ((s.served j).setJob { j with tagWait := true })) ∧
    (∀ o, chkArray s j = .ok o → (o.reduce = true → bucketWaits s (bw j.cmd 5) = false) →
      let s1 := s.served j
      AtHand s1 j j.ctx (o.parts j.ctx) →
      let s0 := if o.reduce then openBucket s1 j (bw j.cmd 5) else s1
      o.firstBad s0 j.ctx = none → 0 < o.tiles →
      ∃ t, exec c s = .next t ∧
        t.jobs = (s0.setJob { j with
          phase := .running
          tagWait := false
          attempt := s0.cas.attempt
          total := o.tiles
          finished := 0
          fail := none }).jobs ∧
        (∀ x ∈ o.items o.tiles, (⟨j.q, j.n, x, true⟩ : Item) ∈ (t.core (x % 256)).deque ++ (t.core (x % 256)).held) ∧
        (∀ k, (t.core k).run = (s.core k).run ∧ (t.core k).saved = (s.core k).saved) ∧
        t = { s0 with jobs := t.jobs, cores := t.cores })

/-- VEC, SFN, NORM, SMAX, TOPK, COPY, FILL, and SCAN in its sequential form without a sequence: a command that passes its checks, with its
operands at hand, runs with the tiles that its program computes, all still to commit, and their work items go to the deques of their cores;
nothing else changes but that its queue has had its turn (01 R34; 13 R403, R425, R440). A VEC, SFN, NORM, SMAX or TOPK whose one transfer has not been made takes a tag of its core for
it and stays (12 R377, R378; 15 R483). A command of these families that fails a check before it starts does nothing: it ends MALFORMED with
flags 0 and no committed index, and one log entry says why (13 R440, R441). A VEC that its queue's order, a queue of higher
priority or the turns of the queues of its own priority put behind another VEC, ready and not taken up, stays as it is (13 R403). Rests on the model's choices of logs 5 and 6. -/
def Obligations.TiledCommandsRunOrAreRejected : Prop :=
  (∀ (q : BitVec 6) (n : BitVec 16) (s : State) (j k : Job), Taken s q n 0x10 j → j.ask = none → j.tagWait = false →
     k ∈ s.jobs → k.op = 0x10 → MayStart s k → k.ask = none → k.tagWait = false → s.pg.rises = [] →
     j.prio < k.prio ∨ (k.q = j.q ∧ k.take < j.take) ∨
       (k.prio = j.prio ∧ k.q ≠ j.q ∧ turnPos s j.prio k.q < turnPos s j.prio j.q) → exec (.vec q n) s = .next s) ∧
  (∀ (q : BitVec 6) (n : BitVec 16) (s s1 : State) (j : Job) (c : Instr) (op : Nat) (x : Ctx) (ps : List Part)
     (run : State → List Tile × Option (Nat × Nat × Nat)) (w : List Nat), Quiet s → Startable s j → Taken s q n op j →
     ((∃ p, ps = p.parts ∧ run = p.run ∧
         ((x = j.ctx ∧ w = j.work ∧ s1 = s.served j ∧
             ((c = .vec q n ∧ op = 0x10 ∧ prepVec s x j.cmd = .ok p) ∨ (c = .sfn q n ∧ op = 0x11 ∧ prepSfn s x j.cmd = .ok p) ∨
               (c = .norm q n ∧ op = 0x12 ∧ prepNorm s x j.cmd = .ok p) ∨ (c = .smax q n ∧ op = 0x13 ∧ prepSmax s x j.cmd = .ok p) ∨
               (c = .topk q n ∧ op = 0x14 ∧ prepTopk s x j.cmd = .ok p))) ∨
           (x = seqCtx j ∧ seqStill s x = true ∧ s1 = (s.served j).setJob { j with work := w } ∧
             (∃ dst, p.outs.head? = some dst ∧ w = match x.sid with
               | some sid => if dst.space = 2 then [sid, b2n (dst.addr == 0 && decide (stateSize s x ≤ dst.dense))] else []
               | none => []) ∧
             ((c = .copy q n ∧ op = 0x18 ∧ prepCopy s x j.cmd = .ok p) ∨ (c = .fill q n ∧ op = 0x19 ∧ prepFill s x j.cmd = .ok p))))) ∨
       (∃ o : ScanOp, c = .scan q n ∧ op = 0x08 ∧ x = scanCtx j ∧ bit (j.body 0x10) 52 = false ∧ chkScan s j = .ok o ∧
         o.chunked = false ∧ ps = o.parts ∧ run = seqTiles x o ∧ w = [] ∧ s1 = (s.served j).setJob { j with work := w })) →
     AtHand s1 { j with work := w } x ps →
     let r := run s1
     r.1 ≠ [] →
     exec c s = .next (placeTiles (s1.setJob { ({ j with work := w }).run r.1 with fail := r.2 }) q.toNat n.toNat r.1)) ∧
  (∀ (q : BitVec 6) (n : BitVec 16) (s : State) (j : Job) (c : Instr) (op : Nat) (p : Prep) (u core a len k : Nat) (stage : Bool),
     Startable s j → Taken s q n op j →
     ((c = .vec q n ∧ op = 0x10 ∧ prepVec s j.ctx j.cmd = .ok p) ∨ (c = .sfn q n ∧ op = 0x11 ∧ prepSfn s j.ctx j.cmd = .ok p) ∨
       (c = .norm q n ∧ op = 0x12 ∧ prepNorm s j.ctx j.cmd = .ok p) ∨ (c = .smax q n ∧ op = 0x13 ∧ prepSmax s j.ctx j.cmd = .ok p) ∨
       (c = .topk q n ∧ op = 0x14 ∧ prepTopk s j.ctx j.cmd = .ok p)) →
     let s1 := s.served j
     touchParts s1 j j.ctx p.parts = (true, s1) → j.ask = none → j.parts = [] →
     (p.parts.flatMap fun v => v.pieces s1 j.ctx) = [⟨u, core, a, len, stage⟩] → bit a 47 = false → freeTag s core = some k →
     let port := fld a 8 2
     ∃ t tag, exec c s = .next t ∧ t.str.tags.find (tagKey core k) = some tag ∧ tag.write = false ∧ tag.chan = .port port ∧
       tag.addr = a ∧ tag.len = len ∧ tag.use = .fetch j.q j.n u ∧ tag.due = s.life.lt + max s.str.timeout 1000 ∧
       tag.sent = decide (s.str.portReq.get port 0 ≠ 0) ∧
       t.jobs = (s.setJob { j with ask := some [], parts := [⟨u, core, a, len, stage⟩], ahead := false }).jobs ∧
       t = { s1 with jobs := t.jobs, str := t.str }) ∧
  (∀ (q : BitVec 6) (n : BitVec 16) (s : State) (j : Job) (c : Instr) (op : Nat) (b : Bad), Startable s j → Taken s q n op j →
     j.vlogged = false → s.mon.trOn = false →
     ((c = .vec q n ∧ op = 0x10 ∧ prepVec s j.ctx j.cmd = .error b) ∨ (c = .sfn q n ∧ op = 0x11 ∧ prepSfn s j.ctx j.cmd = .error b) ∨
       (c = .norm q n ∧ op = 0x12 ∧ prepNorm s j.ctx j.cmd = .error b) ∨ (c = .smax q n ∧ op = 0x13 ∧ prepSmax s j.ctx j.cmd = .error b) ∨
       (c = .topk q n ∧ op = 0x14 ∧ prepTopk s j.ctx j.cmd = .error b) ∨
       (c = .copy q n ∧ op = 0x18 ∧ prepCopy s (seqCtx j) j.cmd = .error b) ∨
       (c = .fill q n ∧ op = 0x19 ∧ prepFill s (seqCtx j) j.cmd = .error b) ∨ (c = .scan q n ∧ op = 0x08 ∧ chkScan s j = .error b)) →
     ∃ t x, exec c s = .next t ∧ t.job q.toNat n.toNat = some x ∧ x.phase = .done ∧ x.fl = 0 ∧ x.idx = none ∧ x.tiles = [] ∧
       x.wq = j.wq ∧ statusRank x.status = 0 ∧
       t.flt.vlog.find s.flt.vnext = some ⟨j.loc, b.cause + (b.detail % 2 ^ 24) <<< 8, b.aux % 2 ^ 32, s.life.lt % 2 ^ 32⟩ ∧
       t = { s with jobs := t.jobs, flt := t.flt, evt := t.evt })

/-- SCAN in its chunked form without a sequence runs the first span of every sequence, no tile of it committed; with no second span it changes
nothing but the command and the deques (06 R204). SEAM_CARRY_READY: while a write of the carry is still to be acknowledged nothing happens; else
the core of the span asks for the carry, once, and once it has landed the span runs from it: its tiles wait for their commits behind those
there are (06 R204-R207). Rests on the model's choices of logs 5 and 22. -/
def Obligations.SpansRunFromTheirCarry : Prop :=
  (∀ (q : BitVec 6) (n : BitVec 16) (s : State) (j : Job) (o : ScanOp), Quiet s → Startable s j → Taken s q n 0x08 j →
     bit (j.body 0x10) 52 = false → chkScan s j = .ok o → o.chunked = true → 0 < o.seqs * o.chunks →
     let j1 : Job := { j with work := [] }
     let s1 := (s.served j).setJob j1
     AtHand s1 j1 (scanCtx j) o.parts → scanBad s1 (scanCtx j) o = none →
     ∃ t y, exec (.scan q n) s = .next t ∧ t.job q.toNat n.toNat = some y ∧ y.phase = .running ∧ y.total = o.seqs * o.chunks ∧
       y.finished = 0 ∧ y.spans = List.replicate o.seqs 1 ∧ t.qs = s.qs ∧ t.slots = s.slots ∧
       (o.spans[1]? = none → t = { s1 with jobs := t.jobs, cores := t.cores })) ∧
  (∀ (q : BitVec 6) (n : BitVec 16) (seq : BitVec 12) (chunk : BitVec 24) (s : State) (j : Job) (o : ScanOp) (k : Nat)
     (span : List Nat), Taken s q n 0x08 j → j.phase = .running → Awake s → s.stopped = false →
     j.spans[seq.toNat]? = some k → k ≠ 0 → chkScan s j = .ok o → o.spans[k]? = some span → span.headD 0 = chunk.toNat →
     let x := scanCtx j
     let a := o.carryAt seq.toNat chunk.toNat
     let u := o.carryUnit seq.toNat chunk.toNat
     (written s j a (4 * o.size) = false → exec (.seamCarryReady q n seq chunk) s = .next s) ∧
     (written s j a (4 * o.size) = true → (j.parts.any fun p => p.unit == u) = false →
       ∃ t y, exec (.seamCarryReady q n seq chunk) s = .next t ∧ t.job q.toNat n.toNat = some y ∧
         y.parts = j.parts ++ o.carryPieces seq.toNat chunk.toNat) ∧
     (written s j a (4 * o.size) = true → (j.parts.any fun p => p.unit == u) = true → landedOn s j u (o.home chunk.toNat) = true →
       touchAll s (o.home chunk.toNat) (some (j.q, j.n)) ((o.ins.flatMap fun t => t.pages s x).eraseDups) = (true, s) →
       j.finished < j.total →
       let r := runSpan s x o seq.toNat span (readCarry s x o seq.toNat chunk.toNat) false Rep.nil
       let new := r.tiles.filter fun t => decide (t.num < j.total)
       ∃ t y, exec (.seamCarryReady q n seq chunk) s = .next t ∧ t.job q.toNat n.toNat = some y ∧
         y.spans = j.spans.set seq.toNat (k + 1) ∧ y.tiles.length = j.tiles.length + new.length ∧
         (j.finished + j.tiles.length + new.length < o.seqs * o.chunks → y.tiles = j.tiles ++ new) ∧ t.qs = s.qs ∧ t.slots = s.slots ∧
         (o.spans[k + 1]? = none → t = { s with jobs := t.jobs, cores := t.cores })))

/-- STEAL and CLUSTER_POLL_TIMEOUT: a core without work takes the topmost stealable item of the fullest victim with at least
two, first of its own cluster and, 32 LT later, of the next cluster that has one; the lowest index wins a tie (01 R35); it then fetches the
operands of that item (01 R36). Rests on the model's choices of log 21. -/
def Obligations.IdleCoresSteal : Prop :=
  (∀ (s : State) (l : List Nat) (v : Nat), bestVictim s l = some v →
    v ∈ l ∧ 2 ≤ (s.core v).loot ∧ ∀ w ∈ l, (s.core w).loot < (s.core v).loot ∨ ((s.core w).loot = (s.core v).loot ∧ v ≤ w)) ∧
  (∀ (s : State) (l : List Nat), bestVictim s l = none → ∀ w ∈ l, (s.core w).loot < 2) ∧
  (∀ (c : BitVec 8) (lt : Dword) (s s0 : State) (i : Instr) (v : Nat) (it : Item),
    Awake s → s.mon.trOn = false → s0.coreStopped c.toNat = false → (s0.core c.toNat).empty = true → (s0.core c.toNat).saved = [] →
    ((i = .steal c ∧ s0 = s ∧ bestVictim s ((clusterCores (c.toNat / 16)).filter (· != c.toNat)) = some v) ∨
      (i = .clusterPollTimeout c lt ∧ s0 = At s lt ∧
        bestVictim s ((clusterCores (c.toNat / 16)).filter (· != c.toNat)) = none ∧ (s.core c.toNat).idleSince ≠ 0 ∧
        (s.core c.toNat).idleSince + 32 ≤ s0.life.lt + 1 ∧
        ((tab 15 fun i => (c.toNat / 16 + 1 + i) % 16).findSome? fun k => bestVictim s (clusterCores k)) = some v)) →
    (s.core v).deque.find? Item.steal = some it →
    ∃ t, exec i s = .next t ∧ (t.core c.toNat).deque = [it] ∧ (t.core c.toNat).idleSince = 0 ∧ t.core v = (s.core v).without it ∧
      (∀ k, k ≠ c.toNat → k ≠ v → t.core k = s.core k) ∧ t = fetchStolen { s0 with cores := t.cores } c.toNat it)

/-- SWAP: an idle core takes its next item, once its operands have landed, and opens its sets; each open set that may run swaps its banks, but
in `OUTPUT` mode, and runs its next K-group; with nothing to do nothing changes (01 R34, R36; 05 R152, R160). SATURATION_EVENT resolves the
saturated sets of a core and counts the restarts and the K-groups they discard; OPEN_SET_DRAIN turns a finished set, or one left to drain,
into a tile that waits for its commit, and its place is free again (04 R131, R132, R136, R137, R139). Rests on the model's choices of logs 21
and 36. -/
def Obligations.OpenSetsRunResolveAndDrain : Prop :=
  (∀ (c : BitVec 8) (s : State) (j : Job) (o : ArrOp), Awake s → s.coreStopped c.toNat = false → prepArray s j.ctx j.cmd = .ok o →
     let k := s.core c.toNat
     (∀ it, k.run = none → k.draining = [] → s.nextTile c.toNat = some it → s.job it.q it.n = some j →
       landedOn s j (j.unitOf it) c.toNat = true →
       exec (.swap c) s = .next (runCore (s.setCore c.toNat { k.without it with
         run := some ⟨it, openSets o j.total it.tile k.half⟩
         half := k.half != o.shadow
         idleSince := 0 }) c.toNat)) ∧
     (∀ it, k.run = none → k.draining = [] → s.nextTile c.toNat = some it → s.job it.q it.n = some j →
       landedOn s j (j.unitOf it) c.toNat = false → exec (.swap c) s = .next s) ∧
     (∀ r, k.run = some r → k.draining = [] → s.job r.item.q r.item.n = some j → r.sets.any OpenSet.ready = true →
       touchAll s c.toNat (some (j.q, j.n)) ((o.ins.flatMap fun t => t.pages s j.ctx).eraseDups) = (true, s) →
       ∃ (t : State) (sets : List OpenSet), exec (.swap c) s = .next t ∧ (t.core c.toNat).run = some { r with sets := sets } ∧ sets.length = r.sets.length ∧
         (∀ (i : Nat) (st : OpenSet), r.sets[i]? = some st → ∃ st' : OpenSet, sets[i]? = some st' ∧
           (if st.ready then ∃ u, st' = o.runKg s j.ctx u st else st' = st)) ∧
         (∀ st, r.sets = [st] → o.stat ≠ 1 →
           let qd := o.quad r.item st.tile
           ((t.core c.toNat).banks.get qd {}).onB = !(k.banks.get qd {}).onB) ∧
         (t.core c.toNat).deque = k.deque ∧ t = { s with cores := t.cores }) ∧
     (k.run = none → s.nextTile c.toNat = none → exec (.swap c) s = .next s)) ∧
  (∀ (c : BitVec 8) (s : State) (r : Running) (j : Job) (o : ArrOp), Awake s → s.inp.thermHalt = false → (s.core c.toNat).run = some r →
     s.job r.item.q r.item.n = some j → prepArray s j.ctx j.cmd = .ok o →
     let k := s.core c.toNat
     (r.sets.any OpenSet.satHit = true →
       let l := r.sets.map fun st => if st.satHit then o.resolve st else (st, none)
       let n := l.filterMap Prod.snd
       ∃ t, exec (.saturationEvent c) s = .next t ∧ (t.core c.toNat).run = some { r with sets := l.map Prod.fst } ∧
         (s.str.freeze = false →
           t.str.cnt.get (16 * c.toNat + 14) 0 = add64 (s.str.cnt.get (16 * c.toNat + 14) 0) n.length ∧
           t.str.cnt.get (16 * c.toNat + 15) 0 = add64 (s.str.cnt.get (16 * c.toNat + 15) 0) (n.foldl (· + ·) 0)) ∧
         t = { s with cores := t.cores, str := t.str }) ∧
     (r.sets.any OpenSet.satHit = false → exec (.saturationEvent c) s = .next s) ∧
     (∀ st, k.draining = [] → r.sets = [st] → st.ended = true →
       let s1 := s.setCore c.toNat { k with run := none }
       let d := o.drain s1 j.ctx c.toNat ⟨j.drained, j.ranks, j.finished + j.tiles.length⟩ st
       exec (.openSetDrain c) s = .next (s1.setJob { j with tiles := j.tiles ++ [d.1], drained := d.2.vals, ranks := d.2.ranks })) ∧
     (k.draining = [] → (∀ st ∈ r.sets, st.ended = false) → exec (.openSetDrain c) s = .next s)) ∧
  (∀ (c : BitVec 8) (s : State) (it : Item) (st : OpenSet) (j : Job) (o : ArrOp), Awake s → s.inp.thermHalt = false → (s.core c.toNat).draining = [(it, st)] →
     s.job it.q it.n = some j → prepArray s j.ctx j.cmd = .ok o →
     let s1 := s.setCore c.toNat { s.core c.toNat with draining := [] }
     let d := o.drain s1 j.ctx c.toNat ⟨j.drained, j.ranks, j.finished + j.tiles.length⟩ st
     exec (.openSetDrain c) s = .next (s1.setJob { j with tiles := j.tiles ++ [d.1], drained := d.2.vals, ranks := d.2.ranks }))

/-- PREEMPTION, once no drained tile of the core waits for its commit, saves the image of the matrix item that runs on the victim core into the
save area of its queue and gives the core the item of higher priority: a matrix item opens its sets there, any other is the next that the core
takes. ITEM_RESUME takes the last saved matrix item up again from its image (04 R144-R148; 13 R434-R437). Rests on the model's choices of log
21. -/
def Obligations.PreemptedItemsAreSavedAndResumed : Prop :=
  (∀ (c : BitVec 8) (q : BitVec 6) (n : BitVec 16) (s : State) (r : Running) (h : Nat) (it : Item) (j j2 : Job) (o o2 : ArrOp),
    Quiet s → Awake s → s.coreStopped c.toNat = false → (s.core c.toNat).run = some r →
    ((List.range 256).findSome? fun h => ((s.core h).deque.find? fun i => i.q == q.toNat && i.n == n.toNat).map fun i => (h, i)) =
      some (h, it) →
    (if it.steal then ((List.range 256).any fun d => (s.core d).empty) = false ∧ lowestCore s = some c.toNat else h = c.toNat) →
    itemPrio s r.item < itemPrio s it → (s.queue r.item.q).save ≠ 0 → r.atBoundary s = true → drainDone s c.toNat = true →
    r.sets.any OpenSet.satHit = false → s.job r.item.q r.item.n = some j → prepArray s j.ctx j.cmd = .ok o →
    let k := s.core c.toNat
    (k.saved.any fun i => i.1.q == q.toNat) = false →
    let s1 := { s with t1 := s.t1.put (saveSlot s r.item.q c.toNat) (imageBytes o r.item (savedSets o r.sets)) }.setCore c.toNat
      { k.flush (fun _ => true) with run := none, saved := k.saved ++ [(r.item, r.half)] }
    let s2 := s1.setCore h ((s1.core h).without it)
    let k2 := s2.core c.toNat
    (s.job it.q it.n = some j2 → j2.isArray = true → prepArray s2 j2.ctx j2.cmd = .ok o2 →
      exec (.preemption c q n) s = .next (s2.setCore c.toNat { k2 with
        run := some ⟨it, openSets o2 j2.total it.tile k2.half⟩
        half := k2.half != o2.shadow })) ∧
    (s.isTile it = false → exec (.preemption c q n) s = .next (s2.setCore c.toNat (k2.takeNext it)))) ∧
  (∀ (c : BitVec 8) (s : State) (it : Item × Bool) (j : Job) (o : ArrOp) (sets : List OpenSet), Quiet s → Awake s →
    s.coreStopped c.toNat = false →
    let k := s.core c.toNat
    let s1 := s.setCore c.toNat { k with saved := k.saved.erase it }
    k.run = none → k.draining = [] → k.saved.getLast? = some it →
    (k.deque.any fun i => decide (itemPrio s it.1 < itemPrio s i)) = false →
    s.job it.1.q it.1.n = some j → j.isArray = true → prepArray s j.ctx j.cmd = .ok o →
    readImage s1 o it.2 (saveSlot s it.1.q c.toNat) j.total it.1 = some sets →
    exec (.itemResume c) s = .next (s1.setCore c.toNat { s1.core c.toNat with
      run := some ⟨it.1, sets⟩
      half := if o.shadow then !it.2 else k.half
      idleSince := 0 }))

/-- ROUND_START, with no round in progress and an entry of a running layer program that takes one, moves the round phase p on by 97 modulo 256
and begins the round; in the staged form it has 256 hop periods, and slice j of each half starts at core (j + p) modulo 256.
HOP_PERIOD_END, once every slice that the round waits for has landed, moves each slice of ring A to the next higher core and of ring B to the
next lower one, and ends the round with its last hop period; until then nothing happens (01 R25, R26, R29, R30). Rests on the model's choices
of log 26. -/
def Obligations.WeightRoundsRunTheirHops : Prop :=
  (∀ s : State, Awake s →
    (∀ e part o, s.ring.active = false → nextRound s s.ring = some (e, part, o) →
      let p := (s.ring.phase + 97) % 256
      ∃ t, exec .roundStart s = .next t ∧ t.ring = ringRun e part o (s.ring.count + 1) p ∧ t.ring.phase = p ∧ t.ring.active = true ∧
        t = { s with ring := t.ring, jobs := t.jobs, str := t.str, sent := t.sent, cas := t.cas } ∧
        (roundOf e.bytes ≠ 2 → t.ring.hops = 256 ∧ ∀ i, i < 256 →
          t.ring.curA[(i + p) % 256]? = some ((o.slices part (o.ranges false))[i]?) ∧
          t.ring.curB[(i + p) % 256]? = some ((o.slices part (o.ranges false))[256 + i]?))) ∧
    (s.ring.active = false → nextRound s s.ring = none → exec .roundStart s = .next s) ∧
    (s.ring.active = true → exec .roundStart s = .next s ∧
      (slicesHere s = false → exec .hopPeriodEnd s = .next s) ∧
      (slicesHere s = true → ∃ t, exec .hopPeriodEnd s = .next t ∧ t.ring = s.ring.turn ∧
        (s.ring.hop + 1 < s.ring.hops → t.ring.active = true ∧ t.ring.hop = s.ring.hop + 1 ∧ t.ring.curA = s.ring.nextA ∧
          t.ring.curB = s.ring.nextB ∧
          (s.ring.conveyor = false → t.ring.nextA = ringUp s.ring.nextA ∧ t.ring.nextB = ringDown s.ring.nextB)) ∧
        (s.ring.hops ≤ s.ring.hop + 1 → t.ring.active = false ∧ t.ring.curA = [] ∧ t.ring.curB = []) ∧
        t = { s with ring := t.ring, cores := t.cores, jobs := t.jobs }))) ∧
  (∀ (l : List (Option Slice)) (i : Nat), i < l.length →
    (ringUp l)[(i + 1) % l.length]? = l[i]? ∧ (ringDown l)[i]? = l[(i + 1) % l.length]?)

/-! ### Sequences and slots (06 R193-R196; 09 R273-R307) -/

/-- STEP: once its members stand in slots, the command runs with every member waiting for its issue, in set order; one that fails a check is
rejected (09 R300, R301). MEMBER_ISSUE: behind an earlier act on its sequence a member waits; one at the length limit ends with that outcome;
with its operands landed, one whose page need is not to be had stalls, and one whose need is taken runs its program on it with its slot
`STEPPING`, and then waits for its commit (09 R301; 10 R325-R330; 13 R417). Rests on the model's choices of logs 23 and 26. -/
def Obligations.StepsIssueTheirMembers : Prop :=
  (∀ (q : BitVec 6) (n : BitVec 16) (s : State) (j : Job) (sids : List Nat), Quiet s → Startable s j → Taken s q n 0x09 j →
     (∀ b, chkStep s j = .error b → exec (.stepCmd q n) s = .next (reject s j b.cause b.detail b.aux)) ∧
     (chkStep s j = .ok sids → j.members = [] → parkedOf s sids = [] →
       exec (.stepCmd q n) s = .next (s.setJob { j with
         phase := .running
         members := sids.map (memberOf s)
         total := sids.length
         finished := 0
         slotWait := false
         stage := if j.slotWait || j.stage == 1 then 0 else j.stage }))) ∧
  (∀ (q : BitVec 6) (n : BitVec 16) (r : BitVec 12) (s : State) (j : Job) (m : Member) (y : Slot) (k : Nat), Awake s →
     Taken s q n 0x09 j → j.phase = .running → j.members[r.toNat]? = some m → m.phase = .waiting ∨ m.phase = .dry →
     s.coreStopped m.core = false → seqRec s m.sid = some y →
     (actBefore s j.take m.sid = true → exec (.memberIssue q n r) s = .next s) ∧
     (actBefore s j.take m.sid = false → y.pos = 4194304 →
       exec (.memberIssue q n r) s = .next (settle (endMember s j.q j.n r.toNat 5) j.q j.n)) ∧
     (actBefore s j.take m.sid = false → y.pos ≠ 4194304 → slotOf s m.sid = some (k, y) → y.state = 1 → seqBusy s m.sid = false →
       let m1 : Member := { m with core := y.core, pos := y.pos }
       let j1 : Job := { j with members := j.members.set r.toNat m1 }
       let s1 := s.setJob j1
       let x := j1.memberCtx r.toNat m.sid
       ∀ es, prepProgram s1 j x = .ok es → reachMember s1 j x y m1 es = (true, s1) → m.asked = true → j.ask = some [] →
         landedOn s1 j1 r.toNat y.core = true → s.t0.inj = [] →
         let need := max m.need (pageNeed s1 (memberWrites s1 x y es))
         (takeNeed s1 j1 r.toNat y.core need = none →
           exec (.memberIssue q n r) s = .next (s.setJob { j with members := j.members.set r.toNat { m1 with phase := .dry, need := need } })) ∧
         (∀ tok fs ds s2 l, takeNeed s1 j1 r.toNat y.core need = some (tok, fs, ds, s2) →
           let s3 := setSlotState s2 k y 2
           runEntries j.q j.n y.core y j1 (programOf s1 j.cmd).zipIdx
             ⟨{ s3 with pg := { s3.pg with allot := some (fs, ds) } }, x, Rep.nil, 0, 0, 0, false⟩ = .ok l →
           let s4 := { l.s with pg := { l.s.pg with allot := none } }.withJob j.q j.n fun s j =>
             s.setJob { j with fetched := j.fetched.filter fun f => f.unit != r.toNat }
           ∃ b, exec (.memberIssue q n r) s = .next (pumpWrites (setMember s4 j.q j.n r.toNat fun a =>
             { a with
               phase := .issued
               frames := (l.s.pg.allot.getD ([], [])).1
               descs := (l.s.pg.allot.getD ([], [])).2
               token := tok
               rep := l.rep
               floor := l.floor
               masked := l.masked
               bad := l.bad
               poison := l.poison
               neap := b })))))

/-- MEMBER_COMMIT: one selector write makes the working copy the copy of record, `SL_POS` rises by 1, the slot is `IDLE` again,
the member has its outcome, and its flags are reported; no memory changes (09 R302, R304). PAGE_EXHAUSTED: a stalled member that
nothing can help is halted at its last complete step, with a page fault and its outcome; another command that waits for a page
ends with that status (10 R331, R567). Rests on the model's choices of log 26. -/
def Obligations.MembersCommitOrAreHalted : Prop :=
  (∀ (q : BitVec 6) (n : BitVec 16) (r : BitVec 12) (s : State) (j : Job) (m : Member) (x : Slot) (k : Nat), Taken s q n 0x09 j →
     s.mon.trOn = false → j.phase = .running → j.noDl = true → j.members[r.toNat]? = some m → m.phase = .issued → m.frames = [] →
     m.descs = [] → m.token = false → slotOf s m.sid = some (k, x) → x.state = 2 →
     ∃ t y, exec (.memberCommit q n r) s = .next t ∧
       t.slots.recs.find k = some { x with
         state := 1
         sel := !x.sel
         pos := x.pos + 1
         lastLt := s.life.lt
         halt := false
         poison := x.poison || m.poison } ∧
       t.job q.toNat n.toNat = some y ∧ y.finished = j.finished + 1 ∧ y.fl = j.fl ||| m.rep.fl ∧
       y.members[r.toNat]? = some { m with phase := .ended, outcome := if m.missed then 2 else 0, pos := x.pos + 1 } ∧
       t.flg.eng = s.flg.eng ||| m.rep.fl ∧ t.t1 = s.t1 ∧ t.t0 = s.t0 ∧ t.qs = s.qs ∧ t.pg = s.pg ∧ t.tbl = s.tbl) ∧
  (∀ (q : BitVec 6) (n : BitVec 16) (r : BitVec 12) (s : State) (j : Job),
     (∀ m k x, Taken s q n 0x09 j → j.members[r.toNat]? = some m → m.phase = .dry → s.mon.trOn = false → m.frames = [] → m.descs = [] →
       m.token = false → slotOf s m.sid = some (k, x) → NothingWaits s →
       (noMorePages s m.need && noReserve s m.core m.need && decide (s.pg.free < m.need ∨ s.pg.descFree < m.need)) = true →
       ∃ t y, exec (.pageExhausted q n r) s = .next t ∧ t.slots.recs.find k = some { x with halt := true } ∧
         t.flt.count.get 2 0 = add64 (s.flt.count.get 2 0) 1 ∧ t.job q.toNat n.toNat = some y ∧
         y.members[r.toNat]? = some { m with phase := .ended, outcome := 4, pos := x.pos } ∧ t.t1 = s.t1 ∧ t.t0 = s.t0) ∧
     (s.job q.toNat n.toNat = some j → j.op ≠ 0x09 → j.dry = true → noMorePages s 1 = true → s.pg.free = 0 ∨ s.pg.descFree = 0 →
       j.phase ≠ .done → exec (.pageExhausted q n r) s = .next (endJob s j.q j.n 5)))

/-- ADMIT: with its initial state at hand, and a slot, a place, a family and the pages to be had, the lowest free SID takes the lowest free
slot with the record that the command gives, `IDLE`; with no slot and no victim the command waits in `SLOT_WAIT`, which SLOT_WAIT_END ends (09
R273, R279-R290; 10 R316, R327). Rests on the model's choices of log 23. -/
def Obligations.AdmitMakesTheRecord : Prop :=
  ∀ (q : BitVec 6) (n : BitVec 16) (s : State) (j : Job), Quiet s →
    (∀ o fam sid slot p s1, Taken s q n 0x20 j → Startable s j → prepAdmit s j = .ok o →
      let s0 := pageInit s
      AtHand s0 j j.ctx (o.init.toList.map fun t => { unit := 0, core := j.core, elems := t.all }) →
      slotTurn s0 j = true → 1 ≤ freeSlots s0 → (if o.root = 0 then freeFamily s0 else some (nodeFam s0 o.root)) = some fam →
      freeSid s0 = some sid → freeSlot s0 = some slot → place s0 o.resid o.size = some p → reachAdopted s0 j o p = (true, s0) →
      j.hold = ([], []) → createSeq s0 j o slot sid fam p = some s1 →
      exec (.admitCmd q n) s = .next (s1.setJob { j.end with result := sid, idx := some 0 }) ∧
      ∃ x, s1.slots.recs.find slot = some x ∧ x.state = 1 ∧ x.sid = sid ∧ x.owner = j.q ∧ x.resid = o.resid ∧ x.pin = o.pin ∧
        x.pos = o.pos ∧ x.size = o.size ∧ x.tag = o.tag ∧ x.deadline = o.deadline ∧ x.core = p.core ∧ x.st0 = p.st0 ∧ x.st1 = p.st1 ∧
        x.sel = false ∧ x.halt = false ∧ x.lastLt = s.life.lt ∧ x.parent = noSid ∧ x.child = noSid ∧ x.sibling = noSid ∧ x.nchild = 0) ∧
    (∀ o, Taken s q n 0x20 j → Startable s j → prepAdmit s j = .ok o →
      let s0 := pageInit s
      AtHand s0 j j.ctx (o.init.toList.map fun t => { unit := 0, core := j.core, elems := t.all }) →
      slotTurn s0 j = true → freeSlots s0 = 0 → victims s0 [] = [] → parkingSlots s0 = 0 →
      exec (.admitCmd q n) s = .next (s0.setJob { j with slotWait := true, stage := 0 })) ∧
    (s.job q.toNat n.toNat = some j → Awake s → j.slotWait = true →
      exec (.slotWaitEnd q n) s = .next (if slotWaitOver s j then s.setJob { j with slotWait := false } else s))

/-- FORK, behind an earlier act on its parent, waits; else the parent's record counts the children and names the first, the write of the
children's list waits for its tags, and the command is complete with the first SID and their number (09 R291-R297, R307). RETIRE of one
sequence that is parked or `IDLE`: its SID is free, its directory entry is zero, and the command counts it and the pages that it gave back; one
that may not be retired yet waits (09 R298, R299). Rests on the model's choices of log 23. -/
def Obligations.ForksAndRetirementsKeepTheRecords : Prop :=
  (∀ (q : BitVec 6) (n : BitVec 16) (s : State) (j : Job) (z : Slot), Quiet s → Taken s q n 0x22 j → Startable s j → prepFork s j = .ok z →
     (actBefore s j.take j.forkParent = true → exec (.fork q n) s = .next s) ∧
     (∀ (i : Nat) (x : Slot) (spots : List Spot) (s2 : State) (last : Nat) (j2 : Job),
       actBefore s j.take j.forkParent = false → slotOf s j.forkParent = some (i, x) → x.state = 1 →
       let j1 : Job := { j with work := [j.forkParent] }
       let s1 := (setSlotState s i x 3).setJob j1
       let k := j.forkKids
       let sids := freeSids k s1.slots.sids
       let list : Wr := ⟨.t1, fld (j.body 0x18) 0 48, sids.flatMap (leBytes 4), List.replicate (4 * k) false, 32, 0⟩
       slotTurn s1 j1 = true → k ≤ freeSlots s1 → placeAll s1 0 (List.replicate k (x.resid, x.size)) = some spots → sids.getLast? = some last →
       last < 2 ^ 20 → j.hold = ([], []) → makeKids s1 j1 { x with state := 3 } sids spots = some s2 → s2.job j.q j.n = some j2 →
       s2.mon = s.mon →
       let s3 := setSlotState s2 i { x with state := 3, nchild := x.nchild + k, child := sids.headD noSid } 1
       exec (.fork q n) s = .next (pumpWrites (s3.setJob { j2.end with
         wq := j2.wq ++ cutWr s3 j2.stepCmd j.core list
         idx := some 0
         result := sids.headD 0 + k <<< 32 })) ∧
       s3.slots.recs.find i = some { x with state := 1, nchild := x.nchild + k, child := sids.headD noSid })) ∧
  (∀ (q : BitVec 6) (n : BitVec 16) (s : State) (j : Job) (a : Nat), Quiet s → Taken s q n 0x23 j → Startable s j → j.work = [] →
     ownedList s j 0 = .ok [a] → bit (j.body 0x28) 0 = false → bit (j.body 0x28) 1 = false → s.slots.sids.contains a = true →
     (∀ k ∈ s.jobs, k.phase = .done ∨ ∀ m ∈ k.members, m.sid = a → m.phase = .ended) →
     (retirable s false j.take a = true →
       ∃ t y m, exec (.retire q n) s = .next t ∧ t.slots.sids = s.slots.sids.erase a ∧ t.t1 = PMem.clear m (dirAddr s a) 64 ∧
         t.job q.toNat n.toNat = some y ∧ y.phase = .done ∧ y.idx = some 0 ∧ y.result = 1 + (retireSeq s a).1 <<< 32 ∧ t.qs = s.qs ∧
         t.t0 = s.t0) ∧
     (retirable s false j.take a = false → exec (.retire q n) s = .next (s.setJob { j with work := [0, 0, 0], result := 0 })))

/-- PIN and UNPIN write `PIN` of each named sequence and complete; PARK is complete when every named sequence is parked, and
UNPARK when each stands in a slot; PARK of a sequence `IDLE` in its slot takes it to `PARKING`, once no earlier act on it is left, and UNPARK
of a parked one begins its unpark in a free slot (09 R282, R286, R307). Rests on the model's choices of log 23. -/
def Obligations.ListCommandsMoveTheirSequences : Prop :=
  ∀ (q : BitVec 6) (n : BitVec 16) (s : State) (j : Job) (l : List Nat), Quiet s → Taken s q n 0x21 j → Startable s j → j.work = [] →
    ownedList s j 0 = .ok l →
    let sub := fld (j.body 0x28) 0 2
    let done : Job := { j.end with idx := some 0 }
    (∀ c on, (c = .pin q n ∧ sub = 2 ∧ on = true) ∨ (c = .unpin q n ∧ sub = 3 ∧ on = false) →
      (exec c s = .next ((l.foldl (fun s a => match seqRec s a with
        | some x => putSeq s a { x with pin := on }
        | none => s) s).setJob done)) ∧
      (∀ a k x, l = [a] → slotOf s a = some (k, x) →
        exec c s = .next { s.setJob done with slots := { s.slots with recs := s.slots.recs.put k { x with pin := on } } })) ∧
    (sub = 0 → (∀ a ∈ l, slotOf s a = none) → exec (.park q n) s = .next (s.setJob done)) ∧
    (∀ a k x, sub = 0 → l = [a] → slotOf s a = some (k, x) → x.state = 1 → seqBusy s a = false →
      (actBefore s j.take a = false →
        exec (.park q n) s = .next { s.setJob { j with work := [1, a] } with
          slots := { s.slots with recs := s.slots.recs.put k { x with state := 4 }, transit := s.slots.transit.erase k ++ [k] } }) ∧
      (actBefore s j.take a = true → exec (.park q n) s = .next (s.setJob { j with work := [0] }))) ∧
    (sub = 1 → (∀ a ∈ l, ∃ k x, slotOf s a = some (k, x) ∧ x.state ≠ 4 ∧ x.state ≠ 5) →
      exec (.unpark q n) s = .next (s.setJob done)) ∧
    (∀ a x s1, sub = 1 → l = [a] → slotOf s a = none → seqRec s a = some x → x.sid = a → slotTurn s j = true → 1 ≤ freeSlots s →
      startUnpark s a = some s1 →
      exec (.unpark q n) s = .next (s1.setJob { j with slotWait := false, stage := 0, work := [1, a] }))

/-- PARK_COMPLETE of one of the 64 moves that run writes the record to the directory and frees the slot; UNPARK_COMPLETE makes it `IDLE`,
with the copy of record of a `RESIDENT` sequence back in its state store (09 R283, R284). SEQUENCE_BALANCE moves nothing while the fullest and
emptiest cores are less than two apart, nor when no sequence of a fullest core can move, and else the first sequence between steps of a
fullest core to the first emptiest one: a `STREAMED` one by its record alone, a `RESIDENT` one by a copy, which MIGRATION_COMPLETE ends (01
R38; 06 R194, R196; 09 R306). Rests on the model's choices of log 23. -/
def Obligations.ParkedAndMovedSequencesArrive : Prop :=
  (∀ (i : BitVec 12) (s : State) (x : Slot), Quiet s → Awake s → s.slots.recs.find i.toNat = some x →
     (x.state = 4 → x.resid ≠ 1 → moving s i.toNat = true →
       exec (.parkComplete i) s = .next { s with
         t1 := s.t1.put (dirAddr s x.sid) (x.bytes 8)
         slots := { s.slots with recs := s.slots.recs.del i.toNat, transit := s.slots.transit.erase i.toNat } }) ∧
     (x.state = 5 → moving s i.toNat = true →
       let ps := if x.resid = 1 then tab (statePages x) fun k => (x.sid, 2 ^ 24 - statePages x + k) else []
       touchAll s x.core none ps = (true, s) →
       let d := readSpace s x.sid (parkBase x) x.size
       exec (.unparkComplete i) s = .next { s with
         t0 := if x.resid = 1 then s.t0.store (t0Addr x.core 1 0 + copyBase x x.sel) d.1 d.2 else s.t0
         slots := { s.slots with
           recs := s.slots.recs.put i.toNat { x with lastLt := s.life.lt, state := 1 }
           transit := s.slots.transit.erase i.toNat } }) ∧
     (moving s i.toNat = false → exec (.parkComplete i) s = .next s ∧ exec (.unparkComplete i) s = .next s) ∧
     (x.state ≠ 4 → exec (.parkComplete i) s = .next s) ∧ (x.state ≠ 5 → exec (.unparkComplete i) s = .next s)) ∧
  (∀ s : State, Quiet s → Awake s →
    let l := loads s
    let hi := l.foldl max 0
    let lo := l.foldl min hi
    let full := (List.range 256).filter fun c => l.getD c 0 == hi
    let low := (List.range 256).filter fun c => l.getD c 0 == lo
    let ok := full.flatMap fun c => (nextMembers s).filter fun p => p.2.core == c && p.2.state == 1 && !seqBusy s p.2.sid
    (hi < lo + 2 → exec .sequenceBalance s = .next s) ∧
    (lo + 2 ≤ hi →
      (ok = [] → exec .sequenceBalance s = .next s) ∧
      (∀ i x rest c, ok = (i, x) :: rest → low.head? = some c →
        (x.resid ≠ 1 → stageFree s c = true → exec .sequenceBalance s = .next { s with slots := { s.slots with
          recs := s.slots.recs.put i { x with core := c } } }) ∧
        (∀ a b, x.resid = 1 → storeFit s c x.size = some (a, b) →
          exec .sequenceBalance s = .next { s with slots := { s.slots with
            recs := s.slots.recs.put i { x with state := 6 }
            transit := s.slots.transit.erase i
            moveTo := s.slots.moveTo.put i (c, a, b) } }))) ∧
    (∀ (i : BitVec 12) x c a b, s.slots.recs.find i.toNat = some x → s.slots.moveTo.find i.toNat = some (c, a, b) → x.state = 6 →
      s.t0.inj = [] →
      let d := s.t0.fetch (t0Addr x.core 1 0 + copyBase x x.sel) x.size
      exec (.migrationComplete i) s = .next { s with
        t0 := s.t0.store (t0Addr c 1 0 + if x.sel then b else a) d.1 d.2
        slots := { s.slots with
          moveTo := s.slots.moveTo.del i.toNat
          recs := s.slots.recs.put i.toNat { x with core := c, st0 := a, st1 := b, state := 1 }
          transit := s.slots.transit.erase i.toNat } }))

/-! ### Pages and the shelf (10 R308-R332; 11 R343-R373) -/

/-- PAGE: a request whose pages are all skipped completes at once and says how many; a page that can rise or fall starts to, and
the command waits for it (11 R373; 13 R425). EVICTOR: between the levels and with no stall it does nothing; else the clock's
victim, which is eligible and not referenced, falls, and the clock stands behind it (10 R322, R323; 11 R371). Rests on the
model's choices of log 25. -/
def Obligations.PageRequestsAndEvictorMovePages : Prop :=
  (∀ (q : BitVec 6) (n : BitVec 16) (s : State) (j : Job) (sid vpn k : Nat), Taken s q n 0x28 j → Startable s j → j.work = [] →
     prepPage s j = .ok (sid, vpn, k) →
     (bit (j.body 0x28) 0 = false →
       (∀ i, i < k → ∀ d, pageOf s sid (vpn + i) = some d →
         (getDesc s d).state ≠ 2 ∧ ((getDesc s d).state = 4 → (getDesc s d).commit = false)) →
       exec (.pageRise q n) s = .next (s.setJob { j.end with idx := some 0, result := k <<< 32 })) ∧
     (bit (j.body 0x28) 0 = true → (∀ i, i < k → ∀ d, pageOf s sid (vpn + i) = some d → eligible s d = false) →
       exec (.pageFall q n) s = .next (s.setJob { j.end with idx := some 0, result := k <<< 32 })) ∧
     (∀ d s1, bit (j.body 0x28) 0 = false → k = 1 → pageOf s sid vpn = some d → (getDesc s d).state = 2 →
       startRise s d (d % 256) 3 (some (j.q, j.n)) = some s1 → s1.job q.toNat n.toNat = some j → (s1.pg.rises.any fun r => r.d == d) = true →
       exec (.pageRise q n) s = .next (s1.setJob { j with work := [1, 0, d] })) ∧
     (∀ d s1, bit (j.body 0x28) 0 = true → k = 1 → pageOf s sid vpn = some d → eligible s d = true →
       s.pg.falls.length ≤ s.tier.maxFalls → startFall s d 3 (some (j.q, j.n)) = some s1 → s1.job q.toNat n.toNat = some j →
       (s1.pg.falls.any fun f => f.d == d) = true →
       exec (.pageFall q n) s = .next (s1.setJob { j with work := [1, 0, d] }))) ∧
  ((∀ n d e s s', clockScan n d s = (some e, s') → eligible s' e = true ∧ (getDesc s' e).ref = false) ∧
   (∀ s : State, Awake s → s.pg.init = true →
     let s0 : State := { s with tier := { s.tier with reclaim := levels s } }
     (dryStall s = false → levels s = false → exec .evictor s = .next s0) ∧
     (s.tier.maxFalls + 1 ≤ s.pg.falls.length → exec .evictor s = .next s0) ∧
     (∀ d s1 s2, dryStall s0 = true ∨ levels s = true → s.pg.falls.length ≤ s.tier.maxFalls →
       clockScan (2 * s.pg.descCount) s.pg.clock s0 = (some d, s1) → startFall s1 d (if dryStall s0 then 2 else 4) ((dryJob s1).map fun j => (j.q, j.n)) = some s2 →
       exec .evictor s = .next { s2 with pg := { s2.pg with clock := (d + 1) % s2.pg.descCount } })))

/-- FALL_COMMIT: when every byte is acknowledged and no write was lost, the header stands in the side table, the page is `SHELF` and its frame
is free; a fall with a lost write is given up and its page stays `NEAR`, the model's choice (log 13); before that nothing happens.
RISE_COMPLETE: when every byte has come the unfolded page stands in its frame, or the page is `NEAR` with poison, counted and
recorded (10 R320; 11 R351, R357). NEAP_STREAM_DEADLINE: the fetches of a page that wait past their stream deadline take the
neap path; a page that is near, or that has no summary, changes nothing but time (11 R366). Rests on the model's choices of logs 13 and
25. -/
def Obligations.FallsRisesAndNeapFetchesEnd : Prop :=
  (∀ (d : BitVec 28) (s : State),
     (∀ f, (s.pg.falls.find? fun f => f.d == d.toNat) = some f → f.left = 0 → f.cls ≠ 9 →
       let s1 := commitFall s f
       let x := getDesc s1 d.toNat
       exec (.fallCommit d) s = .next (pushFrame (putDesc (dropFall s1 d.toNat) d.toNat { x with state := 2, commit := false, frame := 0 }) x.frame)) ∧
     (∀ f : Fall, f.left = 0 → f.cls ≠ 9 →
       ((getDesc s f.d).commit = true → commitFall s f = s) ∧
       ((getDesc s f.d).commit = false → f.summary = none →
         commitFall s f = putDesc (s.wr (s.tier.sideBase + 32 * f.d) f.header) f.d { getDesc s f.d with commit := true })) ∧
     (∀ f, (s.pg.falls.find? fun f => f.d == d.toNat) = some f → f.left = 0 → f.cls = 9 →
       exec (.fallCommit d) s = .next (putDesc (stopFall s d.toNat) d.toNat { getDesc s d.toNat with state := 1, commit := false, slot := 0 })) ∧
     (∀ f, (s.pg.falls.find? fun f => f.d == d.toNat) = some f → f.left ≠ 0 → exec (.fallCommit d) s = .next s) ∧
     (∀ r, (s.pg.rises.find? fun r => r.d == d.toNat) = some r → r.left ≠ 0 → exec (.riseComplete d) s = .next s) ∧
     (∀ r page, (s.pg.rises.find? fun r => r.d == d.toNat) = some r → r.left = 0 → r.timedOut = false → r.poisoned = false →
       let x := getDesc s d.toNat
       let hdr := (s.t1.fetch (s.tier.sideBase + 32 * d.toNat) 16).1
       unfoldPage (fld (sideWord s d.toNat) 2 3) hdr r.bytes = .ok page → fld (ofLe hdr) 17 2 ≠ 3 →
       let s1 := dropShelf { s with pg := { s.pg with rises := s.pg.rises.filter fun g => g.d != d.toNat } } d.toNat x
       exec (.riseComplete d) s = .next (putDesc { s1 with t1 := s1.t1.store (frameAddr s1 x.frame) page [] } d.toNat
         { x with state := 1, slot := 0 })) ∧
     (∀ r, (s.pg.rises.find? fun r => r.d == d.toNat) = some r → r.left = 0 → r.timedOut = true ∨ r.poisoned = true →
       ∃ t, exec (.riseComplete d) s = .next t ∧ t.tier.foldErr = add64 s.tier.foldErr 1 ∧
         t.flt.count.get 2 0 = add64 (s.flt.count.get 2 0) 1 ∧ t.pg.rises = (s.pg.rises.filter fun g => g.d != d.toNat) ∧ t.t0 = s.t0)) ∧
  (∀ (d : BitVec 28) (lt : Dword) (s : State),
     let s0 := At s lt
     ((getDesc s d.toNat).state = 1 ∨ bit (sideWord s d.toNat) 0 = false → exec (.neapStreamDeadline d lt) s = .next s0) ∧
     ((getDesc s d.toNat).state ≠ 1 → bit (sideWord s d.toNat) 0 = true →
       ∃ t, exec (.neapStreamDeadline d lt) s = .next t ∧ t = { s0 with jobs := t.jobs } ∧ t.jobs.length = s.jobs.length ∧
         ∀ j ∈ s.jobs, j.phase ≠ .done →
           ∃ j' : Job, j' ∈ t.jobs ∧ j' = { j with neaps := j'.neaps, kvWaits := j'.kvWaits } ∧
             (∀ w ∈ j.kvWaits,
               let due := w.2 = d.toNat ∧ ∃ sd, streamDeadline s0 j { sid := w.1 } = some sd ∧ sd ≤ (s0.life.lt : Int)
               (due → (w.1, w.2, fld (sideWord s d.toNat) 8 24) ∈ j'.neaps ∧ w ∉ j'.kvWaits) ∧ (¬ due → w ∈ j'.kvWaits))))

/-! ### The cascade (14 R442-R480) -/

/-- Every message row: a message out of form is logged, one of an earlier attempt or another step is dropped and counted, one
beyond the receive credit is dropped and logged, and one of another known type is not the row's (14 R450, R477; 15 R489, R514).
Rests on the model's choices of log 27. -/
def Obligations.CascadeMessagesAreChecked : Prop :=
  ∀ (m : Msg) (s : State) (c : Instr) (ty : Nat),
    (c, ty) ∈ [(Instr.joinMsg m, 0x01), (.welcomeMsg m, 0x02), (.startMsg m, 0x03), (.refuseMsg m, 0x04), (.arriveMsg m, 0x10),
      (.releaseMsg m, 0x11), (.contrib m, 0x20), (.resultMsg m, 0x21), (.creditMsg m, 0x22), (.nak m, 0x23), (.abandon m, 0x24),
      (.commitMsg m, 0x30), (.repeatMsg m, 0x31), (.repeatAck m, 0x32), (.resumeMsg m, 0x33), (.cascadeHalt m, 0x34),
      (.aperWr m, 0x40), (.aperRd m, 0x41), (.aperData m, 0x42), (.aperAck m, 0x43)] →
    (m.type.toNat ≠ ty → msgTypes.contains m.type.toNat = true → exec c s = .next s) ∧
    (s.life.ready = false → exec c s = .next s) ∧
    (m.type.toNat = ty → s.life.ready = true → s.str.linkRx < msgFlits m →
      exec c s = .next (portViol s 5 0x06 (m.type.toNat + m.src.toNat <<< 8))) ∧
    (m.type.toNat = ty → Awake s → msgFlits m ≤ s.str.linkRx → msgOk m = false →
      exec c s = .next (casViol s 0 m.src.toNat m.tag.toNat (m.arg1.toNat % 2 ^ 24))) ∧
    (m.type.toNat = ty → Awake s → msgFlits m ≤ s.str.linkRx → msgOk m = true → isStale s m = true →
      exec c s = .next { s with cas := { s.cas with staleCount := add64 s.cas.staleCount 1 } })

/-- Forming a group: the headland answers JOIN with WELCOME, or with REFUSE where the fields differ, and with the last rank the
group is `READY`; an engine waits for START, joins again every 100,000 LT, and is `HALTED` by REFUSE; alone it is `READY` at
once (14 R442-R444). Rests on the model's choices of log 27. -/
def Obligations.GroupsFormByJoining : Prop :=
  (∀ (m : Msg) (s : State), Receives s 0x01 m → LinkFree s → s.cas.enable = true → s.cas.rank = 0 → s.cas.state = 1 →
    let r := m.src.toNat
    let answer (ty a : Nat) : Msg := { mkMsg s ty r 0 0 a 0 [] with link := m.link }
    let same := fld m.arg0.toNat 0 8 = s.cas.size ∧ fld m.arg0.toNat 8 4 = s.cas.fanin ∧ fld m.arg0.toNat 16 6 = s.cas.commitBar
    (same → 0 < r → r < s.cas.ranks → (s.cas.joined.any fun p => p.1 == r) = false → s.cas.joined.length + 2 ≠ s.cas.ranks →
      exec (.joinMsg m) s = .next { SentOne s (answer 0x02 0) with cas := { s.cas with
        joined := insertBy (fun (a b : Nat × Nat) => decide (a.1 < b.1)) (r, m.link.toNat) s.cas.joined } }) ∧
    (same → 0 < r → r < s.cas.ranks → (s.cas.joined.any fun p => p.1 == r) = false → s.cas.joined.length + 2 = s.cas.ranks →
      ∃ t, exec (.joinMsg m) s = .next t ∧ t.cas.state = 2 ∧ t.cas.credit = 256 ∧ t.cas.resumed = true ∧ t.cas.base = s.life.lt) ∧
    (¬ same → ∃ t, exec (.joinMsg m) s = .next t ∧ t.sent = s.sent ++ [answer 0x04 5] ∧ t.cas = s.cas)) ∧
  (∀ (m : Msg) (s : State), s.cas.state = 1 →
    (Receives s 0x02 m → exec (.welcomeMsg m) s = .next { s with cas := { s.cas with welcomed := true } }) ∧
    (Receives s 0x03 m → ∃ t, exec (.startMsg m) s = .next t ∧ t.cas.state = 2 ∧ t.cas.credit = 256 ∧ t.cas.base = s.life.lt ∧
      (∀ b, (t.sync.bars.get b {}).gen = 0) ∧ t = { s with cas := t.cas, sync := t.sync }) ∧
    (Receives s 0x04 m → ∃ t, exec (.refuseMsg m) s = .next t ∧ t.cas.state = 4 ∧
      t.flt.count.get 8 0 = add64 (s.flt.count.get 8 0) 1)) ∧
  (∀ (lt : Dword) (s : State), LinkFree s → s.life.ready = true → s.cas.state = 1 → s.cas.rank ≠ 0 → s.cas.welcomed = false →
    let s0 := At s lt
    (s0.life.lt < s.cas.joinLt + 100000 → exec (.joinRetry lt) s = .next s0) ∧
    (s.cas.joinLt + 100000 ≤ s0.life.lt →
      ∃ m, exec (.joinRetry lt) s = .next (SentOne { s0 with cas := { s0.cas with joinLt := s0.life.lt } } m) ∧ m.type = 1 ∧ m.dst = 0)) ∧
  (∀ (v : Word) (s : State), Reaches s 0xA000 → s.life.ready = true →
    (s.cas.enable = false → fld v.toNat 16 8 = 0 → pairsOverlap s = false →
      ∃ t, exec (.casEnable v) s = .next t ∧ t.cas.enable = true ∧ t.cas.rank = fld v.toNat 8 8 ∧ t.cas.size = 0 ∧ t.cas.state = 2) ∧
    (s.cas.enable = true → ∃ t, exec .casDisable s = .next t ∧ t.cas.enable = false ∧ t.cas.state = 0 ∧ t.cas.buckets = []))

/-- Cascade barriers: the headland counts an ARRIVE for the generation in progress or a later one once, an earlier one is stale;
RELEASE of the generation that waits for it starts the next one (14 R453). Rests on the model's choices of log 27. -/
def Obligations.CascadeBarriersRelease : Prop :=
  ∀ (m : Msg) (s : State), isMember s m = true →
    let b := fld m.arg0.toNat 0 6
    let g := fld m.arg0.toNat 8 24
    let k := s.sync.bars.get b {}
    (Receives s 0x10 m → notBefore g k.gen = false →
      exec (.arriveMsg m) s = .next { s with cas := { s.cas with staleCount := add64 s.cas.staleCount 1 } }) ∧
    (Receives s 0x10 m → notBefore g k.gen = true → k.heard.contains (m.src.toNat, g) = true → exec (.arriveMsg m) s = .next s) ∧
    (Receives s 0x10 m → notBefore g k.gen = true → k.heard.contains (m.src.toNat, g) = false → k.sent = false →
      exec (.arriveMsg m) s = .next { s with sync := { s.sync with bars := s.sync.bars.put b { k with heard := (m.src.toNat, g) :: k.heard } } }) ∧
    (Receives s 0x11 m → k.sent = true → k.gen = g →
      ∃ t, exec (.releaseMsg m) s = .next t ∧ (t.sync.bars.get b {}).arrivals = [] ∧ (t.sync.bars.get b {}).count = 0 ∧
        (t.sync.bars.get b {}).sent = false ∧ (t.sync.bars.get b {}).gen = (if k.cascade then (g + 1) % 2 ^ 24 else g) ∧
        t = { s with jobs := t.jobs, sync := t.sync }) ∧
    (Receives s 0x11 m → ¬ (k.sent = true ∧ k.gen = g) →
      exec (.releaseMsg m) s = .next { s with cas := { s.cas with staleCount := add64 s.cas.staleCount 1 } })

/-- REDUCE opens a bucket under its tag and waits to commit one tile for each chunk; it waits while the tag is held up, and one that fails a
check is rejected (14 R456-R458). CONTRIB: a child's term is held for its chunk until this engine's own term and every child's are there and the
bucket is open, when the adder acts on the chunk, once; a second term of the same child is logged and counted, and one for a tag that is no step
tag is refused (14 R459-R461, R477). CREDIT adds to the credit, and the chunks that waited for it go (14 R459). RESULT goes to the children and
to the destination: at an engine without children the chunk's bytes wait as writes of the bucket's command, which takes its flags, and with the
last chunk the bucket is gone and its tag is done; a repeated one is ignored (14 R461, R464). NAK is logged and the transfer or contribution
that it refuses ends: that of a CONTRIB ends the bucket's command as MALFORMED, once for a tag and attempt (14 R448, R452). Rests on the model's
choices of log 27. -/
def Obligations.ReductionsTravelTheTree : Prop :=
  (∀ (q : BitVec 6) (n : BitVec 16) (s : State) (j : Job), Quiet s → Taken s q n 0x38 j → Startable s j →
     (∀ b, chkReduce s j = .error b → exec (.reduce q n) s = .next (reject s j b.cause b.detail b.aux)) ∧
     (∀ src dst, chkReduce s j = .ok (src, dst) →
       let word := j.body 0x10
       let tag := fld word 0 8
       (bucketWaits s word = true → exec (.reduce q n) s = .next ((s.served j).setJob { j with tagWait := true })) ∧
       (bucketWaits s word = false → AtHand (s.served j) j j.ctx (reduceParts src) → src.list = false →
         let s0 := openBucket (s.served j) j word
         ∃ t y, exec (.reduce q n) s = .next t ∧ t.job q.toNat n.toNat = some y ∧ y.phase = .running ∧ y.tagWait = false ∧
           y.attempt = s.cas.attempt ∧ y.tiles.length = cdiv src.count 256 ∧ y.total = cdiv src.count 256 ∧ y.finished = 0 ∧
           t.cas.buckets = s.cas.buckets ++ [⟨tag, j.q, j.n, bit word 8, fld word 9 3, btCount s tag, cdiv (btCount s tag) 256⟩] ∧
           t = { s0 with jobs := t.jobs }))) ∧
  (∀ (m : Msg) (s : State), isMember s m = true →
     let tag := m.tag.toNat
     let num := msgChunk m
     let c := chunkOf s tag num
     (Receives s 0x20 m → s.cas.children.contains m.src.toNat = true → bit s.cas.stepMask tag = true → btCount s tag ≠ 0 →
       modeBad s m = false →
       ((c.terms.any fun t => t.rank == m.src.toNat) = true →
         exec (.contrib m) s = .next (casViol { s with cas := { s.cas with dupCount := add64 s.cas.dupCount 1 } } 0 m.src.toNat tag num)) ∧
       ((c.terms.any fun t => t.rank == m.src.toNat) = false →
         let x : Term := ⟨m.src.toNat, readChunk (bit (msgMode m) 0) (bit m.mflags.toNat 4) (chunkLen (btCount s tag) num) m.payload,
           msgFlags m, bit m.mflags.toNat 5, msgMode m⟩
         let terms := c.terms ++ [x]
         let s1 := putChunk s { c with terms := terms }
         let all := ∀ r ∈ s.cas.rank :: s.cas.children, ∃ t ∈ terms, t.rank = r
         exec (.contrib m) s = .next (actChunk s1 tag num) ∧ s1 = { s with cas := { s.cas with chunks := s1.cas.chunks } } ∧
           (chunkOf s1 tag num).terms = terms ∧
           (bucketOf s tag = none ∨ ¬ all ∨ c.sent = true → actChunk s1 tag num = s1) ∧
           (bucketOf s tag ≠ none → all → s.cas.rank ≠ 0 → (chunkOf (actChunk s1 tag num) tag num).sent = true))) ∧
     (Receives s 0x20 m → s.cas.children.contains m.src.toNat = true → bit s.cas.stepMask tag = false → LinkFree s →
       ∃ x, exec (.contrib m) s = .next (SentOne s x) ∧ x.type = 0x23 ∧ x.arg0 = 1) ∧
     (Receives s 0x22 m → s.cas.rank ≠ 0 → m.src.toNat = s.cas.parent →
       let s1 := { s with cas := { s.cas with credit := s.cas.credit + m.arg0.toNat } }
       exec (.creditMsg m) s = .next (pumpUp s1) ∧ (s.cas.pendingUp = [] → pumpUp s1 = s1)) ∧
     (∀ b, Receives s 0x21 m → s.cas.rank ≠ 0 → m.src.toNat = s.cas.parent → bucketOf s tag = some b → modeBad s m = false →
       (c.got = true → exec (.resultMsg m) s = .next s) ∧
       (c.got = false →
         let s1 := putChunk s { c with got := true }
         let vals := readChunk b.priv (bit m.mflags.toNat 4) (chunkLen b.count num) m.payload
         let poison := bit m.mflags.toNat 5
         let t := deliver s1 tag num b vals (msgFlags m) poison m.mflags.toNat
         exec (.resultMsg m) s = .next t ∧
         (∀ j dst, s.cas.children = [] → s.job b.q b.n = some j →
           tensor s1 j.ctx .any (if j.op = 0x38 then j.body 8 else j.body 0x10) = .ok dst → dst.list = false → dst.space = 0 →
           let w := dst.fmt.bits / 8
           let bytes := vals.flatMap fun v =>
             let c := wire32 b.priv (v.getD 0)
             leBytes w (if dst.fmt = .bf16 then (f32ToIeee ieeeBf false c).1 else c)
           ∃ s2 y, t = pumpWrites s2 ∧ s2.job b.q b.n = some y ∧ y.fl = j.fl ||| msgFlags m ∧
             y.wq = j.wq ++ cutWr s j.stepCmd 0 ⟨.t1, dst.addr + 256 * num * w, bytes, bytes.map fun _ => poison, dst.fmt.bits, 0⟩ ∧
             s2.flg.eng = s.flg.eng ||| msgFlags m ∧
             (b.left ≤ 1 → tag ∈ s2.cas.doneTags ∧ s2.cas.buckets = s.cas.buckets.filter fun x => x.tag != tag) ∧
             (1 < b.left → s2.cas.doneTags = s.cas.doneTags ∧
               s2.cas.buckets = s.cas.buckets.map fun x => if x.tag == tag then { b with left := b.left - 1 } else x))))) ∧
  (∀ (m : Msg) (s : State), Receives s 0x23 m →
     let ty := fld m.arg1.toNat 0 8
     let tag := m.tag.toNat
     let key := (tag, s.cas.attempt)
     let s1 := casViolOf s (nakCmd s m) (m.arg0.toNat % 256) m.src.toNat tag (fld m.arg1.toNat 8 24)
     (ty ≠ 0x20 → ty ≠ 0x40 → ty ≠ 0x41 → exec (.nak m) s = .next s1) ∧
     (ty = 0x40 → exec (.nak m) s = .next (nakAper s1 m true)) ∧
     (ty = 0x41 → exec (.nak m) s = .next (nakAper s1 m false)) ∧
     (ty = 0x20 → s.cas.nakked.contains key = true → exec (.nak m) s = .next s) ∧
     (ty = 0x20 → s.cas.nakked.contains key = false → bucketOf s tag = none → exec (.nak m) s = .next s1) ∧
     (∀ b, ty = 0x20 → s.cas.nakked.contains key = false → bucketOf s tag = some b →
       exec (.nak m) s = .next (endJob { s1 with cas := { s1.cas with nakked := key :: s1.cas.nakked } } b.q b.n 4)))

/-- COMMIT advances the step modulo 2^32, saves the semaphores of the mask, resets the attempt and forgets the attempt's chunks
and tags; the headland commits once every rank has arrived and every step tag has its result (14 R473). Rests on the model's
choices of log 27. -/
def Obligations.StepsCommit : Prop :=
  (∀ (m : Msg) (s : State), Receives s 0x30 m → isMember s m = true → s.mon.trOn = false →
    (s.sync.bars.get s.cas.commitBar {}).sent = false →
    ∃ t, exec (.commitMsg m) s = .next t ∧ t.cas.step = (s.cas.step + 1) % 2 ^ 32 ∧ t.cas.attempt = 0 ∧ t.cas.consec = 0 ∧
      t.cas.base = s.life.lt ∧ t.cas.doneTags = [] ∧ t.cas.chunks = [] ∧ t.cas.pendingUp = [] ∧
      (∀ i, i < 64 → bit s.cas.semmask i = true → t.cas.semSaved.get i 0 = s.sync.sem.get i 0) ∧
      t = { s with cas := t.cas, evt := t.evt }) ∧
  (∀ s : State, Awake s →
    let b := s.cas.commitBar
    let full := s.cas.state = 2 ∧ s.cas.rank = 0 ∧ s.cas.commitEn = true ∧ (s.sync.bars.get b {}).sent = true ∧ allHeard s b = true ∧
      tagsLeft s = []
    (full → ∃ t, exec .stepCommit s = .next t ∧ t.cas.step = (s.cas.step + 1) % 2 ^ 32 ∧ t.cas.attempt = 0 ∧
      (t.sync.bars.get b {}).arrivals = [] ∧ (t.sync.bars.get b {}).sent = false ∧ t.qs = s.qs ∧ t.t0 = s.t0) ∧
    (¬ full → exec .stepCommit s = .next s))

/-- REPEAT at a rank: the new attempt, the state `REPEATING`, no chunk, tag or bucket of the attempt, and the saved semaphores;
RESUME and the last REPEAT_ACK let the new attempt flow; HALT stops the group (14 R475, R478). STEP_REPEAT past the reduction
deadline, and ABANDON at once: the headland counts a repeat and takes the next attempt, or halts the group after the maximum of
repeats in a row (14 R474, R475, R478). Rests on the model's choices of log 27. -/
def Obligations.RepeatsRollBackAndResume : Prop :=
  (∀ (m : Msg) (s : State),
     (Receives s 0x31 m → isMember s m = true → s.cas.attempt < m.attempt.toNat →
       ∃ t, exec (.repeatMsg m) s = .next t ∧ t.cas.state = 3 ∧ t.cas.resumed = false ∧ t.cas.attempt = m.attempt.toNat ∧
         t.cas.doneTags = [] ∧ t.cas.chunks = [] ∧ t.cas.buckets = [] ∧ t.cas.step = s.cas.step ∧
         (∀ i, i < 64 → bit s.cas.semmask i = true → t.sync.sem.get i 0 = s.cas.semSaved.get i 0 % 2 ^ 32)) ∧
     (Receives s 0x33 m → s.cas.state = 3 → s.cas.rank ≠ 0 →
       ∃ t, exec (.resumeMsg m) s = .next t ∧ t.cas.state = 2 ∧ t.cas.resumed = true ∧ t.cas.base = s.life.lt ∧
         t.cas.attempt = s.cas.attempt) ∧
     (Receives s 0x32 m → s.cas.state = 3 → s.cas.rank = 0 →
       let acks := m.src.toNat :: s.cas.acks.erase m.src.toNat
       (((others s).all fun r => acks.contains r) = false →
         exec (.repeatAck m) s = .next { s with cas := { s.cas with acks := acks } }) ∧
       (((others s).all fun r => acks.contains r) = true →
         ∃ t, exec (.repeatAck m) s = .next t ∧ t.cas.state = 2 ∧ t.cas.resumed = true)) ∧
     (Receives s 0x34 m → s.cas.state = 2 ∨ s.cas.state = 3 →
       ∃ t, exec (.cascadeHalt m) s = .next t ∧ t.cas.state = 4 ∧ t.cas.resumed = true ∧ t.cas.buckets = [] ∧ t.cas.step = s.cas.step)) ∧
  (∀ (s s0 : State) (c : Instr), Awake s → s.cas.state = 2 → s.cas.rank = 0 → s.cas.commitEn = true → 1 < s.cas.ranks →
     ((∃ lt : Dword, c = .stepRepeat lt ∧ s0 = At s lt ∧
         (s.cas.abandoned = true ∨ (s.cas.window ≠ 0 ∧ s.cas.base + s.cas.window ≤ s0.life.lt ∧ tagsLeft s ≠ []))) ∨
       (∃ m, c = .abandon m ∧ s0 = s ∧ Receives s 0x24 m ∧ isMember s m = true)) →
     (s.cas.consec < max s.cas.repeatMax 1 →
       ∃ t, exec c s = .next t ∧ t.cas.attempt = (s.cas.attempt + 1) % 256 ∧ t.cas.repeatCount = add64 s.cas.repeatCount 1 ∧
         t.cas.consec = s.cas.consec + 1 ∧ t.cas.state = 3 ∧ t.cas.resumed = false ∧ t.cas.step = s.cas.step) ∧
     (max s.cas.repeatMax 1 ≤ s.cas.consec → ∃ t, exec c s = .next t ∧ t.cas.state = 4 ∧ t.cas.step = s.cas.step))

/-- The aperture: a write in the window is stored and acknowledged, a read is answered with its bytes, one out of range is
refused; an answer of a tag in flight lands its bytes for the command that reads, or frees the write's tag (14 R447, R448).
Where in T0 they land is the model's choice (log 6); rests on the model's choices of log 27 too. -/
def Obligations.AperturesReadAndWrite : Prop :=
  (∀ (m : Msg) (s : State), isMember s m = true → LinkFree s →
    let a := s.cas.aperBase + msgOff m
    let inside := msgOff m + m.len.toNat ≤ s.cas.aperSize
    (Receives s 0x40 m → inside → bit m.mflags.toNat 5 = false →
      ∃ x, exec (.aperWr m) s = .next (SentOne { s with t1 := s.t1.put a m.payload } x) ∧ x.type = 0x43 ∧ x.dst = m.src ∧
        x.arg0 = m.arg0 ∧ x.arg1 = m.arg1) ∧
    (Receives s 0x41 m → inside →
      ∃ x, exec (.aperRd m) s = .next (SentOne s x) ∧ x.type = 0x42 ∧ x.payload = (s.t1.fetch a m.len.toNat).1 ∧ x.arg1 = m.arg1) ∧
    (¬ inside → ∀ c, (c = .aperWr m ∧ Receives s 0x40 m) ∨ (c = .aperRd m ∧ Receives s 0x41 m) →
      ∃ x, exec c s = .next (SentOne s x) ∧ x.type = 0x23 ∧ x.arg0 = 4)) ∧
  (∀ (m : Msg) (s : State) (t : Tag),
    let id := aperId m
    let core := fld id 11 8
    let key := tagKey core (fld id 2 9)
    s.str.gens.get key 0 = fld id 0 2 → s.str.tags.find key = some t → t.sent = true → t.chan = .aper m.src.toNat → NothingWaits s →
    (Receives s 0x43 m → t.write = true → (∀ d, t.use ≠ .fall d) →
      exec (.aperAck m) s = .next { s with str := { s.str with tags := s.str.tags.del key } }) ∧
    (∀ q n u j, Receives s 0x42 m → t.write = false → t.bad = false → s.mon.inj = [] → t.use = .fetch q n u → s.job q n = some j →
      m.payload.length = t.len → bit m.mflags.toNat 5 = false →
      ∃ s', exec (.aperData m) s = .next s' ∧ s'.str.tags = s.str.tags.del key ∧
        s'.jobs = (s.setJob { j with fetched := j.fetched ++ t.span.zipIdx.map fun v =>
          let sp := unitSpan t v.1
          ⟨u, core, sp.1, (m.payload.drop (sp.1 - t.addr)).take (sp.2 - sp.1), false, landNext s core t.stage + v.2, t.stage⟩ }).jobs ∧
        s' = { s with jobs := s'.jobs, str := s'.str, t0 := s'.t0 }))

/-! ### Commits, completion, deadlines (03 R98; 13 R422-R433) -/

/-- TILE_COMMIT: a command's front tile whose work items have all run commits; its flags are OR-ed into the sticky flags, its poison is
counted, and the committed index and the record's flags move on over the tiles that have committed without a gap (03 R98-R100; 13 R423, R425).
Its last item runs on the core that takes it next, with its operands landed, and the tile then commits; with no such core nothing happens (01
R34, R36). Rests on the model's choices of logs 5 and 6. -/
def Obligations.TilesCommitInOrder : Prop :=
  ∀ (q : BitVec 6) (n : BitVec 16) (s : State) (j : Job), s.job q.toNat n.toNat = some j → j.op ≠ 0x0A → j.phase = .running →
    (j.tiles = [] → exec (.tileCommit q n) s = .next s) ∧
    (∀ t rest, j.tiles = t :: rest →
      (tileItems s j t = [] → t.contrib = [] → j.stepCmd = false → NothingWaits s → j.hold = ([], []) →
        (∀ w ∈ t.wr, (∃ c, w.place = .store c) ∨ (w.place = .t1 ∧ w.addr + w.data.length ≤ 2 ^ 47)) →
        ∃ s' y, exec (.tileCommit q n) s = .next s' ∧ s'.job q.toNat n.toNat = some y ∧ y.tiles = rest ∧ y.finished = j.finished + 1 ∧
          y.fl = (j.commitUnit t.num t.index t.rep.fl).fl ∧ y.poison = sat32 j.poison t.poison ∧
          y.idx = (j.commitUnit t.num t.index t.rep.fl).idx ∧
          s'.flg.eng = s.flg.eng ||| t.rep.fl ∧ s'.qs = s.qs ∧ s'.tbl = s.tbl ∧ s'.pwr = s.pwr) ∧
      (∀ c it, tileItems s j t = [(c, it)] → s.coreStopped c = false → s.nextItem c = some it → landedOn s j t.unit c = true →
        let own (u : Tile) : Tile := if u.unit == t.unit && t.items.length == 1 then { u with core := c } else u
        let j1 : Job := { j with tiles := j.tiles.map own }
        let s1 := (s.setCore c { (s.core c).without it with idleSince := 0 }).setJob j1
        exec (.tileCommit q n) s = .next (commitTile s1 j1 (own t) (rest.map own))) ∧
      (tileItems s j t ≠ [] →
        (∀ p ∈ tileItems s j t, s.coreStopped p.1 = true ∨ s.nextItem p.1 ≠ some p.2 ∨ landedOn s j t.unit p.1 = false) →
        exec (.tileCommit q n) s = .next s))

/-- COMPLETION_RECORD: the 32-byte record of a finished command stands at the ring's next place and no other byte of T1 changes,
the tail moves on modulo 2^16, the command is gone; for a command with work left nothing is recorded (13 R422, R423); the stream unit may then
fetch ahead for the queue (12 R381). DEADLINE_MISS: a
command past its deadline records one fault and runs on with its status, or is ended on an abort-on-miss queue; up to its
deadline only time passes (13 R430-R433). Rests on the model's choices of logs 1 and 6. -/
def Obligations.CompletionsAndMissesAreRecorded : Prop :=
  (∀ (q : BitVec 6) (n : BitVec 16) (s : State) (j : Job), s.job q.toNat n.toNat = some j →
     (recordReady s j = false → exec (.completionRecord q n) s = .next (fetchAhead s q.toNat)) ∧
     (recordReady s j = true → Awake s → Quiet s → j.members = [] → j.deadline = 0 → j.hold = ([], []) →
       let k := s.queue q.toNat
       let a := k.cpl + 32 * (k.cplTail % 2 ^ k.log2)
       ∃ t, exec (.completionRecord q n) s = .next (fetchAhead t q.toNat) ∧ t.t1 = s.t1.put a (recordBytes s k j) ∧
         (recordBytes s k j).length = 32 ∧
         (∀ x, x < a ∨ a + 32 ≤ x → t.t1.bytes.get x = s.t1.bytes.get x) ∧
         t.queue q.toNat = { k with cplTail := (k.cplTail + 1) % 65536 } ∧ (∀ p, p ≠ q.toNat → t.queue p = s.queue p) ∧
         t.jobs = (s.jobs.filter fun x => x.take != j.take) ∧ t.flg.eng = s.flg.eng ∧
         t = { s with t1 := t.t1, qs := t.qs, jobs := t.jobs, flg := t.flg, evt := t.evt })) ∧
  (∀ (q : BitVec 6) (n : BitVec 16) (lt : Dword) (s : State) (j : Job), s.job q.toNat n.toNat = some j → j.members = [] →
     j.phase = .waiting → j.status = 0 → s.mon.trOn = false →
     let s0 := At s lt
     (j.deadline = 0 ∨ s0.life.lt ≤ j.deadline → exec (.deadlineMiss q n lt) s = .next s0) ∧
     (j.deadline ≠ 0 → j.deadline < s0.life.lt → j.missed = false →
       ∃ t y, exec (.deadlineMiss q n lt) s = .next t ∧ t.job q.toNat n.toNat = some y ∧ y.missed = true ∧
         t.flt.count.get 1 0 = add64 (s.flt.count.get 1 0) 1 ∧ (j.abort = false → y.status = 1 ∧ y.phase = .waiting ∧ t.t1 = s.t1) ∧
         (j.abort = true → y.status = 2 ∧ y.phase = .done)))

/-- ATTN: one that fails a check is rejected. With its members `IDLE` in slots, and its pages, keys, values and operands at hand, it runs its
members in set order, each member's keys and values written before its rows are computed; it then runs, every member issued, with the rows as
tiles that wait for their commits and their blocks as items on the cores, and a member without a row left has its outcome. With too few pages
to be had it keeps those that it took and stalls (10 R327, R334-R339; 13 R419, R425). Rests on the model's choices of logs 5 and 24. -/
def Obligations.AttentionRunsItsMembers : Prop :=
  (∀ (q : BitVec 6) (n : BitVec 16) (s : State) (j : Job), Quiet s → Startable s j → Taken s q n 0x0A j →
    (∀ b, prepAttn s j.ctx j.members.isEmpty j.cmd = .error b → exec (.attn q n) s = .next (reject s j b.cause b.detail b.aux)) ∧
    (∀ o, prepAttn s j.ctx j.members.isEmpty j.cmd = .ok o → o.compat = false → j.members = [] → j.hold = ([], []) →
      let ms := o.sids.map (memberOf s)
      let j1 : Job := { j with members := ms, total := ms.length, finished := 0 }
      let s1 := (s.served j).setJob j1
      bringIn s1 j1 o.sids = (true, s1) → attnReach s1 j1 o ms = (true, s1) → AtHand s1 j1 j.ctx (o.allParts s1 j1 ms) →
      (∀ s2 ts f j2, attnMembers s1 j1 o ms.zipIdx = some (s2, ts, f) → s2.job q.toNat n.toNat = some j2 → s2.mon = s.mon → ts ≠ [] →
        let issued := ms.map fun m => { m with phase := .issued, neap := !(neapPages s2 j2 m.sid (o.pages m.pos)).isEmpty }
        let j3 : Job := { ({ j2 with members := issued } : Job).run ts with fail := f }
        let s3 := placeTiles (s2.setJob j3) j.q j.n ts
        exec (.attn q n) s = .next (pumpWrites (settle (endRows s3 j.q j.n) j.q j.n)) ∧
        s3.job q.toNat n.toNat = some j3 ∧ j3.phase = .running ∧ j3.tiles = ts ∧ j3.finished = 0 ∧
        ((∀ i, i < ms.length → ∃ t ∈ ts, t.num / j2.memberRows = i) → settle (endRows s3 j.q j.n) j.q j.n = s3)) ∧
      (∀ h s2 j2, attnMembers s1 j1 o ms.zipIdx = none →
        growHold (fun s => (attnMembers s j1 o ms.zipIdx).map fun r => (r.1, r.2)) s1.pg.free s1 ([], []) = (none, h, s2) →
        s2.job q.toNat n.toNat = some j2 → exec (.attn q n) s = .next (s2.setJob { j2 with hold := h, dry := true })))) ∧
  (∀ (s : State) (j : Job) (o : AttnOp) (m : Member) (i : Nat) (l : List (Member × Nat)), m.phase ≠ .ended →
    attnMembers s j o ((m, i) :: l) =
      (writeRuns true j.q j.n m.core o.kvCode s (kvWrites s j.ctx o i m.sid m.pos)).bind fun s1 =>
        let reads := o.pages m.pos
        let s2 := countNeaps (logUnmapped s1 j.loc (reads.map fun v => (m.sid, v))) j.q j.n
          (neapPages (logUnmapped s1 j.loc (reads.map fun v => (m.sid, v))) j m.sid reads).length
        let t := attnTiles s2 j.ctx o j i m.sid m.pos m.core
        match t.2 with
        | some f => some (s2, t.1, some f)
        | none => (attnMembers s2 j o l).map fun r => (r.1, t.1 ++ r.2.1, r.2.2))

/-! ### Rails, power states, telemetry (15 R492, R493; 16 R525-R539) -/

/-- The setpoint handshake: the engine drives the next setpoint wanted and raises VREQ, takes the setpoint as in force when VACK
rises and lowers VREQ, and is ready for the next when VACK has fallen; a phase that overruns 100,000 LT is a power fault and
holds VREQ (15 R493, R514). Rests on the model's choices of log 29. -/
def Obligations.SetpointsShakeHands : Prop :=
  ∀ s : State, PinsReach s →
    (s.pwr.vreq = true ∨ s.pwr.vack = true → exec .setpointChange s = .next s) ∧
    (∀ sel code rest, s.pwr.vreq = false → s.pwr.vack = false → s.pwr.want = (sel, code) :: rest →
      exec .setpointChange s = .next { s with pwr := { s.pwr with
        want := rest
        vsel := sel
        vset := code
        vreq := true
        hsLt := s.life.lt
        late := false
        asking := none } }) ∧
    (s.pwr.vack = false → s.pwr.vreq = true → s.mon.inj = [] → s.mon.trOn = false → s.pwr.move = none →
      exec .vackRise s = .next { s with pwr := { s.pwr with
        vackPin := true
        rails := s.pwr.rails.put s.pwr.vsel s.pwr.vset
        op := s.pwr.asking.getD s.pwr.op
        asking := none
        vreq := false
        vack := true
        ackInj := false
        late := false
        hsLt := s.life.lt } }) ∧
    (s.pwr.vack = false → s.pwr.vreq = false →
      exec .vackRise s = .next (portViol { s with pwr := { s.pwr with vackPin := true } } 7 0x09 (railWord s))) ∧
    (s.pwr.vack = true →
      exec .vackFall s = .next { s with pwr := { s.pwr with vackPin := false, vack := false, late := false } }) ∧
    (∀ lt : Dword, s.pwr.vreq = true ∨ s.pwr.vack = true → s.pwr.late = false → s.pwr.hsLt + 100000 ≤ (At s lt).life.lt →
      ∃ t, exec (.vackLate lt) s = .next t ∧ t.pwr.late = true ∧ t.pwr.vreq = s.pwr.vreq ∧ t.pwr.rails = s.pwr.rails ∧
        t.flt.count.get 4 0 = add64 (s.flt.count.get 4 0) 1) ∧
    (∀ lt : Dword, (At s lt).life.lt < s.pwr.hsLt + 100000 → exec (.vackLate lt) s = .next (At s lt))

/-- The thermal limit falls by one while the hottest sensor stands at HI, at most once in 1,000,000 LT, and rises by one after
1,000,000 LT at LO; the telemetry takes the readings, and a slow cluster's window counts; a scrubbed row without errors changes
no word; calibration changes only time (16 R526, R527, R536, R537, R539). Rests on the model's choices of logs 12 and 29. -/
def Obligations.TelemetryFollowsTheSensors : Prop :=
  ∀ (s : State) (lt : Dword), s.life.rstLow = false →
    let s0 := At s lt
    (s.pwr.stepdown = true → ((8 * s.pwr.tempHi : Nat) : Int) ≤ (hottest s).2 → (∀ t, s.pwr.lastStep = some t → t + 1000000 ≤ s0.life.lt) →
      s.pwr.thermalLimit ≠ 0 →
      ∃ t, exec (.thermalStepdown lt) s = .next t ∧ t.pwr.thermalLimit = s.pwr.thermalLimit - 1 ∧ t.pwr.lastStep = some s0.life.lt ∧
        t = { s0 with pwr := t.pwr }) ∧
    (s.pwr.stepdown = false ∨ (hottest s).2 < ((8 * s.pwr.tempHi : Nat) : Int) → exec (.thermalStepdown lt) s = .next s0) ∧
    (∀ a, s.pwr.loSince = some a → s.pwr.thermalLimit < 2 →
      (a + 1000000 ≤ s0.life.lt → ∃ t, exec (.thermalStepup lt) s = .next t ∧ t.pwr.thermalLimit = s.pwr.thermalLimit + 1 ∧
        t.pwr.loSince = some s0.life.lt ∧ t = { s0 with pwr := t.pwr }) ∧
      (s0.life.lt < a + 1000000 → exec (.thermalStepup lt) s = .next s0)) ∧
    (∀ temps power, s.pwr.telLt + 1000 ≤ s0.life.lt →
      ∃ t, exec (.telemetryUpdate lt temps power) s = .next t ∧ t.pwr.temp = readings temps ∧ t.pwr.est = power.toNat ∧
        t.pwr.telLt = s0.life.lt ∧
        t.pwr.energy = add64 s.pwr.energy ((s.pwr.energyRem + power.toNat * (s0.life.lt - s.pwr.telLt)) / 100000) ∧
        t = { s0 with pwr := t.pwr }) ∧
    (∀ rates, ∃ t, exec (.beatRateWindow lt rates) s = .next t ∧ t.pwr.beat = readings rates ∧
      t.pwr.slow = add64 s.pwr.slow (1000 * ((rates.take 16).filter fun r => decide (r.toNat < opRate s s.pwr.op)).length) ∧
      t = { s0 with pwr := t.pwr }) ∧
    exec (.calibration lt) s = .next s0 ∧
    (∀ c : BitVec 8, s.life.ready = true → s.pwr.scrubRate ≠ 0 → s.pwr.state ≤ 2 →
      (s.core c.toNat).scrubLt + s.pwr.scrubRate ≤ s0.life.lt →
      badWords s.t0 (c.toNat * 2 ^ 21 + 64 * (s.core c.toNat).scrubRow) 64 = [] →
      ∃ t, exec (.scrub c lt) s = .next t ∧ (t.core c.toNat).scrubRow = ((s.core c.toNat).scrubRow + 1) % 32768 ∧
        (t.core c.toNat).scrubLt = s0.life.lt ∧ t.t0 = s.t0 ∧ t = { s0 with cores := t.cores, pwr := t.pwr })

/-- Power states: a quiescent engine begins to enter the state that its gap allows, one that is not stays; a timed wake begins
at the event less the wake time; a move completes once its time is over and its rails are in force, and S3 and S4 lose the
scratchpads (16 R528-R535). Rests on the model's choices of log 29. -/
def Obligations.PowerStatesFollowTheGap : Prop :=
  ∀ s : State,
    (s.life.ready = true → s.pwr.move = none → s.pwr.state = 0 → isQuiescent s = false → exec .quiescent s = .next s) ∧
    (s.life.ready = true → s.pwr.move = none → s.pwr.state ≠ 0 ∨ isQuiescent s = true →
      (chooseState s = max 1 s.pwr.state → exec .quiescent s = .next s) ∧
      (max 1 s.pwr.state < chooseState s → chooseState s ≠ 4 →
        exec .quiescent s = .next { s with pwr := { s.pwr with
          move := some ⟨false, chooseState s, s.life.lt⟩
          want := s.pwr.want ++ if chooseState s = 3 then [(1, 20)] else []
          stayAwake := false } })) ∧
    (∀ (lt : Dword) e, s.life.ready = true → 2 ≤ s.pwr.state → nextEvent s = some e → s.pwr.move = none →
      let s0 := At s lt
      (e ≤ s0.life.lt + wakeTime s.pwr.state → ∃ t, exec (.timedWake lt) s = .next t ∧
        t.pwr.move = some ⟨true, 0, s0.life.lt + wakeTime s.pwr.state⟩ ∧ t = { s0 with pwr := t.pwr }) ∧
      (s0.life.lt + wakeTime s.pwr.state < e → exec (.timedWake lt) s = .next s0)) ∧
    (∀ lt : Dword, s.life.rstLow = false → s.pwr.wakeAt ≠ 0 → s.pwr.wakeAt ≤ (At s lt).life.lt →
      ∃ t, exec (.wakeAtReached lt) s = .next t ∧ t.pwr.wakeAt = 0 ∧ t = { At s lt with pwr := t.pwr }) ∧
    (∀ (lt : Dword) m, s.pwr.move = some m →
      let s0 := At s lt
      ((s0.life.lt < m.done ∨ s.pwr.vreq = true ∨ s.pwr.want ≠ []) → exec (.powerStateChangeComplete lt) s = .next s0) ∧
      (m.done ≤ s0.life.lt → s.pwr.vreq = false → s.pwr.want = [] → Quiet s →
        (m.wake = false → m.dest = 2 ∨ m.dest = 3 → s.pwr.stayAwake = false →
          exec (.powerStateChangeComplete lt) s = .next { s0 with
            pwr := { s0.pwr with state := m.dest, move := none }
            t0 := if m.dest = 3 then dropScratch s.t0 else s.t0 }) ∧
        (m.wake = true → m.dest = 0 → s.pwr.state = 2 → s.pwr.heldAcc = [] → s.cas.inbox = [] →
          ∃ t, exec (.powerStateChangeComplete lt) s = .next t ∧ t.pwr.state = 0 ∧ t.pwr.move = none ∧ t.pwr.stayAwake = false ∧
            t.t0 = s.t0 ∧ t.t1 = s.t1 ∧ t.jobs = s.jobs)))

/-! ### Inputs, reset and boot (15 R494-R509; 16 R516-R524) -/

/-- The conditioned inputs: HALT_REQ halts and its deassertion leaves the halt, THERM_TRIP stops the units with a thermal fault,
DROOP_WARN throttles until 5,000 LT after its deassertion, WAKE_REQ is accepted or merged, a held input is stuck; REF_OSC lost
is a fault (15 R495, R499-R503). Rests on the model's choices of log 28. -/
def Obligations.InputsActWhenSeen : Prop :=
  ∀ (s : State) (lt : Dword), PinsReach s →
    let s0 := At s lt
    (s.inp.level.getLsbD 0 = false → s.inp.masked.getLsbD 0 = false →
      ∃ t, exec .haltReq s = .next t ∧ t.inp.halted = true ∧ t.inp.level = s.inp.level ||| 1 ∧
        t = { s with inp := t.inp, evt := t.evt }) ∧
    (s.inp.level.getLsbD 0 = true →
      ∃ t, exec .haltReqDeassert s = .next t ∧ t.inp.halted = s.inp.halted ∧ t.inp.masked = s.inp.masked &&& 14 ∧
        t = { s with inp := t.inp }) ∧
    (s.inp.level.getLsbD 2 = false →
      ∃ t, exec .thermTrip s = .next t ∧ t.inp.thermHalt = true ∧ t.flt.count.get 6 0 = add64 (s.flt.count.get 6 0) 1 ∧ t.t0 = s.t0 ∧
        t.jobs = s.jobs ∧ t.qs = s.qs) ∧
    (s.inp.level.getLsbD 2 = true →
      ∃ t, exec .thermTripDeassert s = .next t ∧ t.inp.thermHalt = s.inp.thermHalt ∧ t.inp.level.getLsbD 2 = false ∧ t = { s with inp := t.inp }) ∧
    (s.inp.level.getLsbD 3 = false →
      ∃ t, exec .droopWarn s = .next t ∧ t.inp.throttle = true ∧ t = { s with inp := t.inp, evt := t.evt }) ∧
    (s.inp.level.getLsbD 3 = true →
      ∃ t, exec (.droopWarnDeassert lt) s = .next t ∧ t.inp.throttle = s0.inp.throttle ∧ t.inp.droopEnd = s0.life.lt + 5000 ∧
        t = { s0 with inp := t.inp }) ∧
    (s.inp.throttle = true → s.inp.level.getLsbD 3 = false →
      exec (.throttleEnd lt) s = .next (if s.inp.droopEnd ≤ s0.life.lt then { s0 with inp := { s0.inp with throttle := false } } else s0)) ∧
    (s.inp.level.getLsbD 1 = false → s.inp.masked.getLsbD 1 = false →
      ∃ t, exec (.wakeReq lt) s = .next t ∧
        (100 ≤ s0.life.lt - s.inp.changeLt.get 1 0 ∧ (∀ a, s.inp.wakeLt = some a → a + 100 ≤ s0.life.lt) →
          t.inp.wakeLt = some s0.life.lt ∧ t.inp.coalesced = s.inp.coalesced) ∧
        (¬ (100 ≤ s0.life.lt - s.inp.changeLt.get 1 0 ∧ (∀ a, s.inp.wakeLt = some a → a + 100 ≤ s0.life.lt)) →
          t.inp.wakeLt = s.inp.wakeLt ∧ t.inp.coalesced = sat32 s.inp.coalesced 1 ∧ t.pwr = s0.pwr)) ∧
    (s.inp.level.getLsbD 1 = true →
      ∃ t, exec (.wakeReqDeassert lt) s = .next t ∧ t.inp.level.getLsbD 1 = false ∧ t.inp.changeLt.get 1 0 = s0.life.lt ∧
        t = { s0 with inp := t.inp }) ∧
    (∀ i : BitVec 2, i = 1 ∧ s.inp.changeLt.get 1 0 + 10000000 ≤ s0.life.lt ∨ i = 3 ∧ s.inp.changeLt.get 3 0 + 100000000 ≤ s0.life.lt →
      s.inp.level.getLsbD i.toNat = true → s.inp.stuck.getLsbD i.toNat = false →
      ∃ t, exec (.inputStuck i lt) s = .next t ∧ t.inp.stuck.getLsbD i.toNat = true ∧ (i = 1 → t.inp.masked.getLsbD 1 = true) ∧
        t.flt.count.get 7 0 = add64 (s.flt.count.get 7 0) 1 ∧ t.flt.vnext = (s.flt.vnext + 1) % 64) ∧
    (s.life.refLost = false →
      ∃ t, exec .refLoss s = .next t ∧ t.life = { s.life with refLost := true } ∧ t.flt.count.get 5 0 = add64 (s.flt.count.get 5 0) 1) ∧
    exec .refResume s = .next { s with life := { s.life with refLost := false } }

/-- RST_N keeps T1, the shelf, the fuses and nothing else of the engine; its release starts the always-on controller at LT 0;
the boot read ends staged, or failed for a flash without SFDP or an image too long; a bad digest or format fails the boot, and a
good image makes the engine READY with T0 zero (15 R496, R497, R507; 16 R516-R523). Rests on the model's choices of logs 4 and
30. -/
def Obligations.ResetAndBootReachReady : Prop :=
  ∀ s : State,
    (∃ t, exec .rstNAssert s = .next t ∧ t.life.rstLow = true ∧ t.life.ready = false ∧ t.life.lt = 0 ∧ t.t1 = s.t1 ∧ t.shelf = s.shelf ∧
      t.fuse = s.fuse ∧ t.jobs = [] ∧ t.qs = [] ∧ t.t0 = {} ∧ t.flt = {} ∧ t.slots = {} ∧ t.cas = {} ∧ t.boot = {} ∧ t.pending = s.pending) ∧
    (s.life.rstLow = true → s.inp.pins = 0 → s.inp.level = 0 →
      exec .rstNRelease s = .next { s with life := { s.life with rstLow := false } }) ∧
    (∀ (sfdp image : List Byte) (lt : Dword), s.life.rstLow = false → s.life.refLost = false → s.boot.phase = 0 →
      ((At s lt).life.lt < 1000 → exec (.bootRead sfdp image lt) s = .next (At s lt)) ∧
      (1000 ≤ (At s lt).life.lt → imageLimit (bootChoice sfdp).2.2 < flashNum image 8 4 →
        ∃ t, exec (.bootRead sfdp image lt) s = .next t ∧ t.boot.phase = 4 ∧ t.boot.error = 2 ∧ t.t0 = s.t0) ∧
      (1000 ≤ (At s lt).life.lt → flashNum image 8 4 ≤ imageLimit (bootChoice sfdp).2.2 →
        ∃ t, exec (.bootRead sfdp image lt) s = .next t ∧ t.boot.phase = 2 ∧ t.boot.readCmd = (bootChoice sfdp).1 ∧
          t.boot.hash = ofBe (sha256 (flashImage image)) ∧ t.boot.bytes = (flashImage image).length ∧ t.life.ready = s.life.ready)) ∧
    (∀ (reread : List Byte) (test : Option SelfTestFail) (lt : Dword), s.life.rstLow = false → s.life.refLost = false → s.boot.phase = 2 →
      (railsUp s = false → exec (.bootComplete reread test lt) s = .next (At s lt)) ∧
      (railsUp s = true → digestOk s = false → s.boot.readCmd ≠ 0x6B → s.boot.readCmd ≠ 0xEB →
        exec (.bootComplete reread test lt) s = .next { At s lt with boot := { s.boot with phase := 4, error := 3 } }) ∧
      (railsUp s = true → digestOk s = true → imageOk (stagedImage s) = false →
        ∃ t, exec (.bootComplete reread test lt) s = .next t ∧ t.boot.phase = 4 ∧ t.boot.error = 4 ∧ t.t0 = s.t0) ∧
      (railsUp s = true → digestOk s = true → imageOk (stagedImage s) = true →
        ∃ t, exec (.bootComplete reread test lt) s = .next t ∧
          (test = none → t.life.ready = true ∧ t.life.selftestFail = false ∧ t.t0 = {}) ∧
          (∀ f, test = some f → t.life.ready = false ∧ t.life.selftestFail = true ∧
            t.flt.count.get 9 0 = add64 (s.flt.count.get 9 0) 1)))

/-- The test access port (15 R512, R513). EXTEST and SAMPLE load the boundary register and shift out what it captured: the input
cells and what the engine drives in the output cells. IDCODE gives the identification code out; BYPASS, and a code that is none
of the others', captures 0; CLAMP and HIGHZ shift through one bit. Under EXTEST and CLAMP the pins take the boundary register,
under HIGHZ no level, else the engine's. EXTEST, CLAMP and HIGHZ, and no other instruction, hold the engine's inputs: it then
sees the four inputs deasserted, UART_RX idle and VACK as it was. Where REF_OSC, SPI_IO and UART_RX stand at a capture is the
model's free choice (log 31). -/
def Obligations.TapScansItsRegisters : Prop :=
  ∀ (s : State) (shift : BitVec 35) (code : BitVec 4),
    (∃ t, exec (.extest shift) s = .next t ∧ t.tap.ir = 0 ∧ t.tap.update = shift.toNat ∧ outputPins t = some shift.toNat ∧
      fld t.tap.tdo 2 4 = s.inp.pins.toNat ∧ bit t.tap.tdo 24 = t.pwr.vackPin ∧ fld t.tap.tdo 27 8 = t.pwr.vset % 256) ∧
    (∃ t, exec (.sample shift) s = .next t ∧ t.tap.ir = 1 ∧ t.tap.update = shift.toNat ∧ outputPins t = some (engineOuts t) ∧
      fld t.tap.tdo 2 4 = s.inp.pins.toNat ∧ bit t.tap.tdo 24 = t.pwr.vackPin ∧ fld t.tap.tdo 27 8 = t.pwr.vset % 256) ∧
    (∃ t, exec .idcode s = .next t ∧ t.tap.ir = 2 ∧ t.tap.tdo = 0x1735324B ∧ t.tap.update = s.tap.update) ∧
    (∃ t, exec (.clamp shift) s = .next t ∧ t.tap.ir = 3 ∧ outputPins t = some s.tap.update ∧ t.tap.tdo = 2 * shift.toNat % 2 ^ 35) ∧
    (∃ t, exec (.highz shift) s = .next t ∧ t.tap.ir = 4 ∧ outputPins t = none ∧ t.tap.tdo = 2 * shift.toNat % 2 ^ 35) ∧
    (5 ≤ code.toNat → ∃ t, exec (.bypass code) s = .next t ∧ t.tap.ir = code.toNat ∧ t.tap.tdo = 0 ∧ t.tap.update = s.tap.update) ∧
    (code.toNat < 5 → exec (.bypass code) s = .next s) ∧
    (∃ t, exec .tapReset s = .next t ∧ t.tap = { s.tap with ir := 2 }) ∧
    (∀ c t, c ∈ [Instr.extest shift, .sample shift, .idcode, .clamp shift, .highz shift, .bypass code, .tapReset] →
      exec c s = .next t →
      (tapHolds t = true ↔ t.tap.ir = 0 ∨ t.tap.ir = 3 ∨ t.tap.ir = 4) ∧
      (tapHolds s = false → tapHolds t = true → s.life.rstLow = false → t.inp.level = 0 ∧ t.pwr.vack = s.pwr.vack) ∧
      (tapHolds s = true → tapHolds t = false → s.life.rstLow = false → t.inp.level = s.inp.pins) ∧
      t.inp.pins = s.inp.pins) ∧
    (tapHolds s = true → ∀ (b : Byte) (stop : Bool) (lt : Dword), exec (.uartRxFrame b stop lt) s = .next (At s lt))

/-! ### The UART and the monitor (15 R510, R511; 17 R544-R551) -/

/-- A received frame without its stop bit, or into a full FIFO, is dropped and counted; a line and a nonce end at their times; a
sent character leaves the queue, and a new divisor acts from its end (15 R510, R511; 17 R545-R547). Rests on the model's choices
of log 31. -/
def Obligations.UartCountsAndTimes : Prop :=
  ∀ (s : State) (b : Byte) (lt : Dword),
    let s0 := At s lt
    (PinsReach s → s.life.refLost = false →
      exec (.uartRxFrame b false lt) s = .next { s0 with mon := { s0.mon with frameErr := min (s.mon.frameErr + 1) 0xFFFF } } ∧
      (64 ≤ s.mon.fifo.length →
        exec (.uartRxFrame b true lt) s = .next { s0 with mon := { s0.mon with overrun := min (s.mon.overrun + 1) 0xFFFF } }) ∧
      (s.mon.fifo = [] → s.mon.req = none → s.mon.line = [] → b ≠ 13 →
        exec (.uartRxFrame b true lt) s = .next { s0 with mon := { s0.mon with line := [b], lineLt := s0.life.lt } })) ∧
    (exec (.monitorLineTimeout lt) s = .next (if s.mon.line ≠ [] ∧ s.mon.lineLt + 100000000 ≤ s0.life.lt
      then { s0 with mon := { s0.mon with line := [] } } else s0)) ∧
    (∀ n e, s.mon.nonce = some (n, e) →
      exec (.nonceExpiry lt) s = .next (if e ≤ s0.life.lt then { s0 with mon := { s0.mon with nonce := none } } else s0)) ∧
    (∀ c rest, s.life.rstLow = false → s.life.refLost = false → s.mon.tx = c :: rest → s.mon.baud = none →
      exec .uartTxCharacterEnd s = .next { s with mon := { s.mon with
        tx := rest
        div := s.mon.divNext.getD s.mon.div
        divNext := none } })

/-- The monitor's session: a request whose gate is closed is answered with why; ID, CHAL, UNLK, LOCK and ST answer as 17 R546
and R547 give, and a wrong UNLK is an AUTH fault (17 R544-R547). Rests on the model's choices of log 31. -/
def Obligations.MonitorSessionUnlocks : Prop :=
  ∀ (s : State) (seq : Nat),
    (∀ c ws why, (c = .lockCmd ∧ ws = [txt "LOCK"]) ∨ (c = .stCmd ∧ ws = [txt "ST"]) → s.mon.req = some (seq, ws) → s.life.rstLow = false →
      s.mon.fifo = [] → gate s 2 = some why → exec c s = .next (answer s seq '?' (txt why))) ∧
    (Asked s seq ["ID"] 0 [] → exec .idCmd s = .next (answer s seq '!' (fields [hexN 8 idCode, hexMin 256, hexN 8 s.boot.revision,
      hexMin (b2n s.fuse.debugEn), hexMin (b2n s.mon.unlocked)]))) ∧
    (∀ e : BitVec 64, Asked s seq ["CHAL"] 1 [] →
      exec (.chal e) s = .next (if 3 ≤ s.mon.wrong then answer s seq '?' (txt "LOCKED")
        else answer { s with mon := { s.mon with nonce := some (e.toNat, s.life.lt + 6000000000) } } seq '!' (hexN 16 e.toNat))) ∧
    (∀ w r n e, Asked s seq ["UNLK"] 1 [w] → hexOf w = some r → w.length = 16 → s.mon.nonce = some (n, e) → s.life.lt < e →
      (r = response s n → exec .unlk s = .next (answer { s with mon := { s.mon with nonce := none, unlocked := true } } seq '!' (txt "OK"))) ∧
      (r ≠ response s n → ∃ t, exec .unlk s = .next t ∧ t.mon.unlocked = s.mon.unlocked ∧ t.mon.nonce = none ∧ t.mon.wrong = s.mon.wrong + 1 ∧
        t.flt.count.get 10 0 = add64 (s.flt.count.get 10 0) 1)) ∧
    (Asked s seq ["LOCK"] 2 [] → exec .lockCmd s = .next (answer { s with mon := { s.mon with unlocked := false } } seq '!' (txt "OK"))) ∧
    (Asked s seq ["ST"] 2 [] → exec .stCmd s = .next (answer s seq '!'
      (fields ([engStatus s, inStatus s, pwrStatus s, faultStatus s, dbgStatus s].map (hexN 8)))))

/-- RD, WR, MD and CNT: a word of the control space is read or written as at the control port, bytes of T1 and the counters are
answered, in an engine that is awake (17 R547). Rests on the model's choices of log 31. -/
def Obligations.MonitorReadsAndWrites : Prop :=
  ∀ (s : State) (seq a : Nat) (w : List Byte), hexOf w = some a →
    (Asked s seq ["RD"] 2 [w] → a % 4 = 0 → a < 2 ^ 24 → alwaysOn a = true ∨ reachable s = true →
      exec .rdCmd s = .next (answer (ctrlRead s a).2 seq '!' (hexN 8 (ctrlRead s a).1))) ∧
    (∀ x v, Asked s seq ["WR"] 2 [w, x] → hexOf x = some v → a % 4 = 0 → a < 2 ^ 24 → v < 2 ^ 32 → (ctrlWrite s a v).mon = s.mon →
      alwaysOn a = true ∨ reachable s = true → exec .wrCmd s = .next (answer (ctrlWrite s a v) seq '!' (txt "OK"))) ∧
    (∀ x n, Asked s seq ["MD"] 2 [w, x] → hexOf x = some n → 0 < n → n ≤ 256 → a + n ≤ 2 ^ 47 → reachable s = true →
      exec .mdCmd s = .next (answer s seq '!' (fields ((s.t1.fetch a n).1.map fun b => hexN 2 b.toNat)))) ∧
    (Asked s seq ["CNT"] 2 [w] → a < 256 → reachable s = true →
      exec .cntCmd s = .next (answer s seq '!' (fields (tab 9 fun i => hexN 16 (s.counter a (i + 1))))))

/-- HALT, RES, BP, the trace commands, STEST and BAUD do what 17 R547 to R550 and 16 R524 give and are answered; a trace entry
that is not written is counted. The injections: each is armed, at most eight stand armed, and a further one is answered `STATE`;
INJ CLR disarms them and INJ ST tells their number and each one; T0C and T0U act at once on T0 outside S3 and S4 (17 R551). Rests
on the model's choices of log 31. -/
def Obligations.MonitorControlsAndInjects : Prop :=
  (∀ (s : State) (seq : Nat),
     let ok (t : State) : State := answer t seq '!' (txt "OK")
     (Asked s seq ["HALT"] 2 [] → ∃ e, exec .monitorHalt s = .next (ok { s with inp := { s.inp with halted := true }, evt := e })) ∧
     (∀ w c, Asked s seq ["HALT"] 2 [w] → hexOf w = some c → c < 256 →
       exec .monitorHalt s = .next (ok { s with inp := { s.inp with monHalt := insNat c s.inp.monHalt } })) ∧
     (Asked s seq ["RES"] 2 [] →
       (s.inp.halted = true → exec .monitorRes s = .next (ok { s with
         inp := { s.inp with
           halted := false
           masked := if s.inp.level.getLsbD 0 then s.inp.masked ||| 1 else s.inp.masked
           monHalt := [] }
         jobs := s.jobs.map fun j => if j.phase = .held then { j with phase := .waiting } else j
         mon := { s.mon with bpHit := false } })) ∧
       (s.inp.halted = false →
         exec .monitorRes s = .next (ok { s with inp := { s.inp with monHalt := [] }, mon := { s.mon with bpHit := false } }))) ∧
     (∀ w c, Asked s seq ["RES"] 2 [w] → hexOf w = some c → c < 256 →
       exec .monitorRes s = .next (ok { s with inp := { s.inp with monHalt := s.inp.monHalt.erase c } })) ∧
     (∀ a n b q c t k, Asked s seq ["BP"] 2 [a, b, c, k] → hexOf a = some n → hexOf b = some q → hexOf c = some t → n < 4 → q < 64 →
       t < 65536 → k = txt "T" ∨ k = txt "C" →
       exec .bpCmd s = .next (ok { s with mon := { s.mon with
         bp := s.mon.bp.put n (t + q <<< 16 + (b2n (k == txt "C")) <<< 22 + 2 ^ 31) } })) ∧
     (∀ a n, Asked s seq ["BP"] 2 [a, txt "OFF"] → hexOf a = some n → n < 4 →
       exec .bpCmd s = .next (ok { s with mon := { s.mon with bp := s.mon.bp.put n 0 } })) ∧
     (∀ a base b size c mask d mode, Asked s seq ["TR", "ON"] 2 [a, b, c, d] → hexOf a = some base → hexOf b = some size → hexOf c = some mask →
       hexOf d = some mode → base % 4096 = 0 → base + size ≤ 2 ^ 47 → size % 4096 = 0 → 0 < size → size ≤ 2 ^ 30 → mask < 0x80 → mode < 2 →
       exec .trOn s = .next (ok { s with mon := { s.mon with
         trBase := base
         trSize := size
         trNext := 0
         trMask := mask
         trWrap := mode == 1
         trOn := true
         trFull := false } })) ∧
     (Asked s seq ["TR", "OFF"] 2 [] → exec .trOff s = .next (ok { s with mon := { s.mon with trOn := false } })) ∧
     (Asked s seq ["TR", "ST"] 2 [] → exec .trSt s = .next (answer s seq '!' (fields [hexMin (b2n s.mon.trOn), hexMin (b2n s.mon.trFull),
       hexN 16 s.mon.trBase, hexN 8 s.mon.trSize, hexN 8 s.mon.trNext, hexN 8 s.mon.trDrop]))) ∧
     (exec .traceDrop s = .next (if s.mon.trOn then { s with mon := { s.mon with trDrop := sat32 s.mon.trDrop 1 } } else s)) ∧
     (∀ lt : Dword, Asked s seq ["STEST"] 2 [] → s.life.ready = true → reachable s = true → s.boot.phase = 3 → s.jobs = [] → s.slots.sids = [] →
       (∃ t, exec (.stest none lt) s = .next t ∧ t.life.ready = true ∧ t.life.selftestFail = false ∧ t.t0 = {} ∧ t.flt = s.flt ∧
         t.mon.tx = s.mon.tx ++ monLine '!' (hexN 2 seq ++ chr ':' :: txt "OK")) ∧
       (∀ f, ∃ t, exec (.stest (some f) lt) s = .next t ∧ t.life.ready = false ∧ t.life.selftestFail = true ∧
         t.flt.count.get 9 0 = add64 (s.flt.count.get 9 0) 1)) ∧
     (∀ (f : Option SelfTestFail) (lt : Dword), Asked s seq ["STEST"] 2 [] → reachable s = true → s.jobs ≠ [] ∨ s.slots.sids ≠ [] →
       exec (.stest f lt) s = .next (answer (At s lt) seq '?' (txt "STATE"))) ∧
     (∀ w d, Asked s seq ["BAUD"] 2 [w] → hexOf w = some d → d < 65536 →
       exec .baud s = .next (ok { s with mon := { s.mon with baud := some (0, d) } }))) ∧
  (∀ (s : State) (seq : Nat),
     let ok (t : State) : State := answer t seq '!' (txt "OK")
     let armed (i : Inject) : State :=
       if s.mon.inj.length < 8 then ok { s with mon := { s.mon with inj := s.mon.inj ++ [i] } } else answer s seq '?' (txt "STATE")
     (∀ w c, hexOf w = some c → c < 256 →
       (Asked s seq ["INJ", "PPOI"] 2 [w] → exec .injPpoi s = .next (armed ⟨3, c, 0, 0⟩)) ∧
       (Asked s seq ["INJ", "TDROP"] 2 [w] → exec .injTdrop s = .next (armed ⟨4, c, 0, 0⟩)) ∧
       (Asked s seq ["INJ", "DLN"] 2 [w] → c < 64 → exec .injDln s = .next (armed ⟨5, c, 0, 0⟩))) ∧
     (Asked s seq ["INJ", "CDROP"] 2 [] → exec .injCdrop s = .next (armed ⟨6, 0, 0, 0⟩)) ∧
     (Asked s seq ["INJ", "VACK"] 2 [] → exec .injVack s = .next (armed ⟨7, 0, 0, 0⟩)) ∧
     (∀ a c b o, hexOf a = some c → hexOf b = some o → c < 256 → o < 2 ^ 21 →
       let act (i : Inject) : State := if s.mon.inj.length < 8 ∧ s.pwr.state < 3 then ok (flipT0 s i) else armed i
       (Asked s seq ["INJ", "T0U"] 2 [a, b] → exec .injT0u s = .next (act ⟨2, c, o, 0⟩)) ∧
       (∀ d i, Asked s seq ["INJ", "T0C"] 2 [a, b, d] → hexOf d = some i → i < 72 → exec .injT0c s = .next (act ⟨1, c, o, i⟩))) ∧
     (Asked s seq ["INJ", "CLR"] 2 [] → exec .injClr s = .next (ok { s with mon := { s.mon with inj := [] } })) ∧
     (Asked s seq ["INJ", "ST"] 2 [] → exec .injSt s = .next (answer s seq '!'
       (fields (hexMin s.mon.inj.length :: s.mon.inj.flatMap fun i =>
         txt (injName i.kind) :: ([i.a, i.b, i.c].take (injArgs i.kind)).map hexMin)))))

/-! ### Memory and reset values -/

/-- A byte read after a write is the byte written where it was written, and as before elsewhere. Rests on the model's choices of
log 3. -/
def Obligations.MemoryReadsWhatWasWritten : Prop :=
  ∀ (m : Memory) (a x : Nat) (bs : List Byte), m.wf = true →
    (m.write a bs).get x = if a ≤ x ∧ x < a + bs.length then bs.getD (x - a) 0 else m.get x

/-- The registers whose reset value the specification gives, read after reset. -/
def Obligations.RegistersReadTheirResetValues : Prop :=
  let s := State.reset
  s.life.lt = 0 ∧ s.life.ready = false ∧ reg32 s 0x9000 = 0x400 ∧ reg32 s 0x9004 = 100000 ∧ s.str.ageLimit = 1000 ∧ s.tier.estLat = 600 ∧
    s.tier.estRate = 9000 ∧ s.pwr.scrubRate = 100 ∧ s.mon.div = 868 ∧ s.cas.repeatMax = 3 ∧ s.pwr.budget = 1100 ∧ s.life.maint = true
end

