-- ==== Sys2Proof/Laws/Memory.lean ====
section
/-! SUPPORT. Every operation on a memory keeps its canonical form. -/
namespace Sys2Proof.Laws
open Sys2Proof Sys2Proof.Machine

/-- The canonical form said of all cells at once: strictly rising addresses from `lo` on, no zero byte. -/
theorem wfFrom_iff (m : Memory) : ∀ lo, m.wfFrom lo = true ↔
    (∀ c ∈ m, lo ≤ c.1 ∧ c.2 ≠ 0) ∧ m.Pairwise fun x y => x.1 < y.1 := by
  induction m with
  | nil => intro lo; simp [Memory.wfFrom]
  | cons c m ih =>
    intro lo
    obtain ⟨a, b⟩ := c
    simp only [Memory.wfFrom, Bool.and_eq_true, decide_eq_true_eq, bne_iff_ne, ih, List.mem_cons, List.pairwise_cons]
    constructor
    · rintro ⟨⟨h1, h2⟩, h3, h4⟩
      refine ⟨?_, fun y hy => by have := (h3 y hy).1; simp; omega, h4⟩
      rintro c (rfl | hc)
      · exact ⟨h1, h2⟩
      · exact ⟨by have := (h3 c hc).1; omega, (h3 c hc).2⟩
    · rintro ⟨h1, h2, h3⟩
      refine ⟨h1 (a, b) (Or.inl rfl), fun c hc => ⟨?_, (h1 c (Or.inr hc)).2⟩, h3⟩
      exact h2 c hc

/-- The canonical form of a memory, said of all cells at once. -/
theorem wf_iff (m : Memory) : m.wf = true ↔ (∀ c ∈ m, c.2 ≠ 0) ∧ m.Pairwise fun x y => x.1 < y.1 := by
  simp [Memory.wf, wfFrom_iff]

/-- The cells of a run of bytes lie in the run, hold no zero, and rise. -/
theorem cellsOf_spec (bs : List Byte) : ∀ a,
    (∀ c ∈ cellsOf a bs, a ≤ c.1 ∧ c.1 < a + bs.length ∧ c.2 ≠ 0) ∧ (cellsOf a bs).Pairwise fun x y => x.1 < y.1 := by
  induction bs with
  | nil => intro a; simp [cellsOf]
  | cons b bs ih =>
    intro a
    obtain ⟨h1, h2⟩ := ih (a + 1)
    simp only [cellsOf]
    split
    · exact ⟨fun c hc => by
        obtain ⟨k1, k2, k3⟩ := h1 c hc
        exact ⟨by omega, by simp only [List.length_cons]; omega, k3⟩, h2⟩
    · rename_i hb
      refine ⟨?_, List.pairwise_cons.2 ⟨fun c hc => by have := h1 c hc; simp; omega, h2⟩⟩
      intro c hc
      rcases List.mem_cons.1 hc with rfl | hc
      · exact ⟨Nat.le_refl a, by simp, hb⟩
      · have := h1 c hc
        exact ⟨by omega, by simp only [List.length_cons]; omega, this.2.2⟩

/-- A write keeps the canonical form. -/
theorem write_wf {m : Memory} (a : Nat) (bs : List Byte) (h : m.wf = true) : (m.write a bs).wf = true := by
  rw [wf_iff] at h ⊢
  obtain ⟨h1, h2⟩ := cellsOf_spec bs a
  refine ⟨?_, ?_⟩
  · intro c hc
    simp only [Memory.write, List.mem_append, List.mem_filter] at hc
    rcases hc with (hc | hc) | hc
    · exact h.1 c hc.1
    · exact (h1 c hc).2.2
    · exact h.1 c hc.1
  · simp only [Memory.write, List.pairwise_append, List.mem_append, List.mem_filter, decide_eq_true_eq]
    refine ⟨⟨h.2.filter _, h2, fun x hx y hy => ?_⟩, h.2.filter _, ?_⟩
    · have := h1 y hy
      omega
    · rintro x (hx | hx) y hy
      · omega
      · have := h1 x hx
        omega

/-- Zeroing a range keeps the canonical form. -/
theorem zero_wf {m : Memory} (a n : Nat) (h : m.wf = true) : (m.zero a n).wf = true := by
  rw [wf_iff] at h ⊢
  exact ⟨fun c hc => h.1 c (List.mem_filter.1 hc).1, h.2.filter _⟩

/-- A write with poison keeps the canonical form of its bytes. -/
theorem store_wf {m : PMem} (a : Nat) (bs : List Byte) (ps : List Nat) (h : m.bytes.wf = true) : (m.store a bs ps).bytes.wf = true :=
  write_wf a bs h

/-- A clean write keeps the canonical form of its bytes. -/
theorem put_wf {m : PMem} (a : Nat) (bs : List Byte) (h : m.bytes.wf = true) : (m.put a bs).bytes.wf = true := write_wf a bs h

/-- Clearing a range keeps the canonical form of its bytes. -/
theorem clear_wf {m : PMem} (a n : Nat) (h : m.bytes.wf = true) : (m.clear a n).bytes.wf = true := zero_wf a n h

/-- A write to T0 keeps the canonical form of its bytes. -/
theorem t0Store_wf {m : T0Mem} (a : Nat) (bs : List Byte) (p : List Bool) (h : m.bytes.wf = true) : (m.store a bs p).bytes.wf = true :=
  write_wf a bs h

end Sys2Proof.Laws
end

