-- ==== Sys2Proof/Laws/State.lean ====
section
/-! SUPPORT. What each named update of the state does to each field: one lemma per field, true by unfolding. -/
namespace Sys2Proof.Laws
open Sys2Proof Sys2Proof.Machine

@[simp] theorem setCore_life (s : State) (c : Nat) (k : Core) : (s.setCore c k).life = s.life := rfl
@[simp] theorem setCore_flg (s : State) (c : Nat) (k : Core) : (s.setCore c k).flg = s.flg := rfl
@[simp] theorem setCore_flt (s : State) (c : Nat) (k : Core) : (s.setCore c k).flt = s.flt := rfl
@[simp] theorem setCore_evt (s : State) (c : Nat) (k : Core) : (s.setCore c k).evt = s.evt := rfl
@[simp] theorem setCore_qs (s : State) (c : Nat) (k : Core) : (s.setCore c k).qs = s.qs := rfl
@[simp] theorem setCore_jobs (s : State) (c : Nat) (k : Core) : (s.setCore c k).jobs = s.jobs := rfl
@[simp] theorem setCore_takeNo (s : State) (c : Nat) (k : Core) : (s.setCore c k).takeNo = s.takeNo := rfl
@[simp] theorem setCore_turns (s : State) (c : Nat) (k : Core) : (s.setCore c k).turns = s.turns := rfl
@[simp] theorem setCore_cores (s : State) (c : Nat) (k : Core) : (s.setCore c k).cores = s.cores.put c k := rfl
@[simp] theorem setCore_t0 (s : State) (c : Nat) (k : Core) : (s.setCore c k).t0 = s.t0 := rfl
@[simp] theorem setCore_t1 (s : State) (c : Nat) (k : Core) : (s.setCore c k).t1 = s.t1 := rfl
@[simp] theorem setCore_shelf (s : State) (c : Nat) (k : Core) : (s.setCore c k).shelf = s.shelf := rfl
@[simp] theorem setCore_tbl (s : State) (c : Nat) (k : Core) : (s.setCore c k).tbl = s.tbl := rfl
@[simp] theorem setCore_ring (s : State) (c : Nat) (k : Core) : (s.setCore c k).ring = s.ring := rfl
@[simp] theorem setCore_slots (s : State) (c : Nat) (k : Core) : (s.setCore c k).slots = s.slots := rfl
@[simp] theorem setCore_pg (s : State) (c : Nat) (k : Core) : (s.setCore c k).pg = s.pg := rfl
@[simp] theorem setCore_tier (s : State) (c : Nat) (k : Core) : (s.setCore c k).tier = s.tier := rfl
@[simp] theorem setCore_str (s : State) (c : Nat) (k : Core) : (s.setCore c k).str = s.str := rfl
@[simp] theorem setCore_sync (s : State) (c : Nat) (k : Core) : (s.setCore c k).sync = s.sync := rfl
@[simp] theorem setCore_cas (s : State) (c : Nat) (k : Core) : (s.setCore c k).cas = s.cas := rfl
@[simp] theorem setCore_inp (s : State) (c : Nat) (k : Core) : (s.setCore c k).inp = s.inp := rfl
@[simp] theorem setCore_pwr (s : State) (c : Nat) (k : Core) : (s.setCore c k).pwr = s.pwr := rfl
@[simp] theorem setCore_fuse (s : State) (c : Nat) (k : Core) : (s.setCore c k).fuse = s.fuse := rfl
@[simp] theorem setCore_boot (s : State) (c : Nat) (k : Core) : (s.setCore c k).boot = s.boot := rfl
@[simp] theorem setCore_mon (s : State) (c : Nat) (k : Core) : (s.setCore c k).mon = s.mon := rfl
@[simp] theorem setCore_tap (s : State) (c : Nat) (k : Core) : (s.setCore c k).tap = s.tap := rfl
@[simp] theorem setCore_ctl (s : State) (c : Nat) (k : Core) : (s.setCore c k).ctl = s.ctl := rfl
@[simp] theorem setCore_sent (s : State) (c : Nat) (k : Core) : (s.setCore c k).sent = s.sent := rfl
@[simp] theorem setCore_fresh (s : State) (c : Nat) (k : Core) : (s.setCore c k).fresh = s.fresh := rfl
@[simp] theorem setCore_pending (s : State) (c : Nat) (k : Core) : (s.setCore c k).pending = s.pending := rfl

@[simp] theorem setQueue_life (s : State) (q : Nat) (k : Queue) : (s.setQueue q k).life = s.life := rfl
@[simp] theorem setQueue_flg (s : State) (q : Nat) (k : Queue) : (s.setQueue q k).flg = s.flg := rfl
@[simp] theorem setQueue_flt (s : State) (q : Nat) (k : Queue) : (s.setQueue q k).flt = s.flt := rfl
@[simp] theorem setQueue_evt (s : State) (q : Nat) (k : Queue) : (s.setQueue q k).evt = s.evt := rfl
@[simp] theorem setQueue_qs (s : State) (q : Nat) (k : Queue) : (s.setQueue q k).qs = s.qs.put q k := rfl
@[simp] theorem setQueue_jobs (s : State) (q : Nat) (k : Queue) : (s.setQueue q k).jobs = s.jobs := rfl
@[simp] theorem setQueue_takeNo (s : State) (q : Nat) (k : Queue) : (s.setQueue q k).takeNo = s.takeNo := rfl
@[simp] theorem setQueue_turns (s : State) (q : Nat) (k : Queue) : (s.setQueue q k).turns = s.turns := rfl
@[simp] theorem setQueue_cores (s : State) (q : Nat) (k : Queue) : (s.setQueue q k).cores = s.cores := rfl
@[simp] theorem setQueue_t0 (s : State) (q : Nat) (k : Queue) : (s.setQueue q k).t0 = s.t0 := rfl
@[simp] theorem setQueue_t1 (s : State) (q : Nat) (k : Queue) : (s.setQueue q k).t1 = s.t1 := rfl
@[simp] theorem setQueue_shelf (s : State) (q : Nat) (k : Queue) : (s.setQueue q k).shelf = s.shelf := rfl
@[simp] theorem setQueue_tbl (s : State) (q : Nat) (k : Queue) : (s.setQueue q k).tbl = s.tbl := rfl
@[simp] theorem setQueue_ring (s : State) (q : Nat) (k : Queue) : (s.setQueue q k).ring = s.ring := rfl
@[simp] theorem setQueue_slots (s : State) (q : Nat) (k : Queue) : (s.setQueue q k).slots = s.slots := rfl
@[simp] theorem setQueue_pg (s : State) (q : Nat) (k : Queue) : (s.setQueue q k).pg = s.pg := rfl
@[simp] theorem setQueue_tier (s : State) (q : Nat) (k : Queue) : (s.setQueue q k).tier = s.tier := rfl
@[simp] theorem setQueue_str (s : State) (q : Nat) (k : Queue) : (s.setQueue q k).str = s.str := rfl
@[simp] theorem setQueue_sync (s : State) (q : Nat) (k : Queue) : (s.setQueue q k).sync = s.sync := rfl
@[simp] theorem setQueue_cas (s : State) (q : Nat) (k : Queue) : (s.setQueue q k).cas = s.cas := rfl
@[simp] theorem setQueue_inp (s : State) (q : Nat) (k : Queue) : (s.setQueue q k).inp = s.inp := rfl
@[simp] theorem setQueue_pwr (s : State) (q : Nat) (k : Queue) : (s.setQueue q k).pwr = s.pwr := rfl
@[simp] theorem setQueue_fuse (s : State) (q : Nat) (k : Queue) : (s.setQueue q k).fuse = s.fuse := rfl
@[simp] theorem setQueue_boot (s : State) (q : Nat) (k : Queue) : (s.setQueue q k).boot = s.boot := rfl
@[simp] theorem setQueue_mon (s : State) (q : Nat) (k : Queue) : (s.setQueue q k).mon = s.mon := rfl
@[simp] theorem setQueue_tap (s : State) (q : Nat) (k : Queue) : (s.setQueue q k).tap = s.tap := rfl
@[simp] theorem setQueue_ctl (s : State) (q : Nat) (k : Queue) : (s.setQueue q k).ctl = s.ctl := rfl
@[simp] theorem setQueue_sent (s : State) (q : Nat) (k : Queue) : (s.setQueue q k).sent = s.sent := rfl
@[simp] theorem setQueue_fresh (s : State) (q : Nat) (k : Queue) : (s.setQueue q k).fresh = s.fresh := rfl
@[simp] theorem setQueue_pending (s : State) (q : Nat) (k : Queue) : (s.setQueue q k).pending = s.pending := rfl

@[simp] theorem setJob_life (s : State) (j : Job) : (s.setJob j).life = s.life := rfl
@[simp] theorem setJob_flg (s : State) (j : Job) : (s.setJob j).flg = s.flg := rfl
@[simp] theorem setJob_flt (s : State) (j : Job) : (s.setJob j).flt = s.flt := rfl
@[simp] theorem setJob_evt (s : State) (j : Job) : (s.setJob j).evt = s.evt := rfl
@[simp] theorem setJob_qs (s : State) (j : Job) : (s.setJob j).qs = s.qs := rfl
@[simp] theorem setJob_jobs (s : State) (j : Job) : (s.setJob j).jobs = s.jobs.map fun k => if k.take == j.take then j else k := rfl
@[simp] theorem setJob_takeNo (s : State) (j : Job) : (s.setJob j).takeNo = s.takeNo := rfl
@[simp] theorem setJob_turns (s : State) (j : Job) : (s.setJob j).turns = s.turns := rfl
@[simp] theorem setJob_cores (s : State) (j : Job) : (s.setJob j).cores = s.cores := rfl
@[simp] theorem setJob_t0 (s : State) (j : Job) : (s.setJob j).t0 = s.t0 := rfl
@[simp] theorem setJob_t1 (s : State) (j : Job) : (s.setJob j).t1 = s.t1 := rfl
@[simp] theorem setJob_shelf (s : State) (j : Job) : (s.setJob j).shelf = s.shelf := rfl
@[simp] theorem setJob_tbl (s : State) (j : Job) : (s.setJob j).tbl = s.tbl := rfl
@[simp] theorem setJob_ring (s : State) (j : Job) : (s.setJob j).ring = s.ring := rfl
@[simp] theorem setJob_slots (s : State) (j : Job) : (s.setJob j).slots = s.slots := rfl
@[simp] theorem setJob_pg (s : State) (j : Job) : (s.setJob j).pg = s.pg := rfl
@[simp] theorem setJob_tier (s : State) (j : Job) : (s.setJob j).tier = s.tier := rfl
@[simp] theorem setJob_str (s : State) (j : Job) : (s.setJob j).str = s.str := rfl
@[simp] theorem setJob_sync (s : State) (j : Job) : (s.setJob j).sync = s.sync := rfl
@[simp] theorem setJob_cas (s : State) (j : Job) : (s.setJob j).cas = s.cas := rfl
@[simp] theorem setJob_inp (s : State) (j : Job) : (s.setJob j).inp = s.inp := rfl
@[simp] theorem setJob_pwr (s : State) (j : Job) : (s.setJob j).pwr = s.pwr := rfl
@[simp] theorem setJob_fuse (s : State) (j : Job) : (s.setJob j).fuse = s.fuse := rfl
@[simp] theorem setJob_boot (s : State) (j : Job) : (s.setJob j).boot = s.boot := rfl
@[simp] theorem setJob_mon (s : State) (j : Job) : (s.setJob j).mon = s.mon := rfl
@[simp] theorem setJob_tap (s : State) (j : Job) : (s.setJob j).tap = s.tap := rfl
@[simp] theorem setJob_ctl (s : State) (j : Job) : (s.setJob j).ctl = s.ctl := rfl
@[simp] theorem setJob_sent (s : State) (j : Job) : (s.setJob j).sent = s.sent := rfl
@[simp] theorem setJob_fresh (s : State) (j : Job) : (s.setJob j).fresh = s.fresh := rfl
@[simp] theorem setJob_pending (s : State) (j : Job) : (s.setJob j).pending = s.pending := rfl

@[simp] theorem wr_life (s : State) (a : Nat) (bs : List Byte) : (s.wr a bs).life = s.life := rfl
@[simp] theorem wr_flg (s : State) (a : Nat) (bs : List Byte) : (s.wr a bs).flg = s.flg := rfl
@[simp] theorem wr_flt (s : State) (a : Nat) (bs : List Byte) : (s.wr a bs).flt = s.flt := rfl
@[simp] theorem wr_evt (s : State) (a : Nat) (bs : List Byte) : (s.wr a bs).evt = s.evt := rfl
@[simp] theorem wr_qs (s : State) (a : Nat) (bs : List Byte) : (s.wr a bs).qs = s.qs := rfl
@[simp] theorem wr_jobs (s : State) (a : Nat) (bs : List Byte) : (s.wr a bs).jobs = s.jobs := rfl
@[simp] theorem wr_takeNo (s : State) (a : Nat) (bs : List Byte) : (s.wr a bs).takeNo = s.takeNo := rfl
@[simp] theorem wr_turns (s : State) (a : Nat) (bs : List Byte) : (s.wr a bs).turns = s.turns := rfl
@[simp] theorem wr_cores (s : State) (a : Nat) (bs : List Byte) : (s.wr a bs).cores = s.cores := rfl
@[simp] theorem wr_t0 (s : State) (a : Nat) (bs : List Byte) : (s.wr a bs).t0 = s.t0 := rfl
@[simp] theorem wr_t1 (s : State) (a : Nat) (bs : List Byte) : (s.wr a bs).t1 = s.t1.put a bs := rfl
@[simp] theorem wr_shelf (s : State) (a : Nat) (bs : List Byte) : (s.wr a bs).shelf = s.shelf := rfl
@[simp] theorem wr_tbl (s : State) (a : Nat) (bs : List Byte) : (s.wr a bs).tbl = s.tbl := rfl
@[simp] theorem wr_ring (s : State) (a : Nat) (bs : List Byte) : (s.wr a bs).ring = s.ring := rfl
@[simp] theorem wr_slots (s : State) (a : Nat) (bs : List Byte) : (s.wr a bs).slots = s.slots := rfl
@[simp] theorem wr_pg (s : State) (a : Nat) (bs : List Byte) : (s.wr a bs).pg = s.pg := rfl
@[simp] theorem wr_tier (s : State) (a : Nat) (bs : List Byte) : (s.wr a bs).tier = s.tier := rfl
@[simp] theorem wr_str (s : State) (a : Nat) (bs : List Byte) : (s.wr a bs).str = s.str := rfl
@[simp] theorem wr_sync (s : State) (a : Nat) (bs : List Byte) : (s.wr a bs).sync = s.sync := rfl
@[simp] theorem wr_cas (s : State) (a : Nat) (bs : List Byte) : (s.wr a bs).cas = s.cas := rfl
@[simp] theorem wr_inp (s : State) (a : Nat) (bs : List Byte) : (s.wr a bs).inp = s.inp := rfl
@[simp] theorem wr_pwr (s : State) (a : Nat) (bs : List Byte) : (s.wr a bs).pwr = s.pwr := rfl
@[simp] theorem wr_fuse (s : State) (a : Nat) (bs : List Byte) : (s.wr a bs).fuse = s.fuse := rfl
@[simp] theorem wr_boot (s : State) (a : Nat) (bs : List Byte) : (s.wr a bs).boot = s.boot := rfl
@[simp] theorem wr_mon (s : State) (a : Nat) (bs : List Byte) : (s.wr a bs).mon = s.mon := rfl
@[simp] theorem wr_tap (s : State) (a : Nat) (bs : List Byte) : (s.wr a bs).tap = s.tap := rfl
@[simp] theorem wr_ctl (s : State) (a : Nat) (bs : List Byte) : (s.wr a bs).ctl = s.ctl := rfl
@[simp] theorem wr_sent (s : State) (a : Nat) (bs : List Byte) : (s.wr a bs).sent = s.sent := rfl
@[simp] theorem wr_fresh (s : State) (a : Nat) (bs : List Byte) : (s.wr a bs).fresh = s.fresh := rfl
@[simp] theorem wr_pending (s : State) (a : Nat) (bs : List Byte) : (s.wr a bs).pending = s.pending := rfl

@[simp] theorem putDesc_life (s : State) (d : Nat) (x : Desc) : (putDesc s d x).life = s.life := rfl
@[simp] theorem putDesc_flg (s : State) (d : Nat) (x : Desc) : (putDesc s d x).flg = s.flg := rfl
@[simp] theorem putDesc_flt (s : State) (d : Nat) (x : Desc) : (putDesc s d x).flt = s.flt := rfl
@[simp] theorem putDesc_evt (s : State) (d : Nat) (x : Desc) : (putDesc s d x).evt = s.evt := rfl
@[simp] theorem putDesc_qs (s : State) (d : Nat) (x : Desc) : (putDesc s d x).qs = s.qs := rfl
@[simp] theorem putDesc_jobs (s : State) (d : Nat) (x : Desc) : (putDesc s d x).jobs = s.jobs := rfl
@[simp] theorem putDesc_takeNo (s : State) (d : Nat) (x : Desc) : (putDesc s d x).takeNo = s.takeNo := rfl
@[simp] theorem putDesc_turns (s : State) (d : Nat) (x : Desc) : (putDesc s d x).turns = s.turns := rfl
@[simp] theorem putDesc_cores (s : State) (d : Nat) (x : Desc) : (putDesc s d x).cores = s.cores := rfl
@[simp] theorem putDesc_t0 (s : State) (d : Nat) (x : Desc) : (putDesc s d x).t0 = s.t0 := rfl
@[simp] theorem putDesc_t1 (s : State) (d : Nat) (x : Desc) : (putDesc s d x).t1 = s.t1.put (s.pg.descBase + 16 * d) (leBytes 16 x.toNat) := rfl
@[simp] theorem putDesc_shelf (s : State) (d : Nat) (x : Desc) : (putDesc s d x).shelf = s.shelf := rfl
@[simp] theorem putDesc_tbl (s : State) (d : Nat) (x : Desc) : (putDesc s d x).tbl = s.tbl := rfl
@[simp] theorem putDesc_ring (s : State) (d : Nat) (x : Desc) : (putDesc s d x).ring = s.ring := rfl
@[simp] theorem putDesc_slots (s : State) (d : Nat) (x : Desc) : (putDesc s d x).slots = s.slots := rfl
@[simp] theorem putDesc_pg (s : State) (d : Nat) (x : Desc) : (putDesc s d x).pg = s.pg := rfl
@[simp] theorem putDesc_tier (s : State) (d : Nat) (x : Desc) : (putDesc s d x).tier = s.tier := rfl
@[simp] theorem putDesc_str (s : State) (d : Nat) (x : Desc) : (putDesc s d x).str = s.str := rfl
@[simp] theorem putDesc_sync (s : State) (d : Nat) (x : Desc) : (putDesc s d x).sync = s.sync := rfl
@[simp] theorem putDesc_cas (s : State) (d : Nat) (x : Desc) : (putDesc s d x).cas = s.cas := rfl
@[simp] theorem putDesc_inp (s : State) (d : Nat) (x : Desc) : (putDesc s d x).inp = s.inp := rfl
@[simp] theorem putDesc_pwr (s : State) (d : Nat) (x : Desc) : (putDesc s d x).pwr = s.pwr := rfl
@[simp] theorem putDesc_fuse (s : State) (d : Nat) (x : Desc) : (putDesc s d x).fuse = s.fuse := rfl
@[simp] theorem putDesc_boot (s : State) (d : Nat) (x : Desc) : (putDesc s d x).boot = s.boot := rfl
@[simp] theorem putDesc_mon (s : State) (d : Nat) (x : Desc) : (putDesc s d x).mon = s.mon := rfl
@[simp] theorem putDesc_tap (s : State) (d : Nat) (x : Desc) : (putDesc s d x).tap = s.tap := rfl
@[simp] theorem putDesc_ctl (s : State) (d : Nat) (x : Desc) : (putDesc s d x).ctl = s.ctl := rfl
@[simp] theorem putDesc_sent (s : State) (d : Nat) (x : Desc) : (putDesc s d x).sent = s.sent := rfl
@[simp] theorem putDesc_fresh (s : State) (d : Nat) (x : Desc) : (putDesc s d x).fresh = s.fresh := rfl
@[simp] theorem putDesc_pending (s : State) (d : Nat) (x : Desc) : (putDesc s d x).pending = s.pending := rfl

@[simp] theorem dropFall_life (s : State) (d : Nat) : (dropFall s d).life = s.life := rfl
@[simp] theorem dropFall_flg (s : State) (d : Nat) : (dropFall s d).flg = s.flg := rfl
@[simp] theorem dropFall_flt (s : State) (d : Nat) : (dropFall s d).flt = s.flt := rfl
@[simp] theorem dropFall_evt (s : State) (d : Nat) : (dropFall s d).evt = s.evt := rfl
@[simp] theorem dropFall_qs (s : State) (d : Nat) : (dropFall s d).qs = s.qs := rfl
@[simp] theorem dropFall_jobs (s : State) (d : Nat) : (dropFall s d).jobs = s.jobs := rfl
@[simp] theorem dropFall_takeNo (s : State) (d : Nat) : (dropFall s d).takeNo = s.takeNo := rfl
@[simp] theorem dropFall_turns (s : State) (d : Nat) : (dropFall s d).turns = s.turns := rfl
@[simp] theorem dropFall_cores (s : State) (d : Nat) : (dropFall s d).cores = s.cores := rfl
@[simp] theorem dropFall_t0 (s : State) (d : Nat) : (dropFall s d).t0 = s.t0 := rfl
@[simp] theorem dropFall_t1 (s : State) (d : Nat) : (dropFall s d).t1 = s.t1 := rfl
@[simp] theorem dropFall_shelf (s : State) (d : Nat) : (dropFall s d).shelf = s.shelf := rfl
@[simp] theorem dropFall_tbl (s : State) (d : Nat) : (dropFall s d).tbl = s.tbl := rfl
@[simp] theorem dropFall_ring (s : State) (d : Nat) : (dropFall s d).ring = s.ring := rfl
@[simp] theorem dropFall_slots (s : State) (d : Nat) : (dropFall s d).slots = s.slots := rfl
@[simp] theorem dropFall_pg (s : State) (d : Nat) : (dropFall s d).pg = { s.pg with falls := s.pg.falls.filter fun g => g.d != d } := rfl
@[simp] theorem dropFall_tier (s : State) (d : Nat) : (dropFall s d).tier = s.tier := rfl
@[simp] theorem dropFall_str (s : State) (d : Nat) : (dropFall s d).str = s.str := rfl
@[simp] theorem dropFall_sync (s : State) (d : Nat) : (dropFall s d).sync = s.sync := rfl
@[simp] theorem dropFall_cas (s : State) (d : Nat) : (dropFall s d).cas = s.cas := rfl
@[simp] theorem dropFall_inp (s : State) (d : Nat) : (dropFall s d).inp = s.inp := rfl
@[simp] theorem dropFall_pwr (s : State) (d : Nat) : (dropFall s d).pwr = s.pwr := rfl
@[simp] theorem dropFall_fuse (s : State) (d : Nat) : (dropFall s d).fuse = s.fuse := rfl
@[simp] theorem dropFall_boot (s : State) (d : Nat) : (dropFall s d).boot = s.boot := rfl
@[simp] theorem dropFall_mon (s : State) (d : Nat) : (dropFall s d).mon = s.mon := rfl
@[simp] theorem dropFall_tap (s : State) (d : Nat) : (dropFall s d).tap = s.tap := rfl
@[simp] theorem dropFall_ctl (s : State) (d : Nat) : (dropFall s d).ctl = s.ctl := rfl
@[simp] theorem dropFall_sent (s : State) (d : Nat) : (dropFall s d).sent = s.sent := rfl
@[simp] theorem dropFall_fresh (s : State) (d : Nat) : (dropFall s d).fresh = s.fresh := rfl
@[simp] theorem dropFall_pending (s : State) (d : Nat) : (dropFall s d).pending = s.pending := rfl

@[simp] theorem putChunk_life (s : State) (c : Chunk) : (putChunk s c).life = s.life := rfl
@[simp] theorem putChunk_flg (s : State) (c : Chunk) : (putChunk s c).flg = s.flg := rfl
@[simp] theorem putChunk_flt (s : State) (c : Chunk) : (putChunk s c).flt = s.flt := rfl
@[simp] theorem putChunk_evt (s : State) (c : Chunk) : (putChunk s c).evt = s.evt := rfl
@[simp] theorem putChunk_qs (s : State) (c : Chunk) : (putChunk s c).qs = s.qs := rfl
@[simp] theorem putChunk_jobs (s : State) (c : Chunk) : (putChunk s c).jobs = s.jobs := rfl
@[simp] theorem putChunk_takeNo (s : State) (c : Chunk) : (putChunk s c).takeNo = s.takeNo := rfl
@[simp] theorem putChunk_turns (s : State) (c : Chunk) : (putChunk s c).turns = s.turns := rfl
@[simp] theorem putChunk_cores (s : State) (c : Chunk) : (putChunk s c).cores = s.cores := rfl
@[simp] theorem putChunk_t0 (s : State) (c : Chunk) : (putChunk s c).t0 = s.t0 := rfl
@[simp] theorem putChunk_t1 (s : State) (c : Chunk) : (putChunk s c).t1 = s.t1 := rfl
@[simp] theorem putChunk_shelf (s : State) (c : Chunk) : (putChunk s c).shelf = s.shelf := rfl
@[simp] theorem putChunk_tbl (s : State) (c : Chunk) : (putChunk s c).tbl = s.tbl := rfl
@[simp] theorem putChunk_ring (s : State) (c : Chunk) : (putChunk s c).ring = s.ring := rfl
@[simp] theorem putChunk_slots (s : State) (c : Chunk) : (putChunk s c).slots = s.slots := rfl
@[simp] theorem putChunk_pg (s : State) (c : Chunk) : (putChunk s c).pg = s.pg := rfl
@[simp] theorem putChunk_tier (s : State) (c : Chunk) : (putChunk s c).tier = s.tier := rfl
@[simp] theorem putChunk_str (s : State) (c : Chunk) : (putChunk s c).str = s.str := rfl
@[simp] theorem putChunk_sync (s : State) (c : Chunk) : (putChunk s c).sync = s.sync := rfl
@[simp] theorem putChunk_cas (s : State) (c : Chunk) : (putChunk s c).cas = { s.cas with chunks := c :: s.cas.chunks.filter fun d => !(d.tag == c.tag && d.num == c.num) } := rfl
@[simp] theorem putChunk_inp (s : State) (c : Chunk) : (putChunk s c).inp = s.inp := rfl
@[simp] theorem putChunk_pwr (s : State) (c : Chunk) : (putChunk s c).pwr = s.pwr := rfl
@[simp] theorem putChunk_fuse (s : State) (c : Chunk) : (putChunk s c).fuse = s.fuse := rfl
@[simp] theorem putChunk_boot (s : State) (c : Chunk) : (putChunk s c).boot = s.boot := rfl
@[simp] theorem putChunk_mon (s : State) (c : Chunk) : (putChunk s c).mon = s.mon := rfl
@[simp] theorem putChunk_tap (s : State) (c : Chunk) : (putChunk s c).tap = s.tap := rfl
@[simp] theorem putChunk_ctl (s : State) (c : Chunk) : (putChunk s c).ctl = s.ctl := rfl
@[simp] theorem putChunk_sent (s : State) (c : Chunk) : (putChunk s c).sent = s.sent := rfl
@[simp] theorem putChunk_fresh (s : State) (c : Chunk) : (putChunk s c).fresh = s.fresh := rfl
@[simp] theorem putChunk_pending (s : State) (c : Chunk) : (putChunk s c).pending = s.pending := rfl

@[simp] theorem pulse_life (s : State) (src : Nat) : (pulse s src).life = s.life := rfl
@[simp] theorem pulse_flg (s : State) (src : Nat) : (pulse s src).flg = s.flg := rfl
@[simp] theorem pulse_flt (s : State) (src : Nat) : (pulse s src).flt = s.flt := rfl
@[simp] theorem pulse_qs (s : State) (src : Nat) : (pulse s src).qs = s.qs := rfl
@[simp] theorem pulse_jobs (s : State) (src : Nat) : (pulse s src).jobs = s.jobs := rfl
@[simp] theorem pulse_takeNo (s : State) (src : Nat) : (pulse s src).takeNo = s.takeNo := rfl
@[simp] theorem pulse_turns (s : State) (src : Nat) : (pulse s src).turns = s.turns := rfl
@[simp] theorem pulse_cores (s : State) (src : Nat) : (pulse s src).cores = s.cores := rfl
@[simp] theorem pulse_t0 (s : State) (src : Nat) : (pulse s src).t0 = s.t0 := rfl
@[simp] theorem pulse_t1 (s : State) (src : Nat) : (pulse s src).t1 = s.t1 := rfl
@[simp] theorem pulse_shelf (s : State) (src : Nat) : (pulse s src).shelf = s.shelf := rfl
@[simp] theorem pulse_tbl (s : State) (src : Nat) : (pulse s src).tbl = s.tbl := rfl
@[simp] theorem pulse_ring (s : State) (src : Nat) : (pulse s src).ring = s.ring := rfl
@[simp] theorem pulse_slots (s : State) (src : Nat) : (pulse s src).slots = s.slots := rfl
@[simp] theorem pulse_pg (s : State) (src : Nat) : (pulse s src).pg = s.pg := rfl
@[simp] theorem pulse_tier (s : State) (src : Nat) : (pulse s src).tier = s.tier := rfl
@[simp] theorem pulse_str (s : State) (src : Nat) : (pulse s src).str = s.str := rfl
@[simp] theorem pulse_sync (s : State) (src : Nat) : (pulse s src).sync = s.sync := rfl
@[simp] theorem pulse_cas (s : State) (src : Nat) : (pulse s src).cas = s.cas := rfl
@[simp] theorem pulse_inp (s : State) (src : Nat) : (pulse s src).inp = s.inp := rfl
@[simp] theorem pulse_pwr (s : State) (src : Nat) : (pulse s src).pwr = s.pwr := rfl
@[simp] theorem pulse_fuse (s : State) (src : Nat) : (pulse s src).fuse = s.fuse := rfl
@[simp] theorem pulse_boot (s : State) (src : Nat) : (pulse s src).boot = s.boot := rfl
@[simp] theorem pulse_mon (s : State) (src : Nat) : (pulse s src).mon = s.mon := rfl
@[simp] theorem pulse_tap (s : State) (src : Nat) : (pulse s src).tap = s.tap := rfl
@[simp] theorem pulse_ctl (s : State) (src : Nat) : (pulse s src).ctl = s.ctl := rfl
@[simp] theorem pulse_sent (s : State) (src : Nat) : (pulse s src).sent = s.sent := rfl
@[simp] theorem pulse_fresh (s : State) (src : Nat) : (pulse s src).fresh = s.fresh := rfl
@[simp] theorem pulse_pending (s : State) (src : Nat) : (pulse s src).pending = s.pending := rfl

@[simp] theorem levelRise_life (s : State) (src : Nat) : (levelRise s src).life = s.life := rfl
@[simp] theorem levelRise_flg (s : State) (src : Nat) : (levelRise s src).flg = s.flg := rfl
@[simp] theorem levelRise_flt (s : State) (src : Nat) : (levelRise s src).flt = s.flt := rfl
@[simp] theorem levelRise_qs (s : State) (src : Nat) : (levelRise s src).qs = s.qs := rfl
@[simp] theorem levelRise_jobs (s : State) (src : Nat) : (levelRise s src).jobs = s.jobs := rfl
@[simp] theorem levelRise_takeNo (s : State) (src : Nat) : (levelRise s src).takeNo = s.takeNo := rfl
@[simp] theorem levelRise_turns (s : State) (src : Nat) : (levelRise s src).turns = s.turns := rfl
@[simp] theorem levelRise_cores (s : State) (src : Nat) : (levelRise s src).cores = s.cores := rfl
@[simp] theorem levelRise_t0 (s : State) (src : Nat) : (levelRise s src).t0 = s.t0 := rfl
@[simp] theorem levelRise_t1 (s : State) (src : Nat) : (levelRise s src).t1 = s.t1 := rfl
@[simp] theorem levelRise_shelf (s : State) (src : Nat) : (levelRise s src).shelf = s.shelf := rfl
@[simp] theorem levelRise_tbl (s : State) (src : Nat) : (levelRise s src).tbl = s.tbl := rfl
@[simp] theorem levelRise_ring (s : State) (src : Nat) : (levelRise s src).ring = s.ring := rfl
@[simp] theorem levelRise_slots (s : State) (src : Nat) : (levelRise s src).slots = s.slots := rfl
@[simp] theorem levelRise_pg (s : State) (src : Nat) : (levelRise s src).pg = s.pg := rfl
@[simp] theorem levelRise_tier (s : State) (src : Nat) : (levelRise s src).tier = s.tier := rfl
@[simp] theorem levelRise_str (s : State) (src : Nat) : (levelRise s src).str = s.str := rfl
@[simp] theorem levelRise_sync (s : State) (src : Nat) : (levelRise s src).sync = s.sync := rfl
@[simp] theorem levelRise_cas (s : State) (src : Nat) : (levelRise s src).cas = s.cas := rfl
@[simp] theorem levelRise_inp (s : State) (src : Nat) : (levelRise s src).inp = s.inp := rfl
@[simp] theorem levelRise_pwr (s : State) (src : Nat) : (levelRise s src).pwr = s.pwr := rfl
@[simp] theorem levelRise_fuse (s : State) (src : Nat) : (levelRise s src).fuse = s.fuse := rfl
@[simp] theorem levelRise_boot (s : State) (src : Nat) : (levelRise s src).boot = s.boot := rfl
@[simp] theorem levelRise_mon (s : State) (src : Nat) : (levelRise s src).mon = s.mon := rfl
@[simp] theorem levelRise_tap (s : State) (src : Nat) : (levelRise s src).tap = s.tap := rfl
@[simp] theorem levelRise_ctl (s : State) (src : Nat) : (levelRise s src).ctl = s.ctl := rfl
@[simp] theorem levelRise_sent (s : State) (src : Nat) : (levelRise s src).sent = s.sent := rfl
@[simp] theorem levelRise_fresh (s : State) (src : Nat) : (levelRise s src).fresh = s.fresh := rfl
@[simp] theorem levelRise_pending (s : State) (src : Nat) : (levelRise s src).pending = s.pending := rfl

@[simp] theorem settleClaims_life (s : State) (cmd : Nat) : (settleClaims s cmd).life = s.life := rfl
@[simp] theorem settleClaims_flt (s : State) (cmd : Nat) : (settleClaims s cmd).flt = s.flt := rfl
@[simp] theorem settleClaims_evt (s : State) (cmd : Nat) : (settleClaims s cmd).evt = s.evt := rfl
@[simp] theorem settleClaims_qs (s : State) (cmd : Nat) : (settleClaims s cmd).qs = s.qs := rfl
@[simp] theorem settleClaims_jobs (s : State) (cmd : Nat) : (settleClaims s cmd).jobs = s.jobs := rfl
@[simp] theorem settleClaims_takeNo (s : State) (cmd : Nat) : (settleClaims s cmd).takeNo = s.takeNo := rfl
@[simp] theorem settleClaims_turns (s : State) (cmd : Nat) : (settleClaims s cmd).turns = s.turns := rfl
@[simp] theorem settleClaims_cores (s : State) (cmd : Nat) : (settleClaims s cmd).cores = s.cores := rfl
@[simp] theorem settleClaims_t0 (s : State) (cmd : Nat) : (settleClaims s cmd).t0 = s.t0 := rfl
@[simp] theorem settleClaims_t1 (s : State) (cmd : Nat) : (settleClaims s cmd).t1 = s.t1 := rfl
@[simp] theorem settleClaims_shelf (s : State) (cmd : Nat) : (settleClaims s cmd).shelf = s.shelf := rfl
@[simp] theorem settleClaims_tbl (s : State) (cmd : Nat) : (settleClaims s cmd).tbl = s.tbl := rfl
@[simp] theorem settleClaims_ring (s : State) (cmd : Nat) : (settleClaims s cmd).ring = s.ring := rfl
@[simp] theorem settleClaims_slots (s : State) (cmd : Nat) : (settleClaims s cmd).slots = s.slots := rfl
@[simp] theorem settleClaims_pg (s : State) (cmd : Nat) : (settleClaims s cmd).pg = s.pg := rfl
@[simp] theorem settleClaims_tier (s : State) (cmd : Nat) : (settleClaims s cmd).tier = s.tier := rfl
@[simp] theorem settleClaims_str (s : State) (cmd : Nat) : (settleClaims s cmd).str = s.str := rfl
@[simp] theorem settleClaims_sync (s : State) (cmd : Nat) : (settleClaims s cmd).sync = s.sync := rfl
@[simp] theorem settleClaims_cas (s : State) (cmd : Nat) : (settleClaims s cmd).cas = s.cas := rfl
@[simp] theorem settleClaims_inp (s : State) (cmd : Nat) : (settleClaims s cmd).inp = s.inp := rfl
@[simp] theorem settleClaims_pwr (s : State) (cmd : Nat) : (settleClaims s cmd).pwr = s.pwr := rfl
@[simp] theorem settleClaims_fuse (s : State) (cmd : Nat) : (settleClaims s cmd).fuse = s.fuse := rfl
@[simp] theorem settleClaims_boot (s : State) (cmd : Nat) : (settleClaims s cmd).boot = s.boot := rfl
@[simp] theorem settleClaims_mon (s : State) (cmd : Nat) : (settleClaims s cmd).mon = s.mon := rfl
@[simp] theorem settleClaims_tap (s : State) (cmd : Nat) : (settleClaims s cmd).tap = s.tap := rfl
@[simp] theorem settleClaims_ctl (s : State) (cmd : Nat) : (settleClaims s cmd).ctl = s.ctl := rfl
@[simp] theorem settleClaims_sent (s : State) (cmd : Nat) : (settleClaims s cmd).sent = s.sent := rfl
@[simp] theorem settleClaims_fresh (s : State) (cmd : Nat) : (settleClaims s cmd).fresh = s.fresh := rfl
@[simp] theorem settleClaims_pending (s : State) (cmd : Nat) : (settleClaims s cmd).pending = s.pending := rfl

@[simp] theorem passTime_life (s : State) (d : Nat) : (passTime s d).life = { s.life with lt := add64 s.life.lt d } := rfl
@[simp] theorem passTime_flg (s : State) (d : Nat) : (passTime s d).flg = s.flg := rfl
@[simp] theorem passTime_flt (s : State) (d : Nat) : (passTime s d).flt = s.flt := rfl
@[simp] theorem passTime_evt (s : State) (d : Nat) : (passTime s d).evt = s.evt := rfl
@[simp] theorem passTime_qs (s : State) (d : Nat) : (passTime s d).qs = s.qs := rfl
@[simp] theorem passTime_jobs (s : State) (d : Nat) : (passTime s d).jobs = s.jobs := rfl
@[simp] theorem passTime_takeNo (s : State) (d : Nat) : (passTime s d).takeNo = s.takeNo := rfl
@[simp] theorem passTime_turns (s : State) (d : Nat) : (passTime s d).turns = s.turns := rfl
@[simp] theorem passTime_cores (s : State) (d : Nat) : (passTime s d).cores = s.cores := rfl
@[simp] theorem passTime_t0 (s : State) (d : Nat) : (passTime s d).t0 = s.t0 := rfl
@[simp] theorem passTime_t1 (s : State) (d : Nat) : (passTime s d).t1 = s.t1 := rfl
@[simp] theorem passTime_shelf (s : State) (d : Nat) : (passTime s d).shelf = s.shelf := rfl
@[simp] theorem passTime_tbl (s : State) (d : Nat) : (passTime s d).tbl = s.tbl := rfl
@[simp] theorem passTime_ring (s : State) (d : Nat) : (passTime s d).ring = s.ring := rfl
@[simp] theorem passTime_pg (s : State) (d : Nat) : (passTime s d).pg = s.pg := rfl
@[simp] theorem passTime_tier (s : State) (d : Nat) : (passTime s d).tier = s.tier := rfl
@[simp] theorem passTime_sync (s : State) (d : Nat) : (passTime s d).sync = s.sync := rfl
@[simp] theorem passTime_fuse (s : State) (d : Nat) : (passTime s d).fuse = s.fuse := rfl
@[simp] theorem passTime_boot (s : State) (d : Nat) : (passTime s d).boot = s.boot := rfl
@[simp] theorem passTime_mon (s : State) (d : Nat) : (passTime s d).mon = s.mon := rfl
@[simp] theorem passTime_tap (s : State) (d : Nat) : (passTime s d).tap = s.tap := rfl
@[simp] theorem passTime_ctl (s : State) (d : Nat) : (passTime s d).ctl = s.ctl := rfl
@[simp] theorem passTime_sent (s : State) (d : Nat) : (passTime s d).sent = s.sent := rfl
@[simp] theorem passTime_fresh (s : State) (d : Nat) : (passTime s d).fresh = s.fresh := rfl
@[simp] theorem passTime_pending (s : State) (d : Nat) : (passTime s d).pending = s.pending := rfl

@[simp] theorem served_life (s : State) (j : Job) : (s.served j).life = s.life := by unfold State.served; split <;> rfl
@[simp] theorem served_flg (s : State) (j : Job) : (s.served j).flg = s.flg := by unfold State.served; split <;> rfl
@[simp] theorem served_flt (s : State) (j : Job) : (s.served j).flt = s.flt := by unfold State.served; split <;> rfl
@[simp] theorem served_evt (s : State) (j : Job) : (s.served j).evt = s.evt := by unfold State.served; split <;> rfl
@[simp] theorem served_qs (s : State) (j : Job) : (s.served j).qs = s.qs := by unfold State.served; split <;> rfl
@[simp] theorem served_jobs (s : State) (j : Job) : (s.served j).jobs = s.jobs := by unfold State.served; split <;> rfl
@[simp] theorem served_takeNo (s : State) (j : Job) : (s.served j).takeNo = s.takeNo := by unfold State.served; split <;> rfl
@[simp] theorem served_cores (s : State) (j : Job) : (s.served j).cores = s.cores := by unfold State.served; split <;> rfl
@[simp] theorem served_t0 (s : State) (j : Job) : (s.served j).t0 = s.t0 := by unfold State.served; split <;> rfl
@[simp] theorem served_t1 (s : State) (j : Job) : (s.served j).t1 = s.t1 := by unfold State.served; split <;> rfl
@[simp] theorem served_shelf (s : State) (j : Job) : (s.served j).shelf = s.shelf := by unfold State.served; split <;> rfl
@[simp] theorem served_tbl (s : State) (j : Job) : (s.served j).tbl = s.tbl := by unfold State.served; split <;> rfl
@[simp] theorem served_ring (s : State) (j : Job) : (s.served j).ring = s.ring := by unfold State.served; split <;> rfl
@[simp] theorem served_slots (s : State) (j : Job) : (s.served j).slots = s.slots := by unfold State.served; split <;> rfl
@[simp] theorem served_pg (s : State) (j : Job) : (s.served j).pg = s.pg := by unfold State.served; split <;> rfl
@[simp] theorem served_tier (s : State) (j : Job) : (s.served j).tier = s.tier := by unfold State.served; split <;> rfl
@[simp] theorem served_str (s : State) (j : Job) : (s.served j).str = s.str := by unfold State.served; split <;> rfl
@[simp] theorem served_sync (s : State) (j : Job) : (s.served j).sync = s.sync := by unfold State.served; split <;> rfl
@[simp] theorem served_cas (s : State) (j : Job) : (s.served j).cas = s.cas := by unfold State.served; split <;> rfl
@[simp] theorem served_inp (s : State) (j : Job) : (s.served j).inp = s.inp := by unfold State.served; split <;> rfl
@[simp] theorem served_pwr (s : State) (j : Job) : (s.served j).pwr = s.pwr := by unfold State.served; split <;> rfl
@[simp] theorem served_fuse (s : State) (j : Job) : (s.served j).fuse = s.fuse := by unfold State.served; split <;> rfl
@[simp] theorem served_boot (s : State) (j : Job) : (s.served j).boot = s.boot := by unfold State.served; split <;> rfl
@[simp] theorem served_mon (s : State) (j : Job) : (s.served j).mon = s.mon := by unfold State.served; split <;> rfl
@[simp] theorem served_tap (s : State) (j : Job) : (s.served j).tap = s.tap := by unfold State.served; split <;> rfl
@[simp] theorem served_ctl (s : State) (j : Job) : (s.served j).ctl = s.ctl := by unfold State.served; split <;> rfl
@[simp] theorem served_sent (s : State) (j : Job) : (s.served j).sent = s.sent := by unfold State.served; split <;> rfl
@[simp] theorem served_fresh (s : State) (j : Job) : (s.served j).fresh = s.fresh := by unfold State.served; split <;> rfl
@[simp] theorem served_pending (s : State) (j : Job) : (s.served j).pending = s.pending := by unfold State.served; split <;> rfl

end Sys2Proof.Laws
end

