-- ==== Sys2Proof/Laws/Tab.lean ====
section
/-! SUPPORT. Tables: what a lookup finds after a write or a removal. -/
namespace Sys2Proof.Laws
open Sys2Proof Sys2Proof.Machine

variable {α : Type}

/-- A lookup of the key written finds what was written. -/
@[simp] theorem find_put_self (t : Tab α) (k : Nat) (a : α) : Tab.find (Tab.put t k a) k = some a := by
  induction t with
  | nil => simp [Tab.put, Tab.find]
  | cons p t ih =>
    obtain ⟨i, b⟩ := p
    simp only [Tab.put]
    split
    · simp [Tab.find]
    · split
      · simp [Tab.find]
      · rename_i h
        simp only [Tab.find]
        rw [if_neg (fun h' => h h'.symm), ih]

/-- A lookup of another key finds what it found before. -/
theorem find_put_ne (t : Tab α) (k i : Nat) (a : α) (h : i ≠ k) : Tab.find (Tab.put t k a) i = Tab.find t i := by
  have hk : k ≠ i := fun e => h e.symm
  induction t with
  | nil => simp [Tab.put, Tab.find, hk]
  | cons p t ih =>
    obtain ⟨j, b⟩ := p
    simp only [Tab.put]
    split
    · simp [Tab.find, hk]
    · split
      · rename_i e
        subst e
        simp [Tab.find, hk]
      · simp only [Tab.find, ih]

/-- The value at the key written. -/
@[simp] theorem get_put_self (t : Tab α) (k : Nat) (a d : α) : Tab.get (Tab.put t k a) k d = a := by simp [Tab.get]

/-- The value at another key. -/
theorem get_put_ne (t : Tab α) (k i : Nat) (a d : α) (h : i ≠ k) : Tab.get (Tab.put t k a) i d = Tab.get t i d := by
  simp [Tab.get, find_put_ne t k i a h]

/-- A removed key is not found. -/
@[simp] theorem find_del_self (t : Tab α) (k : Nat) : Tab.find (Tab.del t k) k = none := by
  induction t with
  | nil => rfl
  | cons p t ih =>
    obtain ⟨i, b⟩ := p
    by_cases h : i = k
    · subst h
      simpa [Tab.del] using ih
    · simpa [Tab.del, h, Tab.find] using ih

/-- A lookup of a key that is not removed finds what it found before. -/
theorem find_del_ne (t : Tab α) (k i : Nat) (h : i ≠ k) : Tab.find (Tab.del t k) i = Tab.find t i := by
  induction t with
  | nil => rfl
  | cons p t ih =>
    obtain ⟨j, b⟩ := p
    by_cases e : j = k
    · subst e
      have hj : j ≠ i := fun e => h e.symm
      simpa [Tab.del, Tab.find, hj] using ih
    · by_cases f : j = i
      · subst f
        simp [Tab.del, Tab.find, e]
      · simpa [Tab.del, Tab.find, e, f] using ih

end Sys2Proof.Laws
end

