-- ==== Sys2Proof/Laws/Ops.lean ====
section
/-! SUPPORT. What each shared operation can do: which fields it touches, and what stays of time and memory. -/
namespace Sys2Proof.Laws
open Sys2Proof Sys2Proof.Machine

/-- A trace entry touches T1 and the monitor. -/
theorem trace_eq (s : State) (code cls core q n op arg : Nat) :
    trace s code cls core q n op arg =
      { s with t1 := (trace s code cls core q n op arg).t1, mon := (trace s code cls core q n op arg).mon } := by
  unfold trace
  simp only
  split <;> rfl

/-- With capture off, nothing is traced. -/
theorem trace_off (s : State) (code cls core q n op arg : Nat) (h : s.mon.trOn = false) : trace s code cls core q n op arg = s := by
  simp [trace, h]

/-- A trace entry keeps T1 in canonical form. -/
theorem trace_wf (s : State) (code cls core q n op arg : Nat) (h : s.t1.bytes.wf = true) :
    (trace s code cls core q n op arg).t1.bytes.wf = true := by
  unfold trace
  simp only
  split
  · exact put_wf _ _ h
  · exact h

/-- A pulse touches the event lines. -/
theorem pulse_eq (s : State) (src : Nat) : pulse s src = { s with evt := (pulse s src).evt } := rfl

/-- A violation touches the log, the event lines, T1 and the monitor (by the trace). -/
theorem viol_eq (s : State) (cmd cause detail aux : Nat) :
    viol s cmd cause detail aux =
      { s with
        flt := (viol s cmd cause detail aux).flt
        evt := (viol s cmd cause detail aux).evt
        t1 := (viol s cmd cause detail aux).t1
        mon := (viol s cmd cause detail aux).mon } := by
  unfold viol
  simp only
  rw [trace_eq]
  rfl

/-- A violation keeps T1 in canonical form. -/
theorem viol_wf (s : State) (cmd cause detail aux : Nat) (h : s.t1.bytes.wf = true) : (viol s cmd cause detail aux).t1.bytes.wf = true :=
  trace_wf _ _ _ _ _ _ _ _ h

/-- A partner violation touches what a violation touches. -/
theorem portViol_eq (s : State) (port code aux : Nat) :
    portViol s port code aux =
      { s with
        flt := (portViol s port code aux).flt
        evt := (portViol s port code aux).evt
        t1 := (portViol s port code aux).t1
        mon := (portViol s port code aux).mon } := by
  unfold portViol
  simp only
  split
  · rfl
  · rw [viol_eq]

/-- A fault touches the fault registers, the event lines, T1 and the monitor. -/
theorem fault_eq (s : State) (cls code core : Nat) (inj : Bool) (cmd detail aux : Nat) :
    fault s cls code core inj cmd detail aux =
      { s with
        flt := (fault s cls code core inj cmd detail aux).flt
        evt := (fault s cls code core inj cmd detail aux).evt
        t1 := (fault s cls code core inj cmd detail aux).t1
        mon := (fault s cls code core inj cmd detail aux).mon } := by
  unfold fault
  simp only
  split
  · rfl
  · rw [trace_eq]
    split <;> rfl

/-- A fault keeps T1 in canonical form. -/
theorem fault_wf (s : State) (cls code core : Nat) (inj : Bool) (cmd detail aux : Nat) (h : s.t1.bytes.wf = true) :
    (fault s cls code core inj cmd detail aux).t1.bytes.wf = true := by
  unfold fault
  simp only
  split
  · exact h
  · apply trace_wf
    split <;> exact h

/-- A count touches the stream registers. -/
theorem count_eq (s : State) (core slot d : Nat) : count s core slot d = { s with str := (count s core slot d).str } := by
  unfold count
  split <;> rfl

/-- A bubble count touches the cores. -/
theorem bubbles_eq (s : State) (core n : Nat) : bubbles s core n = { s with cores := (bubbles s core n).cores } := by
  unfold bubbles
  split <;> rfl

/-- A slot's change of state touches the slots, T1 and the monitor (by the trace). -/
theorem setSlotState_eq (s : State) (i : Nat) (x : Slot) (st : Nat) :
    setSlotState s i x st =
      { s with
        slots := (setSlotState s i x st).slots
        t1 := (setSlotState s i x st).t1
        mon := (setSlotState s i x st).mon } := by
  unfold setSlotState
  simp only
  rw [trace_eq]

/-- With capture off a slot's change of state leaves T1 and the monitor. -/
theorem setSlotState_off (s : State) (i : Nat) (x : Slot) (st : Nat) (h : s.mon.trOn = false) :
    (setSlotState s i x st).t1 = s.t1 ∧ (setSlotState s i x st).mon = s.mon := by
  simp [setSlotState, trace, h]

/-- A report touches the flag registers and the event lines. -/
theorem report_eq (s : State) (cmd core : Nat) (r : Rep) :
    report s cmd core r = { s with flg := (report s cmd core r).flg, evt := (report s cmd core r).evt } := by
  unfold report
  simp only
  repeat' split
  all_goals rfl

/-- A report OR-s its flags into the sticky flags. -/
theorem report_eng (s : State) (cmd core : Nat) (r : Rep) : (report s cmd core r).flg.eng = s.flg.eng ||| r.fl := by
  unfold report
  simp only
  repeat' split
  all_goals rfl

/-- Time moves forward only, and stays a 64-bit number. -/
theorem advance_lt (s : State) (lt : Dword) (h : s.life.lt < 2 ^ 64) :
    s.life.lt ≤ (advance s lt).life.lt ∧ (advance s lt).life.lt < 2 ^ 64 := by
  unfold advance
  split
  · exact ⟨Nat.le_refl _, h⟩
  · have := lt.isLt
    simp only [passTime_life, add64]
    omega

/-- Where time runs, it stands at the row's LT or, when that is past, where it stood. -/
theorem advance_runs (s : State) (lt : Dword) (h : s.life.lt < 2 ^ 64) (h1 : s.life.refLost = false) (h2 : s.life.rstLow = false) :
    (advance s lt).life.lt = max s.life.lt lt.toNat := by
  have := lt.isLt
  simp only [advance, h1, h2, Bool.or_self, Bool.false_eq_true, if_false, passTime_life, add64]
  omega

/-- Time touches nothing but the counts that grow by time. -/
theorem advance_eq (s : State) (lt : Dword) :
    advance s lt =
      { s with
        life := (advance s lt).life
        inp := (advance s lt).inp
        slots := (advance s lt).slots
        cas := (advance s lt).cas
        str := (advance s lt).str
        pwr := (advance s lt).pwr } := by
  unfold advance
  split <;> rfl

/-- After a change of a taken command, its queue and number name the changed command. -/
theorem job_setJob (s : State) (q n : Nat) (j k : Job) (h : s.job q n = some j) (ht : k.take = j.take) (hq : k.q = q) (hn : k.n = n) :
    (s.setJob k).job q n = some k := by
  unfold State.job at h ⊢
  simp only [setJob_jobs]
  have hk : (k.q == q && k.n == n) = true := by simp [hq, hn]
  generalize s.jobs = l at h
  induction l with
  | nil => simp at h
  | cons x l ih =>
    rw [List.map_cons, List.find?_cons]
    rw [List.find?_cons] at h
    by_cases et : (x.take == k.take) = true
    · simp only [et, if_true, hk]
    · cases ex : (x.q == q && x.n == n) with
      | true =>
        simp only [ex, Option.some.injEq] at h
        subst h
        simp [ht] at et
      | false =>
        simp only [ex] at h
        simp only [et, Bool.false_eq_true, if_false, ex]
        exact ih h

end Sys2Proof.Laws
end

