-- ==== Sys2Proof/WellFormed.lean ====
section
/-! DEFINITION. Which commands are well formed: what no sender can put on the ports or pins at all. A message or response
that a partner can send wrongly stays well formed, and the engine answers it (15 R514, 14 R450). -/
namespace Sys2Proof

/-- A self-test failure names a test of 16 R522. -/
def SelfTestFail.wf (t : SelfTestFail) : Bool := decide (1 ≤ t.test.toNat) && decide (t.test.toNat ≤ 6)

/-- A failure, if any, is well formed. -/
def optTestWf : Option SelfTestFail → Bool
  | none => true
  | some t => t.wf

/-- The operands lie in the ranges of the ports that carry them: a unit of read data has 64 bytes (15 R483), a credit grant
is 1 to 255 (15 R484), there are 16 monitors and sensors (16 R537), BYPASS stands for its own code and the reserved ones
(15 R512), and a received message carries its row's type (14 R450). -/
def Instr.wf (i : Instr) : Bool :=
  match i with
  | .streamReadData _ _ _ _ _ _ d => d.length == 64
  | .shelfReadData _ _ _ _ _ d => d.length == 64
  | .streamCreditGrant _ _ k => k != 0
  | .linkCreditGrant _ k => k != 0
  | .beatRateWindow _ r => r.length == 16
  | .telemetryUpdate _ t _ => t.length == 16
  | .bypass c => decide (5 ≤ c.toNat)
  | .bootComplete _ t _ => optTestWf t
  | .stest t _ => optTestWf t
  | .joinMsg m => m.type == 0x01
  | .welcomeMsg m => m.type == 0x02
  | .startMsg m => m.type == 0x03
  | .refuseMsg m => m.type == 0x04
  | .arriveMsg m => m.type == 0x10
  | .releaseMsg m => m.type == 0x11
  | .contrib m => m.type == 0x20
  | .resultMsg m => m.type == 0x21
  | .creditMsg m => m.type == 0x22
  | .nak m => m.type == 0x23
  | .abandon m => m.type == 0x24
  | .commitMsg m => m.type == 0x30
  | .repeatMsg m => m.type == 0x31
  | .repeatAck m => m.type == 0x32
  | .resumeMsg m => m.type == 0x33
  | .cascadeHalt m => m.type == 0x34
  | .aperWr m => m.type == 0x40
  | .aperRd m => m.type == 0x41
  | .aperData m => m.type == 0x42
  | .aperAck m => m.type == 0x43
  | _ => true

end Sys2Proof
end

