-- ==== Sys2Proof/Laws/PerInstr.lean ====
section
/-! SUPPORT. What well-formedness of each command says of its operands. -/
namespace Sys2Proof.Laws.WellFormedOperands
set_option Elab.async false
open Sys2Proof

/-- A command is well formed just when its operands fit the ports that carry them. -/
def Statement (i : Instr) : Prop :=
  i.wf = true ↔
    match i with
    | .streamReadData _ _ _ _ _ _ d => d.length = 64
    | .shelfReadData _ _ _ _ _ d => d.length = 64
    | .streamCreditGrant _ _ k => k ≠ 0
    | .linkCreditGrant _ k => k ≠ 0
    | .beatRateWindow _ r => r.length = 16
    | .telemetryUpdate _ t _ => t.length = 16
    | .bypass c => 5 ≤ c.toNat
    | .bootComplete _ t _ => ∀ f, t = some f → 1 ≤ f.test.toNat ∧ f.test.toNat ≤ 6
    | .stest t _ => ∀ f, t = some f → 1 ≤ f.test.toNat ∧ f.test.toNat ≤ 6
    | .joinMsg m => m.type = 0x01
    | .welcomeMsg m => m.type = 0x02
    | .startMsg m => m.type = 0x03
    | .refuseMsg m => m.type = 0x04
    | .arriveMsg m => m.type = 0x10
    | .releaseMsg m => m.type = 0x11
    | .contrib m => m.type = 0x20
    | .resultMsg m => m.type = 0x21
    | .creditMsg m => m.type = 0x22
    | .nak m => m.type = 0x23
    | .abandon m => m.type = 0x24
    | .commitMsg m => m.type = 0x30
    | .repeatMsg m => m.type = 0x31
    | .repeatAck m => m.type = 0x32
    | .resumeMsg m => m.type = 0x33
    | .cascadeHalt m => m.type = 0x34
    | .aperWr m => m.type = 0x40
    | .aperRd m => m.type = 0x41
    | .aperData m => m.type = 0x42
    | .aperAck m => m.type = 0x43
    | _ => True

theorem commandTake (q : BitVec 6) : Statement (.commandTake q) := by simp [Statement, Instr.wf]
theorem dependencyRelease (q : BitVec 6) (n : BitVec 16) : Statement (.dependencyRelease q n) := by simp [Statement, Instr.wf]
theorem mma (q : BitVec 6) (n : BitVec 16) : Statement (.mma q n) := by simp [Statement, Instr.wf]
theorem dmm (q : BitVec 6) (n : BitVec 16) : Statement (.dmm q n) := by simp [Statement, Instr.wf]
theorem conv (q : BitVec 6) (n : BitVec 16) : Statement (.conv q n) := by simp [Statement, Instr.wf]
theorem scan (q : BitVec 6) (n : BitVec 16) : Statement (.scan q n) := by simp [Statement, Instr.wf]
theorem stepCmd (q : BitVec 6) (n : BitVec 16) : Statement (.stepCmd q n) := by simp [Statement, Instr.wf]
theorem attn (q : BitVec 6) (n : BitVec 16) : Statement (.attn q n) := by simp [Statement, Instr.wf]
theorem vec (q : BitVec 6) (n : BitVec 16) : Statement (.vec q n) := by simp [Statement, Instr.wf]
theorem sfn (q : BitVec 6) (n : BitVec 16) : Statement (.sfn q n) := by simp [Statement, Instr.wf]
theorem norm (q : BitVec 6) (n : BitVec 16) : Statement (.norm q n) := by simp [Statement, Instr.wf]
theorem smax (q : BitVec 6) (n : BitVec 16) : Statement (.smax q n) := by simp [Statement, Instr.wf]
theorem topk (q : BitVec 6) (n : BitVec 16) : Statement (.topk q n) := by simp [Statement, Instr.wf]
theorem copy (q : BitVec 6) (n : BitVec 16) : Statement (.copy q n) := by simp [Statement, Instr.wf]
theorem fill (q : BitVec 6) (n : BitVec 16) : Statement (.fill q n) := by simp [Statement, Instr.wf]
theorem admitCmd (q : BitVec 6) (n : BitVec 16) : Statement (.admitCmd q n) := by simp [Statement, Instr.wf]
theorem park (q : BitVec 6) (n : BitVec 16) : Statement (.park q n) := by simp [Statement, Instr.wf]
theorem unpark (q : BitVec 6) (n : BitVec 16) : Statement (.unpark q n) := by simp [Statement, Instr.wf]
theorem pin (q : BitVec 6) (n : BitVec 16) : Statement (.pin q n) := by simp [Statement, Instr.wf]
theorem unpin (q : BitVec 6) (n : BitVec 16) : Statement (.unpin q n) := by simp [Statement, Instr.wf]
theorem fork (q : BitVec 6) (n : BitVec 16) : Statement (.fork q n) := by simp [Statement, Instr.wf]
theorem retire (q : BitVec 6) (n : BitVec 16) : Statement (.retire q n) := by simp [Statement, Instr.wf]
theorem pageRise (q : BitVec 6) (n : BitVec 16) : Statement (.pageRise q n) := by simp [Statement, Instr.wf]
theorem pageFall (q : BitVec 6) (n : BitVec 16) : Statement (.pageFall q n) := by simp [Statement, Instr.wf]
theorem fence (q : BitVec 6) (n : BitVec 16) : Statement (.fence q n) := by simp [Statement, Instr.wf]
theorem barrier (q : BitVec 6) (n : BitVec 16) : Statement (.barrier q n) := by simp [Statement, Instr.wf]
theorem barrierArrival (q : BitVec 6) (n : BitVec 16) : Statement (.barrierArrival q n) := by simp [Statement, Instr.wf]
theorem signal (q : BitVec 6) (n : BitVec 16) : Statement (.signal q n) := by simp [Statement, Instr.wf]
theorem waitCmd (q : BitVec 6) (n : BitVec 16) : Statement (.waitCmd q n) := by simp [Statement, Instr.wf]
theorem reduce (q : BitVec 6) (n : BitVec 16) : Statement (.reduce q n) := by simp [Statement, Instr.wf]
theorem tableCmd (q : BitVec 6) (n : BitVec 16) : Statement (.tableCmd q n) := by simp [Statement, Instr.wf]
theorem tableReloadStart (q : BitVec 6) (n : BitVec 16) : Statement (.tableReloadStart q n) := by simp [Statement, Instr.wf]
theorem epochSwitch (sfu : Bool) : Statement (.epochSwitch sfu) := by simp [Statement, Instr.wf]
theorem nop (q : BitVec 6) (n : BitVec 16) : Statement (.nop q n) := by simp [Statement, Instr.wf]
theorem qDoorbell (q : BitVec 6) (v : Word) : Statement (.qDoorbell q v) := by simp [Statement, Instr.wf]
theorem qCancel (q : BitVec 6) (v : Word) : Statement (.qCancel q v) := by simp [Statement, Instr.wf]
theorem engFlags (v : Word) : Statement (.engFlags v) := by simp [Statement, Instr.wf]
theorem recover : Statement (.recover) := by simp [Statement, Instr.wf]
theorem service : Statement (.service) := by simp [Statement, Instr.wf]
theorem faultClear (v : Word) : Statement (.faultClear v) := by simp [Statement, Instr.wf]
theorem vlogClear (v : Word) : Statement (.vlogClear v) := by simp [Statement, Instr.wf]
theorem haltRel : Statement (.haltRel) := by simp [Statement, Instr.wf]
theorem wakeRearm : Statement (.wakeRearm) := by simp [Statement, Instr.wf]
theorem thermRearm : Statement (.thermRearm) := by simp [Statement, Instr.wf]
theorem droopClr : Statement (.droopClr) := by simp [Statement, Instr.wf]
theorem clearCounters (on : Bool) : Statement (.clearCounters on) := by simp [Statement, Instr.wf]
theorem freezeCounters (on : Bool) : Statement (.freezeCounters on) := by simp [Statement, Instr.wf]
theorem slotFind (v : Word) : Statement (.slotFind v) := by simp [Statement, Instr.wf]
theorem slotSel (v : Word) : Statement (.slotSel v) := by simp [Statement, Instr.wf]
theorem slotWin0Read : Statement (.slotWin0Read) := by simp [Statement, Instr.wf]
theorem tblDataRead : Statement (.tblDataRead) := by simp [Statement, Instr.wf]
theorem tblDataWrite (v : Word) : Statement (.tblDataWrite v) := by simp [Statement, Instr.wf]
theorem cwDataRead (c : BitVec 8) : Statement (.cwDataRead c) := by simp [Statement, Instr.wf]
theorem cwDataWrite (c : BitVec 8) (v : Word) : Statement (.cwDataWrite c v) := by simp [Statement, Instr.wf]
theorem reg64LowRead (a : BitVec 24) : Statement (.reg64LowRead a) := by simp [Statement, Instr.wf]
theorem reg64LowWrite (a : BitVec 24) (v : Word) : Statement (.reg64LowWrite a v) := by simp [Statement, Instr.wf]
theorem reg64HighWrite (a : BitVec 24) (v : Word) : Statement (.reg64HighWrite a v) := by simp [Statement, Instr.wf]
theorem casEnable (v : Word) : Statement (.casEnable v) := by simp [Statement, Instr.wf]
theorem casDisable : Statement (.casDisable) := by simp [Statement, Instr.wf]
theorem regWrite (a : BitVec 24) (v : Word) : Statement (.regWrite a v) := by simp [Statement, Instr.wf]
theorem streamReadData (p : BitVec 2) (id : BitVec 19) (unit : BitVec 2) (last err poison : Bool) (data : List Byte) : Statement (.streamReadData p id unit last err poison data) := by simp [Statement, Instr.wf]
theorem streamWriteAck (p : BitVec 2) (id : BitVec 19) (err : Bool) : Statement (.streamWriteAck p id err) := by simp [Statement, Instr.wf]
theorem streamCreditGrant (p : BitVec 2) (wdata : Bool) (k : BitVec 8) : Statement (.streamCreditGrant p wdata k) := by simp [Statement, Instr.wf]
theorem shelfReadData (id : BitVec 19) (unit : BitVec 2) (last err poison : Bool) (data : List Byte) : Statement (.shelfReadData id unit last err poison data) := by simp [Statement, Instr.wf]
theorem shelfWriteAck (id : BitVec 19) (err : Bool) : Statement (.shelfWriteAck id err) := by simp [Statement, Instr.wf]
theorem linkCreditGrant (shelf : Bool) (k : BitVec 8) : Statement (.linkCreditGrant shelf k) := by simp [Statement, Instr.wf]
theorem tagTimeout (core : BitVec 8) (tag : BitVec 9) (lt : Dword) : Statement (.tagTimeout core tag lt) := by simp [Statement, Instr.wf]
theorem joinMsg (m : Msg) : Statement (.joinMsg m) := by simp [Statement, Instr.wf]
theorem joinRetry (lt : Dword) : Statement (.joinRetry lt) := by simp [Statement, Instr.wf]
theorem welcomeMsg (m : Msg) : Statement (.welcomeMsg m) := by simp [Statement, Instr.wf]
theorem startMsg (m : Msg) : Statement (.startMsg m) := by simp [Statement, Instr.wf]
theorem refuseMsg (m : Msg) : Statement (.refuseMsg m) := by simp [Statement, Instr.wf]
theorem arriveMsg (m : Msg) : Statement (.arriveMsg m) := by simp [Statement, Instr.wf]
theorem releaseMsg (m : Msg) : Statement (.releaseMsg m) := by simp [Statement, Instr.wf]
theorem contrib (m : Msg) : Statement (.contrib m) := by simp [Statement, Instr.wf]
theorem resultMsg (m : Msg) : Statement (.resultMsg m) := by simp [Statement, Instr.wf]
theorem creditMsg (m : Msg) : Statement (.creditMsg m) := by simp [Statement, Instr.wf]
theorem nak (m : Msg) : Statement (.nak m) := by simp [Statement, Instr.wf]
theorem abandon (m : Msg) : Statement (.abandon m) := by simp [Statement, Instr.wf]
theorem commitMsg (m : Msg) : Statement (.commitMsg m) := by simp [Statement, Instr.wf]
theorem stepCommit : Statement (.stepCommit) := by simp [Statement, Instr.wf]
theorem repeatMsg (m : Msg) : Statement (.repeatMsg m) := by simp [Statement, Instr.wf]
theorem stepRepeat (lt : Dword) : Statement (.stepRepeat lt) := by simp [Statement, Instr.wf]
theorem repeatAck (m : Msg) : Statement (.repeatAck m) := by simp [Statement, Instr.wf]
theorem resumeMsg (m : Msg) : Statement (.resumeMsg m) := by simp [Statement, Instr.wf]
theorem cascadeHalt (m : Msg) : Statement (.cascadeHalt m) := by simp [Statement, Instr.wf]
theorem aperWr (m : Msg) : Statement (.aperWr m) := by simp [Statement, Instr.wf]
theorem aperRd (m : Msg) : Statement (.aperRd m) := by simp [Statement, Instr.wf]
theorem aperData (m : Msg) : Statement (.aperData m) := by simp [Statement, Instr.wf]
theorem aperAck (m : Msg) : Statement (.aperAck m) := by simp [Statement, Instr.wf]
theorem steal (c : BitVec 8) : Statement (.steal c) := by simp [Statement, Instr.wf]
theorem clusterPollTimeout (c : BitVec 8) (lt : Dword) : Statement (.clusterPollTimeout c lt) := by simp [Statement, Instr.wf]
theorem sequenceBalance : Statement (.sequenceBalance) := by simp [Statement, Instr.wf]
theorem migrationComplete (slot : BitVec 12) : Statement (.migrationComplete slot) := by simp [Statement, Instr.wf]
theorem preemption (c : BitVec 8) (q : BitVec 6) (n : BitVec 16) : Statement (.preemption c q n) := by simp [Statement, Instr.wf]
theorem itemResume (c : BitVec 8) : Statement (.itemResume c) := by simp [Statement, Instr.wf]
theorem swap (c : BitVec 8) : Statement (.swap c) := by simp [Statement, Instr.wf]
theorem saturationEvent (c : BitVec 8) : Statement (.saturationEvent c) := by simp [Statement, Instr.wf]
theorem openSetDrain (c : BitVec 8) : Statement (.openSetDrain c) := by simp [Statement, Instr.wf]
theorem tileCommit (q : BitVec 6) (n : BitVec 16) : Statement (.tileCommit q n) := by simp [Statement, Instr.wf]
theorem hopPeriodEnd : Statement (.hopPeriodEnd) := by simp [Statement, Instr.wf]
theorem roundStart : Statement (.roundStart) := by simp [Statement, Instr.wf]
theorem seamCarryReady (q : BitVec 6) (n : BitVec 16) (seq : BitVec 12) (chunk : BitVec 24) : Statement (.seamCarryReady q n seq chunk) := by simp [Statement, Instr.wf]
theorem memberIssue (q : BitVec 6) (n : BitVec 16) (r : BitVec 12) : Statement (.memberIssue q n r) := by simp [Statement, Instr.wf]
theorem memberCommit (q : BitVec 6) (n : BitVec 16) (r : BitVec 12) : Statement (.memberCommit q n r) := by simp [Statement, Instr.wf]
theorem pageExhausted (q : BitVec 6) (n : BitVec 16) (r : BitVec 12) : Statement (.pageExhausted q n r) := by simp [Statement, Instr.wf]
theorem slotWaitEnd (q : BitVec 6) (n : BitVec 16) : Statement (.slotWaitEnd q n) := by simp [Statement, Instr.wf]
theorem parkComplete (slot : BitVec 12) : Statement (.parkComplete slot) := by simp [Statement, Instr.wf]
theorem unparkComplete (slot : BitVec 12) : Statement (.unparkComplete slot) := by simp [Statement, Instr.wf]
theorem evictor : Statement (.evictor) := by simp [Statement, Instr.wf]
theorem fallCommit (d : BitVec 28) : Statement (.fallCommit d) := by simp [Statement, Instr.wf]
theorem riseComplete (d : BitVec 28) : Statement (.riseComplete d) := by simp [Statement, Instr.wf]
theorem neapStreamDeadline (d : BitVec 28) (lt : Dword) : Statement (.neapStreamDeadline d lt) := by simp [Statement, Instr.wf]
theorem deadlineMiss (q : BitVec 6) (n : BitVec 16) (lt : Dword) : Statement (.deadlineMiss q n lt) := by simp [Statement, Instr.wf]
theorem completionRecord (q : BitVec 6) (n : BitVec 16) : Statement (.completionRecord q n) := by simp [Statement, Instr.wf]
theorem quiescent : Statement (.quiescent) := by simp [Statement, Instr.wf]
theorem timedWake (lt : Dword) : Statement (.timedWake lt) := by simp [Statement, Instr.wf]
theorem wakeAtReached (lt : Dword) : Statement (.wakeAtReached lt) := by simp [Statement, Instr.wf]
theorem setpointChange : Statement (.setpointChange) := by simp [Statement, Instr.wf]
theorem vackRise : Statement (.vackRise) := by simp [Statement, Instr.wf]
theorem vackFall : Statement (.vackFall) := by simp [Statement, Instr.wf]
theorem vackLate (lt : Dword) : Statement (.vackLate lt) := by simp [Statement, Instr.wf]
theorem thermalStepdown (lt : Dword) : Statement (.thermalStepdown lt) := by simp [Statement, Instr.wf]
theorem thermalStepup (lt : Dword) : Statement (.thermalStepup lt) := by simp [Statement, Instr.wf]
theorem beatRateWindow (lt : Dword) (rates : List (BitVec 16)) : Statement (.beatRateWindow lt rates) := by simp [Statement, Instr.wf]
theorem telemetryUpdate (lt : Dword) (temps : List (BitVec 16)) (power : BitVec 16) : Statement (.telemetryUpdate lt temps power) := by simp [Statement, Instr.wf]
theorem calibration (lt : Dword) : Statement (.calibration lt) := by simp [Statement, Instr.wf]
theorem scrub (c : BitVec 8) (lt : Dword) : Statement (.scrub c lt) := by simp [Statement, Instr.wf]
theorem evtPulseEnd (line : BitVec 3) (lt : Dword) : Statement (.evtPulseEnd line lt) := by simp [Statement, Instr.wf]
theorem wakeReq (lt : Dword) : Statement (.wakeReq lt) := by simp [Statement, Instr.wf]
theorem haltReq : Statement (.haltReq) := by simp [Statement, Instr.wf]
theorem haltReqDeassert : Statement (.haltReqDeassert) := by simp [Statement, Instr.wf]
theorem thermTrip : Statement (.thermTrip) := by simp [Statement, Instr.wf]
theorem thermTripDeassert : Statement (.thermTripDeassert) := by simp [Statement, Instr.wf]
theorem droopWarn : Statement (.droopWarn) := by simp [Statement, Instr.wf]
theorem droopWarnDeassert (lt : Dword) : Statement (.droopWarnDeassert lt) := by simp [Statement, Instr.wf]
theorem throttleEnd (lt : Dword) : Statement (.throttleEnd lt) := by simp [Statement, Instr.wf]
theorem inputStuck (input : BitVec 2) (lt : Dword) : Statement (.inputStuck input lt) := by simp [Statement, Instr.wf]
theorem refLoss : Statement (.refLoss) := by simp [Statement, Instr.wf]
theorem refResume : Statement (.refResume) := by simp [Statement, Instr.wf]
theorem rstNAssert : Statement (.rstNAssert) := by simp [Statement, Instr.wf]
theorem rstNRelease : Statement (.rstNRelease) := by simp [Statement, Instr.wf]
theorem bootRead (sfdp image : List Byte) (lt : Dword) : Statement (.bootRead sfdp image lt) := by simp [Statement, Instr.wf]
theorem bootComplete (reread : List Byte) (test : Option SelfTestFail) (lt : Dword) : Statement (.bootComplete reread test lt) := by
  cases test <;> simp [Statement, Instr.wf, optTestWf, SelfTestFail.wf]
theorem extest (shift : BitVec 35) : Statement (.extest shift) := by simp [Statement, Instr.wf]
theorem sample (shift : BitVec 35) : Statement (.sample shift) := by simp [Statement, Instr.wf]
theorem idcode : Statement (.idcode) := by simp [Statement, Instr.wf]
theorem clamp (shift : BitVec 35) : Statement (.clamp shift) := by simp [Statement, Instr.wf]
theorem highz (shift : BitVec 35) : Statement (.highz shift) := by simp [Statement, Instr.wf]
theorem bypass (code : BitVec 4) : Statement (.bypass code) := by simp [Statement, Instr.wf]
theorem tapReset : Statement (.tapReset) := by simp [Statement, Instr.wf]
theorem uartRxFrame (b : Byte) (stop : Bool) (lt : Dword) : Statement (.uartRxFrame b stop lt) := by simp [Statement, Instr.wf]
theorem monitorLineTimeout (lt : Dword) : Statement (.monitorLineTimeout lt) := by simp [Statement, Instr.wf]
theorem nonceExpiry (lt : Dword) : Statement (.nonceExpiry lt) := by simp [Statement, Instr.wf]
theorem idCmd : Statement (.idCmd) := by simp [Statement, Instr.wf]
theorem chal (entropy : BitVec 64) : Statement (.chal entropy) := by simp [Statement, Instr.wf]
theorem unlk : Statement (.unlk) := by simp [Statement, Instr.wf]
theorem lockCmd : Statement (.lockCmd) := by simp [Statement, Instr.wf]
theorem stCmd : Statement (.stCmd) := by simp [Statement, Instr.wf]
theorem rdCmd : Statement (.rdCmd) := by simp [Statement, Instr.wf]
theorem wrCmd : Statement (.wrCmd) := by simp [Statement, Instr.wf]
theorem mdCmd : Statement (.mdCmd) := by simp [Statement, Instr.wf]
theorem monitorHalt : Statement (.monitorHalt) := by simp [Statement, Instr.wf]
theorem monitorRes : Statement (.monitorRes) := by simp [Statement, Instr.wf]
theorem bpCmd : Statement (.bpCmd) := by simp [Statement, Instr.wf]
theorem cntCmd : Statement (.cntCmd) := by simp [Statement, Instr.wf]
theorem trOn : Statement (.trOn) := by simp [Statement, Instr.wf]
theorem trOff : Statement (.trOff) := by simp [Statement, Instr.wf]
theorem trSt : Statement (.trSt) := by simp [Statement, Instr.wf]
theorem traceDrop : Statement (.traceDrop) := by simp [Statement, Instr.wf]
theorem injT0c : Statement (.injT0c) := by simp [Statement, Instr.wf]
theorem injT0u : Statement (.injT0u) := by simp [Statement, Instr.wf]
theorem injPpoi : Statement (.injPpoi) := by simp [Statement, Instr.wf]
theorem injTdrop : Statement (.injTdrop) := by simp [Statement, Instr.wf]
theorem injDln : Statement (.injDln) := by simp [Statement, Instr.wf]
theorem injCdrop : Statement (.injCdrop) := by simp [Statement, Instr.wf]
theorem injVack : Statement (.injVack) := by simp [Statement, Instr.wf]
theorem injClr : Statement (.injClr) := by simp [Statement, Instr.wf]
theorem injSt : Statement (.injSt) := by simp [Statement, Instr.wf]
theorem stest (test : Option SelfTestFail) (lt : Dword) : Statement (.stest test lt) := by
  cases test <;> simp [Statement, Instr.wf, optTestWf, SelfTestFail.wf]
theorem baud : Statement (.baud) := by simp [Statement, Instr.wf]
theorem wakeReqDeassert (lt : Dword) : Statement (.wakeReqDeassert lt) := by simp [Statement, Instr.wf]
theorem controlPortRead (a : BitVec 24) : Statement (.controlPortRead a) := by simp [Statement, Instr.wf]
theorem uartTxCharacterEnd : Statement (.uartTxCharacterEnd) := by simp [Statement, Instr.wf]
theorem powerStateChangeComplete (lt : Dword) : Statement (.powerStateChangeComplete lt) := by simp [Statement, Instr.wf]

end Sys2Proof.Laws.WellFormedOperands
end

