-- ==== Sys2Proof/Laws/Rows.lean ====
section
/-! SUPPORT. What the rows of taken commands can do: what a starting row answers in each of its cases, and what it answers when its operands
are at hand. -/
namespace Sys2Proof.Laws
open Sys2Proof Sys2Proof.Machine Sys2Proof.Safety

@[simp] theorem withJob_none (s : State) (q n : Nat) (f : State → Job → State) (h : s.job q n = none) : s.withJob q n f = s := by
  simp [State.withJob, h]

@[simp] theorem withJob_some (s : State) (q n : Nat) (f : State → Job → State) (j : Job) (h : s.job q n = some j) : s.withJob q n f = f s j := by
  simp [State.withJob, h]

/-- A command found by its queue and number has them. -/
theorem job_names (s : State) (q n : Nat) (j : Job) (h : s.job q n = some j) : j.q = q ∧ j.n = n := by
  have := List.find?_some h
  simpa using this

/-- A starting row changes nothing for a command of another opcode, or one that may not start. -/
theorem startRow_stays {α : Type} (op q n : Nat) (s : State) (chk : State → Job → Except Bad α) (run : State → Job → α → State)
    (h : ∀ j, s.job q n = some j → j.op ≠ op ∨ mayRun s j = false) : startRow op q n s chk run = s := by
  cases hj : s.job q n with
  | none => simp [startRow, hj]
  | some j =>
    rw [startRow, withJob_some _ _ _ _ j hj]
    rcases h j hj with h | h <;> simp [h]

/-- A starting row rejects a command that fails its checks. -/
theorem startRow_error {α : Type} (op q n : Nat) (s : State) (j : Job) (b : Bad) (chk : State → Job → Except Bad α)
    (run : State → Job → α → State) (hj : s.job q n = some j) (ho : j.op = op) (hr : mayRun s j = true) (hc : chk s j = .error b) :
    startRow op q n s chk run = reject s j b.cause b.detail b.aux := by
  simp [startRow, hj, ho, hr, hc]

/-- A starting row runs a command that passes its checks. -/
theorem startRow_ok {α : Type} (op q n : Nat) (s : State) (j : Job) (a : α) (chk : State → Job → Except Bad α)
    (run : State → Job → α → State) (hj : s.job q n = some j) (ho : j.op = op) (hr : mayRun s j = true) (hc : chk s j = .ok a) :
    startRow op q n s chk run = run (s.served j) j a := by
  simp [startRow, hj, ho, hr, hc]

/-- With no transfer left to ask for, nothing is issued. -/
theorem issueReads_done (s : State) (q n : Nat) (j : Job) (hj : s.job q n = some j) (ha : j.ask = some []) : issueReads s q n = s := by
  simp [issueReads, hj, ha]

/-- Without an injected word, no reading of T0 finds one. -/
theorem unitRead_clean (s : State) (c a n : Nat) (h : s.t0.inj = []) : unitRead s c a n = s := by
  simp [unitRead, h]

/-- Without an injected word, operands in STATE space are read without a fault. -/
theorem noteState_clean (s : State) (x : Ctx) (ins : List Tensor) (h : s.t0.inj = []) : noteState s x ins = s := by
  unfold noteState
  induction ins with
  | nil => rfl
  | cons t l ih =>
    rw [List.foldl_cons]
    split
    · split <;> simpa [noteCopy, unitRead_clean, h] using ih
    · exact ih

/-- A command whose operands are at hand runs. -/
theorem withOperands_atHand (s : State) (j : Job) (x : Ctx) (ins : List Tensor) (ps : List Part) (go : State → Job → State)
    (hj : s.job j.q j.n = some j) (h : AtHand s j x ps) : withOperands s j x ins ps go = go s j := by
  obtain ⟨ht, hu, hl, ha, hn, hf, hi⟩ := h
  have hall : ∀ l, fetchAll s j l = (true, s) := by
    intro l
    simp [fetchAll, ha, hn, issueReads_done s _ _ j hj ha, hj, hf]
  simp [withOperands, ht, hj, hall, hu, hl, countNeaps, noteState_clean, hi, noteLanded]

end Sys2Proof.Laws
end

