-- ==== Sys2Proof/Tests/Slice0.lean ====
section
/-! SUPPORT. The model's own tests: the operands that `Instr.wf` refuses, states and operands that meet the hypotheses of the
statements together (`wit_…`), and what one command answers in them (`test_…`). The expected values come from the cited rules. -/
namespace Sys2Proof.Tests
set_option Elab.async false
open Sys2Proof Sys2Proof.Machine Sys2Proof.Safety

/-- The command answers a next state with property `p`. -/
def goes (o : Host.Outcome State Fault Refusal) (p : State → Bool) : Bool :=
  match o with
  | .next t => p t
  | _ => false
/-- The command answers just this next state. -/
def goesTo (o : Host.Outcome State Fault Refusal) (t : State) : Bool := goes o fun u => decide (u = t)

/-- An engine that is READY in S0 with credits. -/
def up : State :=
  { life := { ready := true, maint := false, lt := 5000 }
    pwr := { want := [], rails := [(0, 88), (1, 100)] }
    str := { linkCas := 100, linkShelf := 100, portReq := [(0, 100), (1, 100), (2, 100), (3, 100)], portData := [(0, 100), (1, 100), (2, 100), (3, 100)] } }
/-- A tensor descriptor (13 R407). -/
def desc (a fmt d0 d1 : Nat) : List Byte :=
  leBytes 8 (a + fmt <<< 48) ++ leBytes 8 0 ++ leBytes 4 d0 ++ leBytes 4 d1 ++ leBytes 4 1 ++ leBytes 4 1
/-- A command of an opcode with its body words. -/
def cm (op : Nat) (ws : List Nat) : List Byte := leBytes 16 op ++ (ws ++ List.replicate (6 - ws.length) 0).flatMap (leBytes 8)
/-- A taken command of queue 0. -/
def jb (n : Nat) (c : List Byte) : Job :=
  { q := 0, n := n, take := n, cmd := c, prio := 0, noDl := false, abort := false, deps := 0, phase := .waiting, ask := some [] }

/-! ### Well-formed operands -/

theorem test_wf_short_unit_refused : (Instr.streamReadData 0 0 0 true false false []).wf = false := by decide
theorem test_wf_short_shelf_unit_refused : (Instr.shelfReadData 0 0 true false false []).wf = false := by decide
theorem test_wf_zero_grant_refused : (Instr.streamCreditGrant 0 true 0).wf = false := by decide
theorem test_wf_zero_link_grant_refused : (Instr.linkCreditGrant true 0).wf = false := by decide
theorem test_wf_few_rates_refused : (Instr.beatRateWindow 0 []).wf = false := by decide
theorem test_wf_few_temps_refused : (Instr.telemetryUpdate 0 [] 0).wf = false := by decide
theorem test_wf_bypass_of_a_named_code_refused : (Instr.bypass 4).wf = false ∧ (Instr.bypass 5).wf = true := by decide
theorem test_wf_self_test_seven_refused :
    (Instr.bootComplete [] (some ⟨7, 0, 0, 0⟩) 0).wf = false ∧ (Instr.stest (some ⟨0, 0, 0, 0⟩) 0).wf = false ∧
      (Instr.stest (some ⟨6, 0, 0, 0⟩) 0).wf = true := by decide
/-- A message of the given type. -/
def mm (ty src : Nat) : Msg := ⟨0, BitVec.ofNat 8 ty, BitVec.ofNat 8 src, 0, 0, 0, 0, 0, 0, 0, []⟩
/-- Each message row refuses another row's message. -/
theorem test_wf_other_types_refused :
    ([Instr.joinMsg, .welcomeMsg, .startMsg, .refuseMsg, .arriveMsg, .releaseMsg, .contrib, .resultMsg, .creditMsg, .nak, .abandon,
      .commitMsg, .repeatMsg, .repeatAck, .resumeMsg, .cascadeHalt, .aperWr, .aperRd, .aperData, .aperAck].all
        fun i => !(i (mm 0x50 1)).wf) = true := by decide

/-! ### The machine -/

theorem wit_StepRunsFrontCommand : { up with pending := [.haltReq, .haltRel] }.pending = .haltReq :: [.haltRel] := by decide
theorem test_step_takes_the_front :
    goes (step { up with pending := [.haltReq, .haltRel] }) (fun t => t.inp.halted && t.pending == [.haltRel]) = true := by decide +kernel
theorem wit_IdleStepPassesTime : up.pending = [] ∧ TimeRuns up ∧ ¬ TimeRuns { up with life := { up.life with refLost := true } } := by decide
theorem test_idle_step_counts : goes (step up) (fun t => t.life.lt == 5001) = true := by decide +kernel
theorem wit_StepKeepsMemoryCanonical : MemoryOk up ∧ goes (step up) (fun t => decide (MemoryOk t)) = true := by decide +kernel
theorem wit_CommandsLeave : goes (exec .haltReq up) (fun t => t.fuse == up.fuse && t.pending == up.pending) = true := by decide +kernel
theorem wit_LocalTimeNeverGoesBack :
    up.life.lt < 2 ^ 64 ∧ Instr.calibration 6000 ≠ .rstNAssert ∧
      goes (exec (.calibration 6000) up) (fun t => t.life.lt == 6000) = true := by decide +kernel

/-! ### Faults, log, events -/

/-- A state whose last thermal fault is as old as given. -/
def hot (age : Nat) : State := { up with flt := { up.flt with recent := [(6, 0, 0, 5000 - age)] } }
theorem wit_FaultsAndViolationsAreRecorded :
    (¬ (2 ≤ 6 ∧ 6 ≤ 7 ∧ ∃ r ∈ (hot 1000).flt.recent, r.1 = 6 ∧ r.2.1 = 0 ∧ r.2.2.1 = 0 ∧ (hot 1000).life.lt < r.2.2.2 + 1000)) ∧
      (2 ≤ 6 ∧ 6 ≤ 7 ∧ ∃ r ∈ (hot 999).flt.recent, r.1 = 6 ∧ r.2.1 = 0 ∧ r.2.2.1 = 0 ∧ (hot 999).life.lt < r.2.2.2 + 1000) := by decide
theorem test_fault_at_1000_is_recorded :
    (fault (hot 1000) 6 0 0 false 0 1 2).flt.recs.find 0 = some ⟨6, 0, 0, false, 0, 5000, 1, 2⟩ ∧ (fault (hot 999) 6 0 0 false 0 1 2).flt.recs = [] ∧
      (fault (hot 999) 6 0 0 false 0 1 2).flt.suppressed = 1 := by decide +kernel
theorem wit_PulsesLastTenLt :
    (10 : Nat) ≠ 0 ∧ (7 : Nat) < 8 ∧
      ({ up with evt := { route := [(7, 0x50)], pulse := [(7, 5000)] } } : State).evt.pulse.get (BitVec.toNat (7 : BitVec 3)) 0 ≤
        (At { up with evt := { route := [(7, 0x50)], pulse := [(7, 5000)] } } 5000).life.lt := by decide
theorem test_pulse_of_a_routed_line :
    (pulse { up with evt := { route := [(7, 0x50)] } } 0x10).evt.pulse.get 7 0 = 5010 ∧
      (pulse { up with evt := { route := [(7, 0x50)] } } 0x11).evt.pulse.get 7 0 = 0 := by decide +kernel
theorem test_evtPulseEnd : goes (exec (.evtPulseEnd 7 5010) { up with evt := { route := [(7, 0x50)], pulse := [(7, 5010)] } })
    (fun t => !lineOn t 7 && t.evt.pulse.isEmpty) = true := by decide +kernel

/-! ### The control port -/

theorem wit_reaches : Reaches up 0x10 ∧ Reaches up 0x1048 ∧ Reaches up 0x13F4 ∧ Reaches up 0x3004 ∧ Reaches up 0x14 ∧ Reaches up 0x18000 := by
  decide
/-- A halted engine whose HALT_REQ still stands. -/
def halt : State := { up with inp := { level := 1, pins := 1, halted := true }, jobs := [{ jb 0 (cm 0 []) with phase := .held }] }
theorem wit_ControlWritesClearAndRelease :
    Reaches halt 0x3004 ∧ halt.inp.halted = true ∧ up.life.ready = true ∧ up.jobs = [] ∧ up.life.recovery = false ∧
      { up with life := { up.life with recovery := true, maint := true } }.life.recovery = true ∧ halt.jobs ≠ [] ∧ Reaches halt 0x14 ∧
      Reaches { up with inp := { thermHalt := true } } 0x3004 ∧ NothingWaits up := by
  decide
theorem test_engFlags_clears_named_flags :
    goes (exec (.engFlags 1) { up with flg := { eng := 5, iv := { cmd := 7, live := true }, of := { cmd := 8, live := true } } })
      (fun t => t.flg == { eng := 4, of := { cmd := 8, live := true } }) = true := by decide +kernel
theorem test_faultClear : goes (exec (.faultClear 1) (fault up 6 0 0 false 0 1 2)) (fun t => t.flt.recs == [] && t.flt.summary == 64) = true := by
  decide +kernel
theorem test_vlogClear : goes (exec (.vlogClear 1) (viol up 0 7 0x10 0)) (fun t => t.flt.vlog == [] && t.flt.vnext == 0) = true := by decide +kernel
theorem test_haltRel_masks_a_standing_input :
    goes (exec .haltRel halt) (fun t => !t.inp.halted && t.inp.masked == 1 && (t.jobs.map Job.phase == [.waiting])) = true := by decide +kernel
theorem test_wakeRearm : goes (exec .wakeRearm { up with inp := { masked := 15, stuck := 15 } }) (fun t => t.inp.masked == 13 && t.inp.stuck == 13) = true := by
  decide +kernel
theorem test_thermRearm_needs_deassertion :
    goes (exec .thermRearm { up with inp := { level := 4, thermHalt := true } }) (fun t => t.inp.thermHalt) = true ∧
      goes (exec .thermRearm { up with inp := { thermHalt := true } }) (fun t => !t.inp.thermHalt) = true := by decide +kernel
theorem test_droopClr : goes (exec .droopClr { up with inp := { stuck := 15 } }) (fun t => t.inp.stuck == 7) = true := by decide +kernel
theorem test_recover_and_service :
    goes (exec .recover up) (fun t => t.life.recovery && t.life.maint &&
      goes (exec .service t) (fun u => !u.life.recovery && !u.life.maint && u.jobs == [])) = true := by decide +kernel
theorem test_recover_with_a_command_is_logged :
    goesTo (exec .recover halt) (viol halt 0 7 0x14 0) = true := by decide +kernel
theorem test_clearCounters :
    goes (exec (.clearCounters true) { up with str := { up.str with cnt := [(17, 5)], wasteTotal := 9, freeze := true, timeouts := 3 } })
      (fun t => t.str.cnt.get 17 0 == 0 && t.str.wasteTotal == 0 && t.str.freeze && t.str.timeouts == 3) = true := by decide +kernel
theorem test_freezeCounters : goes (exec (.freezeCounters true) up) (fun t => t.str.freeze) = true := by decide +kernel

theorem wit_WindowsReadAndWrite :
    Reaches up 0x8014 ∧ Reaches up 0x8010 ∧ Reaches up 0x8040 ∧ Reaches up 0xB00C ∧ up.life.ready = true ∧
      Reaches up (0x10000C + 4096 * BitVec.toNat (255 : BitVec 8)) ∧ up.t0.ue.contains (cwAddr up 255 / 8) = false ∧
      ({ up with t0 := { up.t0 with ue := [cwAddr up 255 / 8] } } : State).t0.ue.contains (cwAddr up 255 / 8) = true := by decide +kernel
/-- The shadow bank of the dequantisation domain is selected at word `a`: 0x7FC is the last that may be written. -/
def tblAt (a : Nat) : State := { up with tbl := { up.tbl with sel := 0x200, addr := a } }
theorem wit_tableWindow :
    tblDomain (tblAt 0x7FC) = false ∧ tblBank (tblAt 0x7FC) ≠ activeB (tblAt 0x7FC).tbl false ∧ reloading (tblAt 0x7FC) false = false ∧
      bankWritable false 0x7FC = true ∧ 0x7FC < bankSize false ∧ bankWritable false 0x800 = false := by decide +kernel
theorem test_slotFind :
    goes (exec (.slotFind 9) { up with slots := { up.slots with sids := [9], recs := [(4, { sid := 9, state := 1 })] } })
      (fun t => t.slots.find == 2 ^ 31 + 4) = true := by decide +kernel
theorem test_slotSel : goes (exec (.slotSel 0x1005) up) (fun t => t.slots.sel == 5) = true := by decide +kernel
theorem test_slotWin0Read :
    goes (exec .slotWin0Read { up with slots := { up.slots with sids := [9], sel := 4, recs := [(4, { sid := 9, state := 1 })] } })
      (fun t => t.slots.win == some { sid := 9, state := 1 } && t.ctl.answers.length == 1) = true := by decide +kernel
theorem test_tblDataRead :
    goes (exec .tblDataRead { up with tbl := { up.tbl with dqA := [(1, 2)], addr := 0xFFFC } }) (fun t => t.ctl.answers == [0] && t.tbl.addr == 0) = true ∧
      goes (exec .tblDataRead { up with tbl := { up.tbl with dqA := [(1, 2)] } }) (fun t => t.ctl.answers == [0x200]) = true := by decide +kernel
theorem test_tblDataWrite :
    goes (exec (.tblDataWrite 0x12345678) (tblAt 0x7FC)) (fun t => t.tbl.addr == 0x800 && (bankOf t.tbl false true).num 0x7FC 4 == 0x12345678) = true ∧
      goes (exec (.tblDataWrite 1) (tblAt 0x800)) (fun t => t.tbl.addr == 0x804 && t.flt.vnext == 1 && t.tbl.dqA == [] && t.tbl.dqB == []) = true := by decide +kernel
theorem test_cwDataRead :
    goes (exec (.cwDataRead 255) { up with t0 := { up.t0 with ue := [255 * 2 ^ 18] } })
      (fun t => t.ctl.answers == [0] && (t.core 255).ue && (t.core 255).addr == 4 && t.flt.count.get 3 0 == 1) = true := by decide +kernel
theorem wit_cwDataWrite : cwStopped { up with inp := { monHalt := [255] } } 255 = true ∧ cwStopped up 255 = false := by decide +kernel
theorem test_cwDataWrite :
    goes (exec (.cwDataWrite 255 0x11223344) { up with inp := { monHalt := [255] } })
      (fun t => t.t0.bytes.num (255 * 2 ^ 21) 4 == 0x11223344 && t.flt == up.flt) = true ∧
      goes (exec (.cwDataWrite 255 1) up) (fun t => t.t0 == up.t0 && t.flt.vnext == 1 && (t.core 255).addr == 4) = true := by decide +kernel

theorem wit_Wide64RegistersStageAndCapture :
    Reaches up 0x2010 ∧ (0x2010 % 4 = 0) ∧ isLow up 0x2010 = true ∧ reg64 up 0x2010 = some 0 ∧ Reaches up 0x2014 ∧ Reaches up 0x201C ∧
      Reaches up (0x2104 + 8 * BitVec.toNat (63 : BitVec 6)) := by decide +kernel
theorem test_reg64LowWrite_stages : goes (exec (.reg64LowWrite 0x2010 7) up) (fun t => t.ctl.staged == [(0x2010, 7)] && t.pwr == up.pwr) = true := by
  decide +kernel
theorem test_reg64LowRead_captures :
    goes (exec (.reg64LowRead 0x2010) { up with pwr := { up.pwr with wakeAt := 2 ^ 32 + 5 } })
      (fun t => t.ctl.answers == [5] && t.ctl.captured == [(0x2010, 2 ^ 32 + 5)]) = true := by decide +kernel
theorem test_reg64HighWrite :
    goes (exec (.reg64HighWrite 0x2014 1) { up with ctl := { up.ctl with staged := [(0x2010, 7)] } })
      (fun t => t.pwr.wakeAt == 2 ^ 32 + 7 && t.ctl.staged == []) = true ∧
      goes (exec (.reg64HighWrite (BitVec.ofNat 24 (0x2104 + 8 * 63)) 1) up) (fun t => (t.queue 63).startAt == 2 ^ 32) = true := by decide +kernel

theorem wit_RegisterWritesTakeTheirFields :
    up.life.rstLow = false ∧ Awake up ∧ BitVec.toNat (1 : BitVec 24) % 4 ≠ 0 ∧
      (({ up with qs := [(63, { enable := true })] } : State).queue 63).enable = true ∧
      ({ up with slots := { up.slots with sids := [1] } } : State).slots.sids ≠ [] ∧
      ({ up with cas := { up.cas with enable := true } } : State).cas.enable = true := by decide
theorem test_regWrite :
    goes (exec (.regWrite 0x3044 0xFFFFFFFF) up) (fun t => t.evt.route == [(1, 511)]) = true ∧
      goesTo (exec (.regWrite 1 0) up) (portViol up 6 7 1) = true := by decide +kernel
theorem test_regWrite_of_a_locked_base_is_logged :
    goes (exec (.reg64HighWrite (BitVec.ofNat 24 (0x4004 + 256 * 63)) 5) { up with qs := [(63, { enable := true })] })
      (fun t => (t.queue 63).ring == 0 && t.flt.vlog.find 0 == some ⟨0, 0x07 + 0x7F00 <<< 8, 0, 5000⟩) = true ∧
    goesTo (exec (.regWrite 0xA010 5) { up with cas := { up.cas with enable := true } })
      (viol { up with cas := { up.cas with enable := true } } 0 7 0xA010 0) = true := by decide +kernel

/-- An engine still in boot, and one asleep in S2. -/
def boots : State := { up with life := { up.life with ready := false, maint := true } }
def sleeps : State := { up with pwr := { up.pwr with state := 2 } }
theorem wit_OnlyTwoRangesAnswerBeforeReady :
    boots.life.rstLow = false ∧ boots.life.ready = false ∧ isLow boots 0xFFC = false ∧ isHigh boots 0xFFC = false ∧
      ¬ (BitVec.toNat (0x1000 : BitVec 24) < 0x1000) ∧ ¬ ((0xC000 : Nat) ≤ 0xD000 ∧ (0xD000 : Nat) < 0xD000) := by decide +kernel
theorem wit_AccessesAnswerWaitOrWake :
    (Reaches up 0x2008 ∧ isLow up 0x2008 = false ∧ isHigh up 0x2008 = false) ∧
    (sleeps.life.rstLow = false ∧ sleeps.life.ready = true ∧ sleeps.pwr.state = 2 ∧ sleeps.pwr.move = none ∧ (0x8000 : Nat) ≤ 0x8000 ∧
      ¬ ((0xC000 : Nat) ≤ 0x8000)) := by decide +kernel
theorem test_controlPortRead :
    goes (exec (.controlPortRead 0x1000) boots) (fun t => t == { boots with ctl := { boots.ctl with answers := [0] } }) = true ∧
      goes (exec (.controlPortRead 0x8000) sleeps) (fun t => t.pwr.heldAcc == [(false, 0x8000, 0)] && t.pwr.move == some ⟨true, 0, 5200⟩) = true := by
  decide +kernel
theorem wit_DebugKeyIsNotReadable :
    (up.fuse.key = 0 ↔ (0 : Nat) = 0) ∧ ({ up with fuse := { up.fuse with key := 1 } }.fuse.key = 0 ↔ (2 : Nat) = 0) ∧
      goes (exec (.controlPortRead 0xC010) { up with fuse := { up.fuse with key := 1 } })
        (fun t => goes (exec (.controlPortRead 0xC010) { up with fuse := { up.fuse with key := 2 } }) (fun u => u.ctl.answers == t.ctl.answers)) = true ∧
      goes (exec .idcode { up with fuse := { up.fuse with key := 1 } })
        (fun t => goes (exec .idcode { up with fuse := { up.fuse with key := 2 } }) (fun u => decide (u.tap = t.tap))) = true := by
  decide +kernel
theorem test_recover_and_service_together :
    goes (exec (.regWrite 0x14 3) up) (fun t => t.life == up.life && t.flt.vnext == 1) = true := by decide +kernel

/-! ### Queues -/

/-- Queue 63 with its ring of 16 at 0x1000, one command published and its bell free. -/
def ring (c : List Byte) : State :=
  { up with t1 := ({} : PMem).put 0x1000 c, qs := [(63, { ring := 0x1000, cpl := 0x8000, enable := true, tail := 1 })] }
theorem wit_DoorbellsPublishAndCancelsCover :
    up.life.rstLow = false ∧ Awake up ∧ (∀ j ∈ up.jobs, j.q ≠ BitVec.toNat (63 : BitVec 6)) ∧
      ((16 + 65536 - (up.queue 63).head) % 65536 ≤ 2 ^ (up.queue 63).log2 ∧ (16 + 65536 - (up.queue 63).tail) % 65536 ≤ 2 ^ (up.queue 63).log2) ∧
      ¬ ((17 + 65536 - (up.queue 63).head) % 65536 ≤ 2 ^ (up.queue 63).log2) := by decide
theorem test_qDoorbell :
    goes (exec (.qDoorbell 63 16) up) (fun t => (t.queue 63).tail == 16) = true ∧
      goesTo (exec (.qDoorbell 63 17) up) (viol up 0 2 63 17) = true := by decide +kernel
theorem test_qCancel : goes (exec (.qCancel 63 0) (ring (cm 0x3F []))) (fun t => (t.queue 63).cancelLeft == 1) = true := by decide +kernel
theorem wit_CommandsAreTakenAndReleased :
    let s := ring (cm 0x3F [])
    let k := s.queue 63
    Awake s ∧ Quiet s ∧ k.enable = true ∧ k.head ≠ k.tail ∧ (s.jobs.filter fun j => j.q == 63).length < 64 ∧
      (s.jobs.filter fun j => j.q == 63).length + (k.cplTail + 65536 - k.cplHead) % 65536 < 2 ^ k.log2 ∧ bit s.cas.qmask 63 = false ∧
      k.rollLeft = 0 ∧ takeBad s 63 k.seq (s.t1.fetch (k.ring + 64 * (k.head % 2 ^ k.log2)) 64).1 = none ∧ k.cancelLeft = 0 ∧
      takeBad s 63 k.seq (cm 0x3E []) ≠ none := by decide +kernel
theorem test_commandTake :
    goes (exec (.commandTake 63) (ring (cm 0x3F []))) (fun t => (t.job 63 0).map (fun j => (j.cmd, j.phase)) == some (cm 0x3F [], .waiting) &&
      (t.queue 63).head == 1) = true ∧
    goes (exec (.commandTake 63) (ring (cm 0x3E []))) (fun t => (t.job 63 0).map (fun j => (j.status, j.phase)) == some (4, .done) &&
      t.flt.vnext == 1) = true := by decide +kernel
/-- Commands 0 and 1 of queue 0; the second waits for the first. -/
def two (a : Job) (b : Nat) : State := { up with jobs := [a, { jb 1 (cm 0x3F []) with deps := b }], takeNo := 2 }
theorem test_dependencyRelease :
    goesTo (exec (.dependencyRelease 0 1) (two (jb 0 (cm 0x3F [])) 3)) (two (jb 0 (cm 0x3F [])) 1) = true ∧
      goesTo (exec (.dependencyRelease 0 1) (two { jb 0 (cm 0x3F []) with q := 1 } 3)) (two { jb 0 (cm 0x3F []) with q := 1 } 0) = true := by
  decide +kernel

/-- One taken command of queue 0. -/
def one (op : Nat) (ws : List Nat) : State := { up with jobs := [jb 0 (cm op ws)], takeNo := 1 }
theorem wit_OrderingCommandsComplete :
    (MayStart (one 0x3F []) (jb 0 (cm 0x3F [])) ∧ Taken (one 0x3F []) 0 0 0x3F (jb 0 (cm 0x3F [])) ∧
      (∀ k ∈ (one 0x3F []).jobs, k.op = 0x33 → k.phase ≠ .running)) ∧
    (MayStart (one 0x30 []) (jb 0 (cm 0x30 [])) ∧ Taken (one 0x30 []) 0 0 0x30 (jb 0 (cm 0x30 [])) ∧ fld ((jb 0 (cm 0x30 [])).body 0) 0 2 ≠ 3) ∧
    (MayStart (one 0x32 [63, 1]) (jb 0 (cm 0x32 [63, 1])) ∧ Taken (one 0x32 [63, 1]) 0 0 0x32 (jb 0 (cm 0x32 [63, 1])) ∧
      (one 0x32 [63, 1]).earlier (jb 0 (cm 0x32 [63, 1])) = false ∧ (jb 0 (cm 0x32 [63, 1])).body 0x10 = 0) ∧
    (MayStart (one 0x33 [63, 1]) (jb 0 (cm 0x33 [63, 1])) ∧ Taken (one 0x33 [63, 1]) 0 0 0x33 (jb 0 (cm 0x33 [63, 1]))) := by decide +kernel
theorem test_nop : goes (exec (.nop 0 0) (one 0x3F [])) (fun t => (t.job 0 0).map (fun j => (j.phase, j.idx)) == some (.done, some 0)) = true := by
  decide +kernel
theorem test_fence : goes (exec (.fence 0 0) (one 0x30 [])) (fun t => (t.job 0 0).map (fun j => (j.phase, j.idx)) == some (.done, some 0)) = true := by
  decide +kernel
theorem test_signal_wraps :
    goes (exec (.signal 0 0) { one 0x32 [63, 2] with sync := { sem := [(63, 2 ^ 32 - 1)] } })
      (fun t => t.sync.sem.get 63 0 == 1 && (t.job 0 0).map Job.phase == some .done) = true := by decide +kernel
theorem test_wait_holds_at_the_half_range :
    goes (exec (.waitCmd 0 0) { one 0x33 [63, 1] with sync := { sem := [(63, 2 ^ 31)] } }) (fun t => (t.job 0 0).map Job.phase == some .done) = true ∧
      goes (exec (.waitCmd 0 0) { one 0x33 [63, 1] with sync := { sem := [(63, 2 ^ 31 + 1)] } })
        (fun t => (t.job 0 0).map Job.phase == some .running) = true := by decide +kernel

/-- A second arrival at barrier 0 for two: its command, and the state with the first one held. -/
def arr : Job := { jb 0 (cm 0x31 [1 <<< 8]) with q := 1 }
def barTwo (c : Nat) : State :=
  { up with jobs := [arr, { jb 1 (cm 0x31 [1 <<< 8]) with take := 5, phase := .running }]
            sync := { bars := [(0, { count := c, arrivals := [(0, 1)] })] } }
theorem wit_BarriersCountAndRelease :
    Taken (barTwo 2) 1 0 0x31 arr ∧ MayStart (barTwo 2) arr ∧ (barTwo 2).earlier arr = false ∧
      ((barTwo 2).sync.bars.get 0 {}).arrivals.contains (1, 0) = false ∧ ((barTwo 2).sync.bars.get 0 {}).sent = false ∧ TakesDistinct (barTwo 2) ∧
      fld (arr.body 0) 8 6 + 1 ≤ ((barTwo 2).sync.bars.get 0 {}).arrivals.length + 1 ∧
      (barTwo 3).sync.bars.get 0 {} ≠ {} ∧ ((barTwo 3).sync.bars.get 0 {}).count ≠ 2 := by decide +kernel
theorem test_barrier_last_arrival_releases :
    goes (exec (.barrier 1 0) (barTwo 2)) (fun t => (t.jobs.map Job.phase == [.done, .done]) && (t.sync.bars.get 0 {}).arrivals == []) = true := by
  decide +kernel
theorem test_barrier_of_another_count_is_malformed :
    goes (exec (.barrier 1 0) (barTwo 3)) (fun t => (t.job 1 0).map (fun j => (j.phase, j.status)) == some (.done, 4)) = true := by decide +kernel
theorem test_barrierArrival_first :
    goes (exec (.barrierArrival 1 0) { up with jobs := [{ arr with phase := .running }] })
      (fun t => (t.sync.bars.get 0 {}).arrivals == [(1, 0)] && (t.sync.bars.get 0 {}).count == 2) = true := by decide +kernel

/-! ### Tables -/

/-- A TABLE of one item that writes 4 bytes from 0x2000 at the offset `o` of the dequantisation bank. -/
def tblCmd : Job := jb 0 (cm 0x3C [0, 0x1000, 1])
def tblSt (o : Nat) (l : List Job) : State :=
  { up with t1 := (({} : PMem).put 0x1000 (leBytes 2 o ++ leBytes 2 4 ++ leBytes 4 0 ++ leBytes 8 0x2000)).put 0x2000 [1, 2, 3, 4], jobs := l }
theorem wit_TablesReloadAndSwitch :
    let s := tblSt 0x7FC [tblCmd]
    Taken s 0 0 0x3C tblCmd ∧ tblCmd.stage = 0 ∧ tblCmd.stepCmd = false ∧ tblCmd.fetched = [] ∧ MayStart s tblCmd ∧
      (∀ i ∈ tblItems s tblCmd, i.formed = true ∧ bit i.src 47 = false ∧ i.outside false = none) ∧ earlierReload s tblCmd = false ∧
      Awake s ∧ earlierReload (tblSt 0 [{ tblCmd with phase := .running, take := 2 }, { jb 1 (cm 0x3C [0, 0x1000, 1]) with stage := 2 }])
        { tblCmd with phase := .running, take := 2 } = true := by decide +kernel
theorem test_table_writes_the_shadow_bank :
    goes (exec (.tableCmd 0 0) (tblSt 0x7FC [tblCmd])) (fun t => t.tbl.dqB == [(0x7FC, 1), (0x7FD, 2), (0x7FE, 3), (0x7FF, 4)] &&
      t.tbl.dqA == [] && t.tbl.dqPend && t.tbl.dqEpoch == 0) = true := by decide +kernel
theorem test_table_beyond_the_bank_is_malformed :
    goes (exec (.tableCmd 0 0) (tblSt 0x800 [tblCmd])) (fun t => (t.job 0 0).map (fun j => (j.phase, j.status)) == some (.done, 4)) = true := by
  decide +kernel
theorem test_tableReloadStart :
    goes (exec (.tableReloadStart 0 0) (tblSt 0 [{ tblCmd with phase := .running }])) (fun t => t.tbl.dqB.length == 4 && t.tbl.dqPend) = true := by
  decide +kernel
/-- A reload ready to switch, behind a command that uses the domain or not. -/
def swSt (l : List Job) : State := { tblSt 0 ({ tblCmd with take := 9, phase := .running, stage := 2 } :: l) with tbl := { dqPend := true } }
theorem wit_epochSwitch : usersDone (swSt []) { tblCmd with take := 9, phase := .running, stage := 2 } = true := by decide +kernel
theorem test_epochSwitch :
    goes (exec (.epochSwitch false) (swSt [])) (fun t => t.tbl.dqEpoch == 1 && !t.tbl.dqPend && (t.job 0 0).map Job.phase == some .done) = true := by
  decide +kernel

/-! ### Streams and the link -/

theorem wit_CreditsStopAtTheirLimits : up.life.rstLow = false ∧ AllSent up ∧ up.cas.waiting = [] := by decide
/-- Credits of port 3 for write data, and of the link for the shelf, at the given count. -/
def cred (k : Nat) : State := { up with str := { up.str with portData := [(3, k)], linkShelf := k } }
theorem test_streamCreditGrant :
    goes (exec (.streamCreditGrant 3 true 255) (cred 16129)) (fun t => t.str.portData.get 3 0 == 16384 && t.flt == up.flt) = true ∧
      goes (exec (.streamCreditGrant 3 true 255) (cred 16130)) (fun t => t.str.portData.get 3 0 == 16384 && t.flt.vnext == 1) = true := by
  decide +kernel
theorem test_linkCreditGrant :
    goes (exec (.linkCreditGrant true 255) (cred 7937)) (fun t => t.str.linkShelf == 8192 && t.flt == up.flt) = true ∧
      goes (exec (.linkCreditGrant true 255) (cred 7938)) (fun t => t.str.linkShelf == 8192 && t.flt.vnext == 1) = true := by decide +kernel

/-- A tag in flight on core 0: tag 1 of generation 1, so its transaction number is 4 * 1 + 1. -/
def tagOf (write : Bool) (chan : Chan) (use : TagFor) : Tag :=
  { readTag chan 256 64 use with gen := 1, write := write, due := 5000, sent := true }
def flight (t : Tag) (l : List Job) : State :=
  { up with str := { up.str with tags := [(1, t)], gens := [(1, 1)] }, jobs := l }
def fet : State := flight (tagOf false (.port 3) (.fetch 0 0 0)) [jb 0 (cm 0x18 [])]
theorem wit_ReadUnitsLandWhenComplete :
    let t := tagOf false (.port 3) (.fetch 0 0 0)
    fet.life.ready = true ∧ tagKey (fld 5 11 8) (fld 5 2 9) = 1 ∧ fet.str.gens.get 1 0 = fld 5 0 2 ∧ fet.str.tags.find 1 = some t ∧ t.sent = true ∧
      t.chan = .port (BitVec.toNat (3 : BitVec 2)) ∧ t.write = false ∧ t.bad = false ∧ fet.mon.inj = [] ∧ t.span = [0] ∧ t.units = [] ∧
      NothingWaits fet ∧ t.use = .fetch 0 0 0 ∧ fet.job 0 0 = some (jb 0 (cm 0x18 [])) := by decide +kernel
theorem test_streamReadData_lands :
    goes (exec (.streamReadData 3 5 0 true false false (List.replicate 64 7)) fet)
      (fun t => t.str.tags == [] && (t.jobs.map Job.fetched == [[⟨0, 0, 256, List.replicate 64 7, false, 0, false⟩]])) = true ∧
    goes (exec (.streamReadData 3 5 0 true true false (List.replicate 64 7)) fet)
      (fun t => (t.jobs.map Job.fetched == [[⟨0, 0, 256, List.replicate 64 0, true, 0, false⟩]])) = true := by decide +kernel
theorem test_streamReadData_holds_a_unit :
    goes (exec (.streamReadData 3 5 0 false false false (List.replicate 64 7)) { fet with str := { fet.str with tags := [(1, { tagOf false (.port 3) (.fetch 0 0 0) with len := 128 })] } })
      (fun t => (t.str.tags.map fun p => p.2.units.length) == [1] && t.jobs == fet.jobs) = true := by decide +kernel
/-- A rise that reads the shelf. -/
def risen : State :=
  let s := flight (tagOf false .shelf (.rise 4)) []
  { s with pg := { s.pg with rises := [⟨4, [], 1, false, false, 4, none, 4, []⟩] } }
theorem test_shelfReadData_lands :
    goes (exec (.shelfReadData 5 0 true false false (List.replicate 64 7)) risen)
      (fun t => t.str.tags == [] && (t.pg.rises.map fun r => (r.body, r.left)) == [([(256, List.replicate 64 7)], 0)]) = true := by decide +kernel

/-- A write in flight on port 3, and one of a fall on the shelf channel. -/
def wri : State := flight (tagOf true (.port 3) (.write 0 0)) [jb 0 (cm 0x18 [])]
def fell : State :=
  let s := flight (tagOf true .shelf (.fall 4)) []
  { s with pg := { s.pg with falls := [⟨4, 0, none, [], 1, 4, none, []⟩] } }
theorem wit_WriteAcksAndStrayResponses :
    NothingWaits wri ∧ wri.str.tags.find 1 = some (tagOf true (.port 3) (.write 0 0)) ∧ wri.job 0 0 = some (jb 0 (cm 0x18 [])) ∧ wri.mon.trOn = false ∧
      fell.str.tags.find 1 = some (tagOf true .shelf (.fall 4)) ∧ NothingWaits fell ∧
      wri.str.gens.get 1 0 ≠ fld 6 0 2 ∧ wri.str.tags.find (tagKey (fld 0 11 8) (fld 0 2 9)) = none ∧ onPort 2 (tagOf true (.port 3) (.write 0 0)) = false := by
  decide +kernel
theorem test_streamWriteAck :
    goes (exec (.streamWriteAck 3 5 false) wri) (fun t => t.str.tags == [] && t.jobs == wri.jobs && t.flt == wri.flt) = true ∧
      goes (exec (.streamWriteAck 3 5 true) wri) (fun t => t.str.tags == [] && (t.jobs.map Job.poison == [64]) && t.flt.vnext == 1) = true := by
  decide +kernel
theorem test_shelfWriteAck : goes (exec (.shelfWriteAck 5 false) fell) (fun t => t.str.tags == [] && (t.pg.falls.map Fall.left == [0])) = true := by
  decide +kernel
theorem test_stray_responses :
    goesTo (exec (.streamWriteAck 3 6 false) wri) (portViol wri 3 2 6) = true ∧ goesTo (exec (.streamWriteAck 2 5 false) wri) (portViol wri 2 1 5) = true ∧
      goesTo (exec (.streamReadData 3 5 0 true false false []) wri) (portViol wri 3 4 5) = true ∧
      goesTo (exec (.shelfWriteAck 0 false) wri) (portViol wri 4 1 0) = true := by decide +kernel
theorem wit_TimeoutsFreeTheirTags : (At fet 4999).life.lt = 5000 ∧ (tagOf false (.port 3) (.fetch 0 0 0)).due ≤ (At fet 4999).life.lt ∧
    (At fet 4999).life.lt < { tagOf false (.port 3) (.fetch 0 0 0) with due := 5001 }.due := by decide
theorem test_tagTimeout :
    goes (exec (.tagTimeout 0 1 5000) fet) (fun t => t.str.tags == [] && t.str.gens.get 1 0 == 2 && t.str.timeouts == 1 &&
      (t.jobs.map Job.fetched == [[⟨0, 0, 256, List.replicate 64 0, true, 0, false⟩]])) = true := by decide +kernel

/-! ### Array commands and cores -/

/-- FP32 matrices of 3 by 2 and 2 by 3 in T1 (the values of `mat`) and their MMA of 2 by 2 on the shape and format given. -/
def mat : PMem :=
  ((((({} : PMem).put 0x100 (desc 0x1000 0 3 2)).put 0x120 (desc 0x2000 0 2 3)).put 0x140 (desc 0x3000 0 2 2)).put 0x1000
    ([0x3F800000, 0x40000000, 0x40800000, 0xBF800000, 0, 0x3F000000].flatMap (leBytes 4))).put 0x2000
    ([0x3F800000, 0x40000000, 0x3F800000, 0x40800000, 0x40000000, 0x40000000].flatMap (leBytes 4))
def mmaCmd : Job := jb 0 (cm 1 [0x100, 0x120, 0x140, 0, 0 + 2 <<< 6 + 1 <<< 8 + 1 <<< 24])
def arrSt : State := { up with t1 := mat, jobs := [mmaCmd] }
/-- The check of an array command succeeds with a property. -/
def okArr (s : State) (j : Job) (p : ArrOp → Bool) : Bool :=
  match chkArray s j with
  | .ok o => p o
  | .error _ => false
/-- A dense tensor in T1, of two extents and 4-byte elements. -/
def dt (f : Fmt) (a d0 d1 : Nat) : Tensor := ⟨f, 0, 0, false, 0, false, a, 0, 0, d0, d1, 1, 1, [], 4 * d0 * d1, false⟩
/-- A check succeeds with the operation given. -/
def okWith {α : Type} [DecidableEq α] (e : Except Bad α) (a : α) : Bool :=
  match e with
  | .ok b => decide (b = a)
  | .error _ => false
theorem ok_of {α : Type} [DecidableEq α] (e : Except Bad α) (a : α) (h : okWith e a = true) : e = .ok a := by
  unfold okWith at h
  split at h
  · exact congrArg _ (of_decide_eq_true h)
  · cases h
/-- What the checks make of the MMA. -/
def mmaOp : ArrOp :=
  { kind := .mma, a := dt .fp32 0x1000 3 2, w := dt .fp32 0x2000 2 3, y := some (dt .fp32 0x3000 2 2), dec := none, form := ⟨0, none, none⟩
    compat := false, elt := 0, et := none, topk := none, shape := 0, stat := 0, trans := false, shadow := false, g := 16, p := 1, split := 0
    acc := 1, int := false, rows := 2, reduce := false, batch := 1, m := 2, n := 2, cols := 2, k := 3
    geom := ⟨1, 1, 1, 1, 1, 1, 1, 1, 1, 0, 0, 0⟩, ow := 2, oh := 1 }
theorem mma_checked : chkArray arrSt mmaCmd = .ok mmaOp := ok_of _ _ (by decide +kernel)
theorem wit_ArrayCommandsPlaceTheirTiles :
    Quiet arrSt ∧ Startable arrSt mmaCmd ∧ Taken arrSt 0 0 0x01 mmaCmd ∧ mmaOp.reduce = false ∧ 0 < mmaOp.tiles ∧
      AtHand arrSt mmaCmd mmaCmd.ctx (mmaOp.parts mmaCmd.ctx) ∧ mmaOp.firstBad arrSt mmaCmd.ctx = none := by decide +kernel
/-- Its one item on core 0, and the command while it runs. -/
def it0 : Item := ⟨0, 0, 0, true⟩
def mmaRun : Job := { mmaCmd with phase := .running, total := 1 }
def placed (j : Job) (k : Core) : State := { arrSt with jobs := [j], cores := [(0, k)] }
theorem mma_runs : exec (.mma 0 0) arrSt = .next (runArray arrSt mmaCmd mmaOp) :=
  congrArg _ (Laws.startRow_ok 1 0 0 _ _ _ _ _ (by decide +kernel) (by decide +kernel) (by decide +kernel) mma_checked)
theorem test_mma_places_its_tile : runArray arrSt mmaCmd mmaOp = placed mmaRun { deque := [it0] } := by decide +kernel
/-- The open set of its tile, and the same when its K-group has run: the product [[1 2 4] [-1 0 0.5]] [[1 2] [1 4] [2 2]] by hand is
[[11 18] [0 -1]]. -/
def set0 : OpenSet := mmaOp.fresh 0 0 0 false
def set1 : OpenSet :=
  { set0 with kg := 1, groups := [0x41300000, 0x41900000, 0, 0xBF800000].map fun v => .log ⟨false, false, false, false, v, 0⟩ }
theorem placed_checked (b : Bool) : prepArray (placed mmaRun (if b then { run := some ⟨it0, [set0]⟩ } else { deque := [it0] })) mmaRun.ctx mmaRun.cmd = .ok mmaOp := by
  cases b <;> exact ok_of _ _ (by decide +kernel)
theorem test_swap_runs_a_K_group : (swapSet (placed mmaRun {}) mmaRun.ctx mmaOp it0 none {} set0).2.groups = set1.groups := by
  decide +kernel
theorem test_drain_makes_the_tile :
    ((mmaOp.drain (placed mmaRun {}) mmaRun.ctx 0 ⟨[], [], 0⟩ set1).1.wr.map fun w => (w.addr, w.data)) =
      [(0x3000, [0x41300000, 0x41900000].flatMap (leBytes 4)), (0x3008, [0, 0xBF800000].flatMap (leBytes 4))] := by decide +kernel
/-- The command with its one tile drained. -/
def tile0 : Tile :=
  { num := 0, index := 0, wr := [⟨.t1, 0x3000, leBytes 8 0x4190000041300000, List.replicate 8 false, 32, 0⟩], rep := Rep.nil, poison := 0
    core := 0, floor := 0, masked := 0, bubble := 0, result := 0, contrib := [], retry := 0, discard := 0, unit := 0, items := [] }
theorem test_tileCommit_writes_the_product :
    goes (exec (.tileCommit 0 0) (placed { mmaRun with tiles := [tile0] } {})) (fun t => t.t1.bytes.read 0x3000 8 == leBytes 8 0x4190000041300000 &&
      (t.str.tags.map fun p => (p.2.write, p.2.addr, p.2.len)) == [(true, 0x3000, 8)] &&
      (t.job 0 0).map (fun j => (j.phase, j.idx)) == some (.done, some 0)) = true := by decide +kernel
/-- A DMM and a CONV that name no operand, and an MMA whose bucket is taken. -/
theorem wit_ArrayCommandsPlaceTheirTiles_rejected :
    ∃ b, chkArray (one 1 []) (jb 0 (cm 1 [])) = .error b := by exact ⟨_, rfl⟩
theorem test_dmm_bad_reference : goes (exec (.dmm 0 0) (one 2 [])) (fun t => (t.job 0 0).map (fun j => (j.phase, j.status)) == some (.done, 4) &&
    t.flt.vnext == 1) = true := by decide +kernel
theorem test_conv_bad_reference : goes (exec (.conv 0 0) (one 3 [])) (fun t => (t.job 0 0).map (fun j => (j.phase, j.status)) == some (.done, 4)) = true := by
  decide +kernel

/-- A row [3 1 2 -1] of FP32 at 0x1000, its descriptor and those of a row at 0x2000, one element at 0x3000, an INT32 at 0x4000; a pass
program S0 + S0 at 0x200. -/
def rowMem : PMem :=
  ((((({} : PMem).put 0x100 (desc 0x1000 0 4 1)).put 0x120 (desc 0x2000 0 4 1)).put 0x140 (desc 0x3000 0 1 1)).put 0x160 (desc 0x4000 11 1 1)).put 0x200
    (leBytes 4 0x28 ++ leBytes 4 0x10 ++ List.replicate 32 (0 : Byte) ++ leBytes 8 (1 + 0x3F <<< 24)) |>.put 0x1000
    ([0x40400000, 0x3F800000, 0x40000000, 0xBF800000].flatMap (leBytes 4))
def rowCmd (op : Nat) : List Byte :=
  match op with
  | 0x10 => cm 0x10 [0x100, 0, 0, 0x120, 0, 0x200]
  | 0x11 => cm 0x11 [0x100, 0x120]
  | 0x12 => cm 0x12 [0x100, 0x140, 0, 0, 0, 0]
  | 0x13 => cm 0x13 [0x100, 0x120, 0, 0, 0, 0x3F800000 <<< 32]
  | 0x14 => cm 0x14 [0x100, 0x140, 0x160]
  | 0x18 => cm 0x18 [0x100, 0x120]
  | _ => cm 0x19 [0, 0x120, 0x40000000]
def rowSt (op : Nat) : State := { up with t1 := rowMem, jobs := [jb 0 (rowCmd op)] }
/-- The check succeeds with its operands at hand. -/
def okPrep (s : State) (j : Job) (x : Ctx) (e : Except Bad Prep) : Bool :=
  match e with
  | .ok p => decide (AtHand s j x p.parts) && (p.run (s.setJob { j with ask := some [] })).1.length == 1
  | .error _ => false
theorem wit_TiledCommandsRunOrAreRejected :
    ([0x10, 0x11, 0x12, 0x13, 0x14, 0x18, 0x19].all fun op => decide (Quiet (rowSt op) ∧ Startable (rowSt op) (jb 0 (rowCmd op)) ∧
      Taken (rowSt op) 0 0 op (jb 0 (rowCmd op)))) = true := by decide +kernel
theorem wit_tiled_checks :
    okPrep (rowSt 0x10) (jb 0 (rowCmd 0x10)) (jb 0 (rowCmd 0x10)).ctx (prepVec (rowSt 0x10) (jb 0 (rowCmd 0x10)).ctx (rowCmd 0x10)) = true ∧
    okPrep (rowSt 0x11) (jb 0 (rowCmd 0x11)) (jb 0 (rowCmd 0x11)).ctx (prepSfn (rowSt 0x11) (jb 0 (rowCmd 0x11)).ctx (rowCmd 0x11)) = true ∧
    okPrep (rowSt 0x12) (jb 0 (rowCmd 0x12)) (jb 0 (rowCmd 0x12)).ctx (prepNorm (rowSt 0x12) (jb 0 (rowCmd 0x12)).ctx (rowCmd 0x12)) = true ∧
    okPrep (rowSt 0x13) (jb 0 (rowCmd 0x13)) (jb 0 (rowCmd 0x13)).ctx (prepSmax (rowSt 0x13) (jb 0 (rowCmd 0x13)).ctx (rowCmd 0x13)) = true ∧
    okPrep (rowSt 0x14) (jb 0 (rowCmd 0x14)) (jb 0 (rowCmd 0x14)).ctx (prepTopk (rowSt 0x14) (jb 0 (rowCmd 0x14)).ctx (rowCmd 0x14)) = true ∧
    okPrep (rowSt 0x18) (jb 0 (rowCmd 0x18)) (seqCtx (jb 0 (rowCmd 0x18))) (prepCopy (rowSt 0x18) (seqCtx (jb 0 (rowCmd 0x18))) (rowCmd 0x18)) = true ∧
    okPrep (rowSt 0x19) (jb 0 (rowCmd 0x19)) (seqCtx (jb 0 (rowCmd 0x19))) (prepFill (rowSt 0x19) (seqCtx (jb 0 (rowCmd 0x19))) (rowCmd 0x19)) = true ∧
    seqStill (rowSt 0x18) (seqCtx (jb 0 (rowCmd 0x18))) = true ∧ seqStill (rowSt 0x19) (seqCtx (jb 0 (rowCmd 0x19))) = true := by decide +kernel
/-- The bytes that the one tile of a command will write. -/
def tileData (t : State) : List (List Byte) := t.jobs.flatMap fun j => j.tiles.flatMap fun x => x.wr.map Wr.data
theorem test_vec_doubles :
    goes (exec (.vec 0 0) (rowSt 0x10)) (fun t => (tileData t).flatten == [0x40C00000, 0x40000000, 0x40800000, 0xC0000000].flatMap (leBytes 4)) = true := by
  decide +kernel
/-- The VEC before its reads: it asks for its 16 bytes at 0x1000 (port 0), and runs on what the response brings. -/
def askSt : State := { rowSt 0x10 with jobs := [{ jb 0 (rowCmd 0x10) with ask := none }] }
theorem wit_TiledCommandsRunOrAreRejected_asks :
    (match prepVec askSt (jb 0 (rowCmd 0x10)).ctx (rowCmd 0x10) with
    | .ok p =>
        let j : Job := { jb 0 (rowCmd 0x10) with ask := none }
        let s := askSt.served j
        decide ((p.parts.flatMap fun v => v.pieces s j.ctx) = [⟨0, 0, 0x1000, 16, false⟩]) && decide (touchParts s j j.ctx p.parts = (true, s))
    | .error _ => false) = true ∧ freeTag askSt 0 = some 0 := by decide +kernel
/-- The VEC of queue 0 before its reads, and behind it one that was taken later: of its queue, or of queue 1, whose priority is lower, or of
queue 2, whose priority is the same and whose turn comes after. -/
def firstVec : Job := { jb 0 (rowCmd 0x10) with ask := none, prio := 1 }
def laterVec (q : Nat) : Job := { firstVec with q := q, n := 1, take := 1, prio := if q == 1 then 0 else 1 }
def twoVecs (q : Nat) : State := { rowSt 0x10 with jobs := [firstVec, laterVec q] }
theorem wit_TiledCommandsRunOrAreRejected_order :
    ([0, 1, 2].all fun q => decide ((twoVecs q).job q 1 = some (laterVec q) ∧ (laterVec q).op = 0x10 ∧ firstVec.op = 0x10 ∧ MayStart (twoVecs q) firstVec ∧
      (twoVecs q).pg.rises = [] ∧ ((laterVec q).prio < firstVec.prio ∨ (firstVec.q = q ∧ firstVec.take < (laterVec q).take) ∨
        (firstVec.prio = (laterVec q).prio ∧ firstVec.q ≠ q ∧ turnPos (twoVecs q) (laterVec q).prio firstVec.q < turnPos (twoVecs q) (laterVec q).prio q)))) = true := by decide +kernel
theorem test_vec_waits_its_turn :
    goesTo (exec (.vec 1 1) (twoVecs 1)) (twoVecs 1) = true ∧ goes (exec (.vec 0 0) (twoVecs 1)) (fun t => !t.str.tags.isEmpty) = true := by
  decide +kernel
/-- Queue 0 had the last turn of priority 1: the VEC of queue 2 goes before it, though it was taken later. -/
def turned : State := { twoVecs 2 with turns := [(1, 0)] }
theorem test_vec_takes_turns :
    goesTo (exec (.vec 2 1) (twoVecs 2)) (twoVecs 2) = true ∧ goesTo (exec (.vec 0 0) turned) turned = true ∧
      goes (exec (.vec 2 1) turned) (fun t => !t.str.tags.isEmpty && t.turns == [(1, 2)]) = true := by decide +kernel
def asking : State := match exec (.vec 0 0) askSt with | .next t => t | _ => {}
def answered : State := match exec (.streamReadData 0 1 0 true false false (List.replicate 16 0x40)) asking with | .next t => t | _ => {}
theorem test_vec_asks_for_its_operand :
    (asking.str.tags.find 0).map (fun t => (t.write, t.chan, t.addr, t.len, t.sent, t.gen)) = some (false, .port 0, 0x1000, 16, true, 1) ∧
      asking.str.portReq.get 0 0 = 99 ∧ (asking.job 0 0).map Job.phase = some .waiting := by decide +kernel
theorem test_vec_runs_on_what_was_read :
    answered.str.tags = [] ∧ goes (exec (.vec 0 0) answered) (fun t => (tileData t).flatten == (List.replicate 4 0x40C04040).flatMap (leBytes 4)) = true := by
  decide +kernel
theorem test_sfn_identity :
    goes (exec (.sfn 0 0) (rowSt 0x11)) (fun t => (tileData t).flatten == [0x40400000, 0x3F800000, 0x40000000, 0xBF800000].flatMap (leBytes 4)) = true := by
  decide +kernel
theorem test_norm_runs : goes (exec (.norm 0 0) (rowSt 0x12)) (fun t => (t.job 0 0).map (fun j => (j.phase, j.total)) == some (.running, 1)) = true := by
  decide +kernel
theorem test_smax_runs : goes (exec (.smax 0 0) (rowSt 0x13)) (fun t => (t.job 0 0).map (fun j => (j.phase, j.total)) == some (.running, 1)) = true := by
  decide +kernel
theorem test_topk_finds_the_largest :
    goes (exec (.topk 0 0) (rowSt 0x14)) (fun t => tileData t == [leBytes 4 0x40400000, leBytes 4 0]) = true := by decide +kernel
theorem test_copy : goes (exec (.copy 0 0) (rowSt 0x18)) (fun t => (tileData t).flatten ==
    [0x40400000, 0x3F800000, 0x40000000, 0xBF800000].flatMap (leBytes 4)) = true := by decide +kernel
theorem test_fill : goes (exec (.fill 0 0) (rowSt 0x19)) (fun t => (tileData t).flatten ==
    [0x40000000, 0x40000000, 0x40000000, 0x40000000].flatMap (leBytes 4)) = true := by decide +kernel
/-- A NORM of the reserved operation 6. -/
theorem wit_BadCommands :
    (∃ b, prepNorm (one 0x12 [0, 0, 0, 0, 0, 6]) (jb 0 (cm 0x12 [0, 0, 0, 0, 0, 6])).ctx (cm 0x12 [0, 0, 0, 0, 0, 6]) = .error b) ∧
      Startable (one 0x12 [0, 0, 0, 0, 0, 6]) (jb 0 (cm 0x12 [0, 0, 0, 0, 0, 6])) ∧ (jb 0 (cm 0x12 [0, 0, 0, 0, 0, 6])).vlogged = false :=
  ⟨⟨_, rfl⟩, by decide +kernel, rfl⟩
theorem test_norm_reserved_operation :
    goes (exec (.norm 0 0) (one 0x12 [0, 0, 0, 0, 0, 6])) (fun t => (t.job 0 0).map (fun j => (j.phase, j.status, j.idx)) == some (.done, 4, none)) = true := by
  decide +kernel

/-! ### SCAN -/

/-- A LIN scan of `n` positions of one channel (the first or only chunk holds 64): decay DLOG32 0xFFFFF000 and input 1 at positions 0, 1 and 64,
+0 elsewhere. -/
def scanMem (n : Nat) : PMem :=
  let row (a : Nat) : List Byte := leBytes 8 a ++ leBytes 8 0 ++ leBytes 4 1 ++ leBytes 4 n ++ leBytes 4 1 ++ leBytes 4 1
  ((((({} : PMem).put 0x100 (row (0x1000 + 7 <<< 48))).put 0x120 (row 0x2000)).put 0x140 (row 0x3000)).put 0x160 (desc 0x4000 0 1 1)).put 0x1000
    (leBytes 8 0xFFFFF000FFFFF000) |>.put 0x1100 (leBytes 4 0xFFFFF000) |>.put 0x2000 (leBytes 8 0x3F8000003F800000) |>.put 0x2100
    (leBytes 4 0x3F800000) |>.put 0x200 ([0x100, 0x120, 0, 0, 0, 0x140, 0x160, 0].flatMap (leBytes 8))
/-- Its SCANCTL, with the mode. -/
def scanJob (mode : Nat) : Job := jb 0 (cm 8 [0x200, 0x8000, 1 <<< 3 + 2 <<< 8 + mode <<< 10])
def scanSt (mode : Nat) : State := { up with t1 := scanMem 2, jobs := [scanJob mode] }
/-- What the checks make of the scan. -/
def scanOp (chunked : Bool) (n : Nat) : ScanOp :=
  ⟨.lin, chunked, 2, 64, 0x8000, dt .dlog32 0x1000 1 n, dt .fp32 0x2000 1 n, none, none, none, dt .fp32 0x3000 1 n, some (dt .fp32 0x4000 1 1),
    1, n, 1, 1, 1, 1⟩
theorem scan_checked (b : Bool) : chkScan (scanSt (b2n !b)) (scanJob (b2n !b)) = .ok (scanOp b 2) := by
  cases b <;> exact ok_of _ _ (by decide +kernel)
theorem wit_scan_starts : ([0, 1].all fun m => decide (Quiet (scanSt m) ∧ Startable (scanSt m) (scanJob m) ∧ Taken (scanSt m) 0 0 8 (scanJob m))) = true ∧
    bit ((scanJob 1).body 0x10) 52 = false ∧ bit ((scanJob 0).body 0x10) 52 = false ∧ (scanSt 0).setJob { scanJob 0 with work := [] } = scanSt 0 ∧
    (scanSt 1).setJob { scanJob 1 with work := [] } = scanSt 1 := by decide +kernel
theorem scan_at_hand (b : Bool) : AtHand (scanSt (b2n !b)) (scanJob (b2n !b)) (scanCtx (scanJob (b2n !b))) (scanOp b 2).parts := by
  cases b <;> decide +kernel
theorem wit_scan_sequential : (scanOp false 2).chunked = false ∧ (seqTiles (scanCtx (scanJob 1)) (scanOp false 2) (scanSt 1)).1 ≠ [] := by decide +kernel
theorem wit_scan_chunked :
    (scanOp true 2).chunked = true ∧ 0 < (scanOp true 2).seqs * (scanOp true 2).chunks ∧ scanBad (scanSt 0) (scanCtx (scanJob 0)) (scanOp true 2) = none ∧
      (scanOp true 2).spans[1]? = none := by decide +kernel
/-- What SCAN does once its checks and operands are there. -/
theorem scan_runs (b : Bool) : scanRow 0 0 (scanSt (b2n !b)) = runScan (scanSt (b2n !b)) (scanJob (b2n !b)) (scanOp b 2) :=
  Laws.startRow_ok _ _ _ _ _ _ _ _ (by cases b <;> decide +kernel) (by cases b <;> decide +kernel) (by cases b <;> decide +kernel) (scan_checked b)
theorem test_scan_sequential_tiles :
    (runScan (scanSt 1) (scanJob 1) (scanOp false 2)).jobs.map (fun j => (j.phase, j.total, j.tiles.length)) = [(.running, 2, 2)] := by decide +kernel
theorem test_scan_starts_its_first_span :
    (runScan (scanSt 0) (scanJob 0) (scanOp true 2)).jobs.map (fun j => (j.phase, j.spans, j.total)) = [(.running, [1], 1)] := by decide +kernel
/-- A scan of 65 positions whose first span has run and committed. Its carry, 1.5, is at 0x8000 + 4 * 128. The state is given by what has become
of the carry: its write in flight, written, asked for, or landed. -/
def spanJob : Job := { scanJob 0 with phase := .running, total := 2, finished := 1, spans := [1] }
def carryPart : Piece := ⟨2 ^ 38 + 1, 128, 0x8200, 4, false⟩
def spanSt (st : Nat) : State :=
  let j : Job := match st with
    | 2 => { spanJob with parts := [carryPart] }
    | 3 => { spanJob with parts := [carryPart], fetched := [⟨2 ^ 38 + 1, 128, 0x8200, leBytes 4 0x3FC00000, false, 0, false⟩] }
    | _ => spanJob
  let t : Tag := { readTag (.port 2) 0x8200 4 (.write 0 0) with write := true, sent := true }
  let r : Tag := { readTag (.port 2) 0x8200 4 (.fetch 0 0 (2 ^ 38 + 1)) with sent := true }
  { up with
    t1 := (scanMem 65).put 0x8200 (leBytes 4 0x3FC00000)
    jobs := [j]
    t0 := ({} : T0Mem).store (landAt 128 false 0 0x8200) (leBytes 4 0x3FC00000) []
    str := { up.str with tags := if st == 0 then [(0, t)] else if st == 2 then [(512 * 128, r)] else [] } }
theorem wit_SpansRunFromTheirCarry :
    ([0, 1, 2, 3].all fun st => decide (Awake (spanSt st) ∧ (spanSt st).stopped = false)) = true ∧
      ([0, 1, 2, 3].map fun st => (spanSt st).jobs.map fun j =>
        (j.op, decide (j.phase = .running), j.spans, decide (j.finished < j.total), j.parts.any fun p => p.unit == 2 ^ 38 + 1)) =
        [[(8, true, [1], true, false)], [(8, true, [1], true, false)], [(8, true, [1], true, true)], [(8, true, [1], true, true)]] ∧
      ([0, 1, 2, 3].map fun st => (written (spanSt st) spanJob 0x8200 4, landedOn (spanSt st) spanJob (2 ^ 38 + 1) 128)) =
        [(false, true), (true, true), (true, false), (true, true)] := by decide +kernel
theorem span_checked : chkScan (spanSt 3) spanJob = .ok (scanOp true 65) := ok_of _ _ (by decide +kernel)
theorem wit_span :
    let o := scanOp true 65
    o.spans[1]? = some [1] ∧ o.spans[2]? = none ∧ o.carryUnit 0 1 = 2 ^ 38 + 1 ∧ o.carryAt 0 1 = 0x8200 ∧ o.home 1 = 128 ∧ o.size = 1 ∧
      touchAll (spanSt 3) 128 (some (0, 0)) ((o.ins.flatMap fun t => t.pages (spanSt 3) (scanCtx spanJob)).eraseDups) = (true, spanSt 3) := by decide +kernel
theorem test_seamCarryReady_asks_for_the_carry :
    (carryOn (spanSt 1) spanJob (scanOp true 65) 0 1 1).jobs.map Job.parts = [[carryPart]] ∧
      ((carryOn (spanSt 1) spanJob (scanOp true 65) 0 1 1).str.tags.map fun p => (p.1 / 512, p.2.addr, p.2.len, p.2.sent)) = [(128, 0x8200, 4, true)] := by
  decide +kernel
/-- Position 64 and the final state leave in the tile of core 128. -/
theorem test_seamCarryReady_runs_the_span :
    (carryOn (spanSt 3) { spanJob with parts := [carryPart], fetched := [⟨2 ^ 38 + 1, 128, 0x8200, leBytes 4 0x3FC00000, false, 0, false⟩] }
      (scanOp true 65) 0 1 1).jobs.map (fun j => (j.spans, j.tiles.map fun t => (t.core, t.wr.map Wr.addr))) = [([2], [(128, [0x3100, 0x4000])])] := by
  decide +kernel

/-! ### Cores and rounds -/

/-- Core 0 has two items to steal, core 16 (of the next cluster) has none. -/
def stealSt : State :=
  { up with jobs := [mmaCmd], cores := [(0, { deque := [⟨0, 0, 7, true⟩, ⟨0, 0, 5, true⟩] }), (1, { idleSince := 4969 }), (16, { idleSince := 4969 })] }
theorem wit_IdleCoresSteal :
    Awake stealSt ∧ stealSt.mon.trOn = false ∧ stealSt.coreStopped 1 = false ∧ (stealSt.core 1).empty = true ∧ (stealSt.core 1).saved = [] ∧
      bestVictim stealSt ((clusterCores 0).filter (· != 1)) = some 0 ∧ (stealSt.core 0).deque.find? Item.steal = some ⟨0, 0, 7, true⟩ ∧
      bestVictim stealSt ((clusterCores 1).filter (· != 16)) = none ∧ (stealSt.core 16).idleSince ≠ 0 ∧
      (stealSt.core 16).idleSince + 32 ≤ (At stealSt 5000).life.lt + 1 ∧
      ((tab 15 fun i => (1 + 1 + i) % 16).findSome? fun k => bestVictim stealSt (clusterCores k)) = some 0 := by decide +kernel
theorem test_steal_takes_the_topmost :
    goes (exec (.steal 1) stealSt) (fun t => (t.core 1).deque == [⟨0, 0, 7, true⟩] && (t.core 0).deque == [⟨0, 0, 5, true⟩]) = true := by decide +kernel
theorem test_clusterPollTimeout :
    goes (exec (.clusterPollTimeout 16 5000) stealSt) (fun t => (t.core 16).deque == [⟨0, 0, 7, true⟩]) = true ∧
      goes (exec (.clusterPollTimeout 16 4999) { stealSt with life := { stealSt.life with lt := 4999 } }) (fun t => (t.core 16).deque == []) = true := by
  decide +kernel
/-- The core in each of its cases: an item to take, a set that runs, nothing, a saturated set, a finished one, one left to drain. -/
def sat0 : OpenSet := { set0 with satHit := true }
def coreAt (i : Nat) : Core :=
  [({ deque := [it0] } : Core), { run := some ⟨it0, [set0]⟩ }, {}, { run := some ⟨it0, [sat0]⟩ }, { run := some ⟨it0, [set1]⟩ },
    { draining := [(it0, set1)] }].getD i {}
theorem wit_OpenSetsRunResolveAndDrain :
    ((List.range 6).all fun i => decide (Awake (placed mmaRun (coreAt i)) ∧ (placed mmaRun (coreAt i)).coreStopped 0 = false ∧
      (placed mmaRun (coreAt i)).job 0 0 = some mmaRun) && okWith (prepArray (placed mmaRun (coreAt i)) mmaRun.ctx mmaRun.cmd) mmaOp) = true ∧
    (placed mmaRun (coreAt 0)).nextTile 0 = some it0 ∧ landedOn (placed mmaRun (coreAt 0)) mmaRun (mmaRun.unitOf it0) 0 = true ∧
      (placed mmaRun (coreAt 2)).nextTile 0 = none ∧ set0.ready = true ∧ mmaOp.stat ≠ 1 ∧
      touchAll (placed mmaRun (coreAt 1)) 0 (some (0, 0)) ((mmaOp.ins.flatMap fun t => t.pages (placed mmaRun (coreAt 1)) mmaRun.ctx).eraseDups) =
        (true, placed mmaRun (coreAt 1)) ∧ set1.ended = true ∧ set0.ended = false ∧ sat0.satHit = true ∧
      (placed mmaRun (coreAt 3)).inp.thermHalt = false := by decide +kernel
/-- The operands of the item are still to come. -/
def asksJob : Job := { mmaRun with ask := some [⟨0, 0, 0x1000, 24, false⟩] }
theorem wit_swap_waits :
    okWith (prepArray (placed asksJob (coreAt 0)) asksJob.ctx asksJob.cmd) mmaOp = true ∧ (placed asksJob (coreAt 0)).nextTile 0 = some it0 ∧
      landedOn (placed asksJob (coreAt 0)) asksJob (asksJob.unitOf it0) 0 = false := by decide +kernel
theorem test_swap_waits_for_the_operands : goesTo (exec (.swap 0) (placed asksJob (coreAt 0))) (placed asksJob (coreAt 0)) = true := by decide +kernel
theorem test_swap_takes_the_item :
    goes (exec (.swap 0) (placed mmaRun (coreAt 0))) (fun t => (t.core 0).deque == [] &&
      (t.core 0).run.map (fun r => (r.item, r.sets.map fun x => x.kg)) == some (it0, [1]) && ((t.core 0).banks.get 0 {}).onB) = true := by decide +kernel
theorem test_saturationEvent :
    goes (exec (.saturationEvent 0) (placed mmaRun (coreAt 3))) (fun t => ((t.core 0).run.map fun r => r.sets.map OpenSet.satHit) == some [false]) = true := by
  decide +kernel
theorem test_openSetDrain :
    goes (exec (.openSetDrain 0) (placed mmaRun (coreAt 4))) (fun t => (t.core 0).run == none && (t.jobs.map fun j => j.tiles.length) == [1]) = true ∧
      goes (exec (.openSetDrain 0) (placed mmaRun (coreAt 5))) (fun t => (t.core 0).draining == [] && (t.jobs.map fun j => j.tiles.length) == [1]) = true ∧
      goesTo (exec (.openSetDrain 0) (placed mmaRun (coreAt 1))) (placed mmaRun (coreAt 1)) = true := by decide +kernel
/-- The item of queue 0 runs on core 0 before its first K-group; the core also holds an item of queue 1, of higher priority: of an MMA, or of a NOP. -/
def hiJob (c : List Byte) : Job := { mmaRun with q := 1, take := 1, prio := 3, cmd := c }
def hiIt : Item := ⟨1, 0, 0, false⟩
def preSt (c : List Byte) : State :=
  { placed mmaRun { run := some ⟨it0, [set0]⟩, deque := [hiIt] } with
    jobs := [mmaRun, hiJob c]
    qs := [(0, { save := 0x10000, enable := true }), (1, { prio := 3, enable := true })] }
theorem wit_PreemptedItemsAreSavedAndResumed :
    ([mmaCmd.cmd, cm 0x3F []].all fun c => decide (Quiet (preSt c) ∧ Awake (preSt c) ∧ (preSt c).job 0 0 = some mmaRun ∧ (preSt c).job 1 0 = some (hiJob c) ∧
      ((List.range 256).findSome? fun h => (((preSt c).core h).deque.find? fun i => i.q == 1 && i.n == 0).map fun i => (h, i)) = some (0, hiIt) ∧
      itemPrio (preSt c) it0 < itemPrio (preSt c) hiIt ∧ ((preSt c).queue 0).save ≠ 0 ∧ Running.atBoundary ⟨it0, [set0]⟩ (preSt c) = true ∧
      drainDone (preSt c) 0 = true ∧ set0.satHit = false ∧ (preSt c).coreStopped 0 = false ∧
      (((preSt c).core 0).saved.any fun i => i.1.q == 1) = false)) = true ∧ okWith (prepArray (preSt mmaCmd.cmd) mmaRun.ctx mmaRun.cmd) mmaOp = true ∧
    okWith (prepArray (preSt (cm 0x3F [])) mmaRun.ctx mmaRun.cmd) mmaOp = true ∧ (hiJob mmaCmd.cmd).isArray = true ∧
      (preSt (cm 0x3F [])).isTile hiIt = false := by decide +kernel
/-- With the image saved, the descriptors of the other MMA read as before. -/
theorem wit_preempt_tile :
    okWith (prepArray { preSt mmaCmd.cmd with t1 := (preSt mmaCmd.cmd).t1.put (saveSlot (preSt mmaCmd.cmd) 0 0) (imageBytes mmaOp it0 (savedSets mmaOp [set0])) }
      (hiJob mmaCmd.cmd).ctx (hiJob mmaCmd.cmd).cmd) mmaOp = true := by decide +kernel
theorem test_preemption_saves :
    goes (exec (.preemption 0 1 0) (preSt (cm 0x3F []))) (fun t => (t.core 0).run == none && (t.core 0).saved == [(it0, false)] &&
      (t.core 0).deque == [hiIt]) = true := by decide +kernel
/-- What an image of the item with its groups holds, up to the second cell, and the core that saved it. -/
def savedSt : State :=
  { placed mmaRun { saved := [(it0, false)] } with
    t1 := mat.put 0x10000 ((imageBytes mmaOp it0 [{ set1 with kg := 0 }]).take 136)
    qs := [(0, { save := 0x10000, enable := true })] }
def restored : OpenSet := { set1 with kg := 0 }
theorem wit_itemResume :
    Quiet savedSt ∧ Awake savedSt ∧ savedSt.coreStopped 0 = false ∧ (savedSt.core 0).saved.getLast? = some (it0, false) ∧
      savedSt.job 0 0 = some mmaRun ∧ mmaRun.isArray = true ∧ okWith (prepArray (savedSt.setCore 0 { savedSt.core 0 with saved := [] }) mmaRun.ctx mmaRun.cmd) mmaOp = true ∧
      okWith (prepArray savedSt mmaRun.ctx mmaRun.cmd) mmaOp = true ∧
      readImage (savedSt.setCore 0 { savedSt.core 0 with saved := [] }) mmaOp false 0x10000 1 it0 = some [restored] := by decide +kernel
theorem test_itemResume_takes_the_image_back :
    goes (exec (.itemResume 0) savedSt) (fun t => (t.core 0).saved == [] && decide ((t.core 0).run = some ⟨it0, [restored]⟩)) = true := by decide +kernel
/-- A running STEP whose program is the MMA of `mat` in the staged round. -/
def roundCmd : List Byte := cm 1 [0x100, 0x120, 0x140, 0, 0 + 2 <<< 6 + 1 <<< 8 + 1 <<< 20 + 1 <<< 24]
def roundJob : Job := { jb 1 (cm 9 [0x140, 0x400, 0x8000, 0x9000, 0]) with phase := .running }
def roundSt (r : Ring) : State := { up with t1 := mat.put 0x400 roundCmd, jobs := [roundJob], ring := r }
/-- A round in a hop of 256, and one that before its first hop still waits for a slice. -/
def hopRing (h : Nat) : Ring := { active := true, hop := h, hops := 256, q := 0, n := 1, count := 1 }
def waitSt : State := { roundSt (hopRing 0) with jobs := [{ roundJob with ask := some [⟨ringUnit 1 0, 0, 0x2000, 24, false⟩] }] }
theorem wit_WeightRoundsRunTheirHops :
    (nextRound (roundSt { phase := 200 }) { phase := 200 }).map (fun x => (x.1.entry, x.2.1, decide (x.2.2 = mmaOp), roundOf x.1.bytes)) = some (0, 0, true, 1) ∧
      (nextRound up up.ring).isNone = true ∧ Awake (roundSt (hopRing 254)) ∧ slicesHere (roundSt (hopRing 254)) = true ∧
      slicesHere waitSt = false := by decide +kernel
/-- 200 + 97 = 297, which is 41 modulo 256: slice 0 stands at core 41, and slice 215 at core 0. -/
theorem test_roundStart :
    let e : RoundEntry := ⟨0, 1, 0, roundCmd⟩
    (ringRun e 0 mmaOp 1 41).hops = 256 ∧ ((ringRun e 0 mmaOp 1 41).curA[41]?.map fun x => x.map Slice.num) = some (some 0) ∧
      ((ringRun e 0 mmaOp 1 41).curB[0]?.map fun x => x.map Slice.num) = some (some 471) := by decide +kernel
theorem test_roundStart_moves_the_phase :
    goes (exec .roundStart (roundSt { phase := 200 })) (fun t => t.ring.phase == 41 && t.ring.active && t.ring.hop == 0) = true ∧
      goesTo (exec .roundStart up) up = true := by decide +kernel
theorem test_hopPeriodEnd_ends_the_round :
    goes (exec .hopPeriodEnd (roundSt (hopRing 255))) (fun t => !t.ring.active && t.ring.hop == 256) = true ∧
      goes (exec .hopPeriodEnd (roundSt (hopRing 254))) (fun t => t.ring.active && t.ring.hop == 255) = true ∧ goesTo (exec .hopPeriodEnd waitSt) waitSt = true ∧
      (ringUp [some ⟨1, 0, 0, 0, 0⟩, none]) = [none, some ⟨1, 0, 0, 0, 0⟩] ∧
      ringDown [none, some ⟨1, 0, 0, 0, 0⟩, none] = [some ⟨1, 0, 0, 0, 0⟩, none, none] := by decide +kernel

/-! ### Sequences -/

/-- Two admitted sequences, idle in slots 0 and 1, and their set [0, 1] at 0x120; a layer program of one Seam entry at 0x400. -/
def pageRegs : Pages := { descBase := 0x100000, descCount := 4, frameBase := 0x1000000, frameCount := 4, listBase := 0x180000 }
def seqMem : PMem :=
  (((((({} : PMem).put 0x100 (desc 0x1000 0 4 1)).put 0x1000 (leBytes 16 0x3F8000004000000040400000FF800000)).put 0x120 (desc 0x1100 11 2 1)).put 0x1100
    (leBytes 8 0x0000000100000000)).put 0x140 (desc 0x1180 11 1 1)).put 0x1180 (leBytes 4 0)
def admCmd : Job := jb 0 (cm 0x20 [0x100, 0, 0, 1000 + 77 <<< 32, 128])
def seqBase : State :=
  { up with t1 := seqMem, jobs := [admCmd], slots := { up.slots with dirBase := 0x4000000 }, pg := pageRegs }
/-- What ADMIT leaves, written out: descriptors, free lists, two node pages of the pool, the directory. -/
def admCells : Memory :=
  [(1048576, 0x61), (1048579, 0x01), (1048592, 0x41), (1048595, 0x01), (1048601, 0x01), (1572864, 0x03), (1572868, 0x02),
    (1572872, 0x01), (1572928, 0x03), (1572932, 0x02), (1572936, 0x01), (16777224, 0x01), (16777231, 0x80), (16777232, 0x01),
    (16777239, 0x80), (16777240, 0x01), (16777247, 0x80), (16781304, 0x01), (16781305, 0x10), (16781307, 0x01), (16783352, 0x01),
    (16783353, 0x18), (16783355, 0x01), (16785400, 0x01), (16785404, 0x01), (67108867, 0x90)]
def admSlot : Slot :=
  { state := 1, resid := 1, pos := 1000, st1 := 128, size := 128, root := 16779264, lastLt := 5000, parent := noSid, child := noSid,
    sibling := noSid, tag := 77 }
/-- Sequence 0 stands idle in slot 0, with one command taken. -/
def seqSt (op : Nat) (ws : List Nat) : State :=
  { up with
    t1 := { bytes := seqMem.bytes ++ admCells }
    t0 := { up.t0 with bytes := [(1048578, 0x80), (1048579, 0xff), (1048582, 0x40), (1048583, 0x40), (1048587, 0x40), (1048590, 0x80), (1048591, 0x3f)] }
    slots := { up.slots with recs := [(0, admSlot)], dirBase := 0x4000000, sids := [0], fams := [(0, ⟨0, 1⟩)] }
    pg := { pageRegs with free := 2, descFree := 2, init := true, nodePages := [0] }
    jobs := [jb 1 (cm op ws)] }
def okAdmit (s : State) (j : Job) (p : AdmitOp → Bool) : Bool :=
  match prepAdmit s j with
  | .ok o => p o
  | .error _ => false
theorem wit_AdmitMakesTheRecord :
    Quiet seqBase ∧ Taken seqBase 0 0 0x20 admCmd ∧ Startable seqBase admCmd ∧ slotTurn (pageInit seqBase) admCmd = true ∧ 1 ≤ freeSlots (pageInit seqBase) ∧
      freeSid (pageInit seqBase) = some 0 ∧ freeSlot (pageInit seqBase) = some 0 ∧
      okAdmit seqBase admCmd (fun o => match freeFamily (pageInit seqBase), place (pageInit seqBase) o.resid o.size with
        | some f, some p => (createSeq (pageInit seqBase) admCmd o 0 0 f p).isSome && decide (reachAdopted (pageInit seqBase) admCmd o p = (true, pageInit seqBase) ∧
            AtHand (pageInit seqBase) admCmd admCmd.ctx (o.init.toList.map fun t => { unit := 0, core := admCmd.core, elems := t.all }))
        | _, _ => false) = true := by decide +kernel
theorem test_admit :
    goes (exec (.admitCmd 0 0) seqBase) (fun t => (t.job 0 0).map (fun j => (j.phase, j.result)) == some (.done, 0) &&
      (t.slots.recs.map fun p => (p.1, p.2.sid, p.2.state, p.2.pos, p.2.tag)) == [(0, 0, 1, 1000, 77)] && t.slots.sids == [0] && t.t1.bytes == seqMem.bytes ++ admCells) = true := by decide +kernel
/-- Every slot is taken by a pinned sequence, so an ADMIT, without initial state, waits. -/
def admBare : Job := jb 0 (cm 0x20 [0, 0, 0, 1000 + 77 <<< 32, 128])
def fullSt : State :=
  { seqBase with
    jobs := [admBare]
    slots := { seqBase.slots with sids := List.range 4096, recs := tab 4096 fun i => (i, { sid := i, state := 1, pin := true }) } }
theorem wit_slotWait :
    Quiet fullSt ∧ Taken fullSt 0 0 0x20 admBare ∧ Startable fullSt admBare ∧ slotTurn (pageInit fullSt) admBare = true ∧ freeSlots (pageInit fullSt) = 0 ∧
      victims (pageInit fullSt) [] = [] ∧ parkingSlots (pageInit fullSt) = 0 ∧
      okAdmit fullSt admBare (fun o => o.init.isNone) = true ∧
    Awake { seqBase with jobs := [{ admCmd with slotWait := true }] } ∧
      ({ seqBase with jobs := [{ admCmd with slotWait := true }] } : State).job 0 0 = some { admCmd with slotWait := true } := by decide +kernel
theorem wit_slotWait_at_hand : AtHand (pageInit fullSt) admBare admBare.ctx [] := ⟨rfl, rfl, rfl, rfl, rfl, by decide +kernel, by decide +kernel⟩
theorem test_slotWaitEnd : goes (exec (.slotWaitEnd 0 0) { seqBase with jobs := [{ admCmd with slotWait := true }] })
    (fun t => (t.jobs.map Job.slotWait) == [false]) = true := by decide +kernel
/-- FORK of sequence 0 into one child. -/
def forkSt : State := seqSt 0x22 [0, 0, 9, 0x1200]
theorem wit_ForksAndRetirements :
    Quiet forkSt ∧ Taken forkSt 0 1 0x22 (jb 1 (cm 0x22 [0, 0, 9, 0x1200])) ∧ Startable forkSt (jb 1 (cm 0x22 [0, 0, 9, 0x1200])) ∧
      actBefore forkSt 1 0 = false ∧ (slotOf forkSt 0).map (fun p => (p.1, p.2.state)) = some (0, 1) ∧
      (match prepFork forkSt (jb 1 (cm 0x22 [0, 0, 9, 0x1200])) with | .ok z => z.sid == 0 | .error _ => false) = true := by decide +kernel
/-- A STEP of sequence 0, taken before, has not ended: FORK, PARK and RETIRE wait for it (09 R307). -/
def behindStep (s : State) : State := { s with jobs := jb 0 (cm 9 [0x140]) :: s.jobs }
theorem wit_acts_wait :
    actBefore (behindStep forkSt) 1 0 = true ∧ (behindStep forkSt).job 0 1 = some (jb 1 (cm 0x22 [0, 0, 9, 0x1200])) ∧
      Startable (behindStep forkSt) (jb 1 (cm 0x22 [0, 0, 9, 0x1200])) := by decide +kernel
theorem test_acts_wait_for_the_step :
    goesTo (exec (.fork 0 1) (behindStep forkSt)) (behindStep forkSt) = true ∧
      goes (exec (.park 0 1) (behindStep (seqSt 0x21 [0x140]))) (fun t => (t.slots.recs.map fun p => p.2.state) == [1] && (t.job 0 1).map Job.work == some [0]) = true ∧
      goes (exec (.retire 0 1) (behindStep (seqSt 0x23 [0x140]))) (fun t => t.slots.sids == [0] && (t.job 0 1).map Job.work == some [0, 0, 0]) = true := by
  decide +kernel
set_option maxRecDepth 100000 in
theorem wit_fork_children :
    ((placeAll (setSlotState forkSt 0 admSlot 3) 0 (List.replicate 1 (1, 128))).bind fun spots =>
      (makeKids ((setSlotState forkSt 0 admSlot 3).setJob { jb 1 (cm 0x22 [0, 0, 9, 0x1200]) with work := [0] })
        { jb 1 (cm 0x22 [0, 0, 9, 0x1200]) with work := [0] } { admSlot with state := 3 } [1] spots).map fun t =>
          decide (t.mon = forkSt.mon) && (t.job 0 1).isSome &&
            (t.slots.recs.map fun p => (p.1, p.2.sid, p.2.state, p.2.tag)) == [(0, 0, 3, 77), (1, 1, 1, 9)]) = some true := by decide +kernel
def retSt : State := seqSt 0x23 [0x140]
theorem wit_retire : Startable retSt (jb 1 (cm 0x23 [0x140])) ∧ retirable retSt false 1 0 = true ∧ retirable (behindStep retSt) false 1 0 = false ∧ retSt.slots.sids.contains 0 = true ∧
    (match ownedList retSt (jb 1 (cm 0x23 [0x140])) 0 with | .ok l => l == [0] | .error _ => false) = true := by decide +kernel
theorem wit_ListCommands :
    (Startable (seqSt 0x21 [0x140]) (jb 1 (cm 0x21 [0x140])) ∧ seqBusy (seqSt 0x21 [0x140]) 0 = false ∧
      actBefore (seqSt 0x21 [0x140]) 1 0 = false ∧ actBefore (behindStep (seqSt 0x21 [0x140])) 1 0 = true) ∧
      (match ownedList (seqSt 0x21 [0x140]) (jb 1 (cm 0x21 [0x140])) 0 with | .ok l => l == [0] | .error _ => false) = true := by decide +kernel
/-- The records by slot: state and PIN. -/
def recsOf (t : State) : List (Nat × Nat × Bool) := t.slots.recs.map fun p => (p.1, p.2.state, p.2.pin)
theorem test_park_and_pin :
    goes (exec (.park 0 1) (seqSt 0x21 [0x140])) (fun t => recsOf t == [(0, 4, false)]) = true ∧
      goes (exec (.pin 0 1) (seqSt 0x21 [0x140, 0, 0, 0, 0, 2])) (fun t => recsOf t == [(0, 1, true)] && (t.job 0 1).map Job.phase == some .done) = true := by
  decide +kernel
theorem test_unpin : goes (exec (.unpin 0 1) { seqSt 0x21 [0x140, 0, 0, 0, 0, 3] with
    slots := { (seqSt 0 []).slots with recs := [(0, { admSlot with pin := true })] } })
    (fun t => recsOf t == [(0, 1, false)]) = true := by decide +kernel
def parking : State := match exec (.park 0 1) (seqSt 0x21 [0x140]) with | .next t => t | _ => {}
def parked : State := match exec (.parkComplete 0) parking with | .next t => { t with jobs := [jb 2 (cm 0x21 [0x140, 0, 0, 0, 0, 1])] } | _ => {}
def unparking : State := match exec (.unpark 0 2) parked with | .next t => t | _ => {}
theorem test_parkComplete_writes_the_directory :
    goes (exec (.parkComplete 0) parking) (fun t => t.slots.recs == [] && t.t1.bytes.num 0x4000000 4 != 0) = true := by
  decide +kernel
theorem wit_ParkedSequencesArrive :
    (parking.slots.recs.map fun p => (p.2.state, p.2.resid)) = [(4, 1)] ∧ (unparking.slots.recs.map fun p => (p.2.state, p.2.resid)) = [(5, 1)] ∧ Quiet unparking ∧
      Awake unparking := by decide +kernel
theorem wit_unpark :
    slotOf parked 0 = none ∧ (seqRec parked 0).map (fun x => x.sid) = some 0 ∧ slotTurn parked (jb 2 (cm 0x21 [0x140, 0, 0, 0, 0, 1])) = true ∧
      1 ≤ freeSlots parked ∧ (startUnpark parked 0).isSome = true ∧
      (match ownedList parked (jb 2 (cm 0x21 [0x140, 0, 0, 0, 0, 1])) 0 with | .ok l => l == [0] | .error _ => false) = true := by decide +kernel
theorem test_park_of_a_parked_one_is_done :
    goes (exec (.park 0 3) { parked with jobs := [jb 3 (cm 0x21 [0x140])] }) (fun t => (t.job 0 3).map Job.phase == some .done) = true ∧
      goes (exec (.unpark 0 1) (seqSt 0x21 [0x140, 0, 0, 0, 0, 1])) (fun t => (t.job 0 1).map Job.phase == some .done) = true := by decide +kernel
theorem test_unpark_and_complete :
    recsOf unparking = [(0, 5, false)] ∧ goes (exec (.unparkComplete 0) unparking) (fun t => recsOf t == [(0, 1, false)]) = true := by decide +kernel
/-- Two sequences of one core, `STREAMED` or `RESIDENT`. -/
def balSt (r : Nat) : State :=
  { up with slots := { up.slots with sids := [3, 4], recs := [(0, { sid := 3, state := 1, core := 7, resid := r, size := 64 }),
      (1, { sid := 4, state := 1, core := 7, resid := r, size := 64, st0 := 64, st1 := 128 })] } }
theorem wit_SequencesMove :
    ([1, 2].all fun r => decide (Quiet (balSt r) ∧ Awake (balSt r)) && ((loads (balSt r)).foldl max 0 == 2) && ((loads (balSt r)).foldl min 2 == 0) &&
      ((List.range 256).filter fun c => (loads (balSt r)).getD c 0 == 2) == [7] && (nextMembers (balSt r)).length == 2 &&
      ((List.range 256).filter fun c => (loads (balSt r)).getD c 0 == 0).head? == some 0 && !seqBusy (balSt r) 3) = true ∧
      stageFree (balSt 2) 0 = true ∧ storeFit (balSt 1) 0 64 = some (0, 64) ∧ (loads up).foldl max 0 = 0 := by decide +kernel
theorem test_sequenceBalance :
    goes (exec .sequenceBalance (balSt 2)) (fun t => (t.slots.recs.map fun p => p.2.core) == [0, 7]) = true ∧
      goes (exec .sequenceBalance (balSt 1)) (fun t => (t.slots.recs.map fun p => (p.2.core, p.2.state)) == [(7, 6), (7, 1)] &&
        t.slots.moveTo == [(0, (0, 0, 64))]) = true := by decide +kernel
/-- A resident sequence of 4 bytes moves from core 7 to core 0. -/
def migSt : State :=
  { up with
    slots := { up.slots with sids := [3], recs := [(0, { sid := 3, state := 6, core := 7, resid := 0, size := 4, st1 := 64 })], moveTo := [(0, (0, 128, 192))] }
    t0 := { up.t0 with bytes := [(t0Addr 7 1 0, 9)] } }
theorem test_migrationComplete :
    goes (exec (.migrationComplete 0) migSt) (fun t => (t.slots.recs.map fun p => (p.2.core, p.2.st0, p.2.st1, p.2.state)) == [(0, 128, 192, 1)] &&
      t.t0.bytes.read (t0Addr 0 1 128) 1 == [9] && t.slots.moveTo == []) = true := by decide +kernel

/-! ### STEP -/

/-- A layer program of one Seam entry (LIN of 4 channels) at 0x400, its operand list at 0x280. -/
def stepMem : PMem :=
  (((((((({ bytes := seqMem.bytes ++ admCells } : PMem).put 0x200 (desc 0x2000 7 4 1)).put 0x2000 ((List.replicate 4 0xFF000000).flatMap (leBytes 4))).put
    0x220 (desc 0x2100 (1 <<< 14) 4 1)).put 0x2100 ((List.replicate 4 0x3F800000).flatMap (leBytes 4))).put 0x240 (desc 0 (2 <<< 14) 4 1)).put 0x260
    (desc 0x2200 (1 <<< 14) 4 1)).put 0x280 ([0x200, 0x220, 0, 0, 0x240, 0x260, 0, 0].flatMap (leBytes 8))).put 0x400
    (cm 9 [0x280, 0, 0 + 1 <<< 3 + 2 <<< 8 + 1 <<< 10])
def stepCmdOf : Job := { jb 1 (cm 9 [0x140, 0x400, 0x8000, 0x9000, 0]) with ask := none }
def stepSt : State := { seqSt 0 [] with t1 := stepMem, jobs := [stepCmdOf] }
theorem wit_StepsIssueTheirMembers :
    Quiet stepSt ∧ Startable stepSt stepCmdOf ∧ Taken stepSt 0 1 9 stepCmdOf ∧
      (match chkStep stepSt stepCmdOf with
        | .ok l => l == [0] && parkedOf stepSt l == [] && stepCmdOf.members == []
        | .error _ => false) = true ∧
      (match chkStep (one 9 []) (jb 0 (cm 9 [])) with | .ok _ => false | .error _ => true) = true := by decide +kernel
def stepping : State := match exec (.stepCmd 0 1) stepSt with | .next t => t | _ => {}
theorem test_step_starts :
    goes (exec (.stepCmd 0 1) stepSt) (fun t => (t.job 0 1).map (fun j => (j.phase, j.total, j.members.map fun m => (m.sid, m.phase))) ==
      some (.running, 1, [(0, .waiting)])) = true := by decide +kernel
theorem test_step_of_a_bad_set : goes (exec (.stepCmd 0 0) (one 9 [])) (fun t => (t.job 0 0).map (fun j => (j.phase, j.status)) == some (.done, 4)) = true := by
  decide +kernel
/-- The running STEP written out, with its member as given. -/
def stepRun (m : Member) (x : Slot) : State :=
  { stepSt with
    jobs := [{ stepCmdOf with phase := .running, ask := some [], total := 1, members := [m] }]
    slots := { stepSt.slots with recs := [(0, x)] } }
/-- A member whose operands have been asked for, and the command that holds it. -/
def readyM : Member := { sid := 0, asked := true }
def runJob (m : Member) : Job := { stepCmdOf with phase := .running, ask := some [], total := 1, members := [m] }
def readyM1 : Member := { readyM with pos := 1000 }
def readySt : State := stepRun readyM1 admSlot
def stepCtx : Ctx := (runJob readyM1).memberCtx 0 0
def okProg (p : List Entry → Bool) : Bool := match prepProgram readySt (runJob readyM1) stepCtx with | .ok es => p es | .error _ => false
theorem wit_members_issue :
    Awake (stepRun readyM admSlot) ∧ (stepRun readyM admSlot).coreStopped 0 = false ∧ Taken (stepRun readyM admSlot) 0 1 9 (runJob readyM) ∧
      actBefore (stepRun readyM admSlot) 1 0 = false ∧ actBefore (behindStep (stepRun readyM admSlot)) 1 0 = true ∧
      seqRec (stepRun readyM admSlot) 0 = some admSlot ∧ slotOf (stepRun readyM admSlot) 0 = some (0, admSlot) ∧ admSlot.pos ≠ 4194304 ∧
      seqBusy (stepRun readyM admSlot) 0 = false ∧ { admSlot with pos := 4194304 }.pos = 4194304 ∧ admSlot.state = 1 ∧
      (stepRun readyM admSlot).setJob (runJob readyM1) = readySt ∧ landedOn readySt (runJob readyM1) 0 0 = true ∧ readySt.t0.inj = [] := by
  decide +kernel
/-- Its program is good and reached, and needs no page. -/
theorem wit_members_reach :
    okProg (fun es => decide (reachMember readySt (runJob readyM) stepCtx admSlot readyM1 es = (true, readySt))) = true ∧
      okProg (fun es => pageNeed readySt (memberWrites readySt stepCtx admSlot es) == 0) = true ∧
      takeNeed readySt (runJob readyM1) 0 0 0 = some (false, [], [], readySt) := by decide +kernel
/-- The state in which its layers run, and they do. -/
def layerSt : State := { setSlotState readySt 0 admSlot 2 with pg := { readySt.pg with allot := some ([], []) } }
theorem wit_members_run :
    (match runEntries 0 1 0 admSlot (runJob readyM1) (programOf readySt stepCmdOf.cmd).zipIdx ⟨layerSt, stepCtx, Rep.nil, 0, 0, 0, false⟩ with
      | .ok _ => true
      | _ => false) = true := by decide +kernel
/-- With more pages needed than there are it stalls. -/
theorem wit_members_stall : (takeNeed readySt (runJob readyM1) 0 0 9).isNone = true := by decide +kernel
/-- A member whose operand is still asked for has not landed; transfers are cut at multiples of 256 bytes (12 R377, R381). -/
theorem test_members_wait_for_their_operands :
    landedOn readySt { runJob readyM1 with ask := some [⟨0, 0, 0x2100, 16, false⟩] } 0 0 = false ∧
      pieces 0x20F0 0x130 = [(0x20F0, 0x10), (0x2100, 0x100), (0x2200, 0x20)] := by decide +kernel
theorem test_memberIssue_runs_the_program :
    goes (exec (.memberIssue 0 1 0) (stepRun readyM admSlot))
      (fun t => (t.jobs.map fun j => j.members.map fun m => m.phase) == [[.issued]] && (t.slots.recs.map fun p => p.2.state) == [2]) = true := by
  decide +kernel
/-- The member has been issued. -/
def issued : Member := { sid := 0, phase := .issued, rep := { Rep.nil with fl := 16 } }
theorem wit_MembersCommit :
    Taken (stepRun issued { admSlot with state := 2 }) 0 1 9 { stepCmdOf with phase := .running, ask := some [], total := 1, members := [issued] } ∧
      (stepRun issued { admSlot with state := 2 }).mon.trOn = false ∧ issued.frames = [] ∧ issued.descs = [] ∧ issued.token = false ∧
      slotOf (stepRun issued { admSlot with state := 2 }) 0 = some (0, { admSlot with state := 2 }) := by decide +kernel
theorem test_memberCommit :
    goes (exec (.memberCommit 0 1 0) (stepRun issued { admSlot with state := 2 }))
      (fun t => (t.slots.recs.map fun p => (p.2.state, p.2.sel, p.2.pos)) == [(1, true, 1001)] && t.flg.eng == 16 &&
        (t.jobs.map fun j => (j.finished, j.fl)) == [(1, 16)]) = true := by decide +kernel
/-- No page is left and nothing falls: a stalled member cannot be helped. -/
def dry : State :=
  { stepRun { sid := 0, phase := .dry, need := 1 } admSlot with pg := { pageRegs with init := true, nodePages := [0, 1] } }
theorem wit_exhausted :
    (noMorePages dry 1 && noReserve dry 0 1 && decide (dry.pg.free < 1 ∨ dry.pg.descFree < 1)) = true ∧ dry.mon.trOn = false ∧
      slotOf dry 0 = some (0, admSlot) ∧ noMorePages { dry with jobs := [{ jb 1 (cm 0x18 []) with dry := true }] } 1 = true := by decide +kernel
theorem test_pageExhausted :
    goes (exec (.pageExhausted 0 1 0) dry) (fun t => (t.jobs.map fun j => j.members.map fun m => (m.phase, m.outcome)) == [[(.ended, 4)]] &&
      t.flt.count.get 2 0 == 1 && (t.slots.recs.map fun p => p.2.halt) == [true]) = true := by decide +kernel

/-! ### Pages -/

/-- PAGE of sequence 0, one page from VPN 0, which is not mapped. -/
def pgCmd (fall : Nat) : Job := jb 1 (cm 0x28 [0, 0, 1, 0, 0, fall])
def pgSt (fall : Nat) : State := { seqSt 0 [] with jobs := [pgCmd fall] }
theorem wit_PageRequests :
    Taken (pgSt 0) 0 1 0x28 (pgCmd 0) ∧ Startable (pgSt 0) (pgCmd 0) ∧ Startable (pgSt 1) (pgCmd 1) ∧
      (match prepPage (pgSt 0) (pgCmd 0) with | .ok r => r == (0, 0, 1) | .error _ => false) = true ∧ pageOf (pgSt 0) 0 0 = none ∧
      bit ((pgCmd 0).body 0x28) 0 = false ∧ bit ((pgCmd 1).body 0x28) 0 = true := by decide +kernel
theorem test_pageRise_skips_an_unmapped_page :
    goes (exec (.pageRise 0 1) (pgSt 0)) (fun t => (t.job 0 1).map (fun j => (j.phase, j.result)) == some (.done, 1 <<< 32)) = true := by decide +kernel
theorem test_pageFall_skips_an_unmapped_page :
    goes (exec (.pageFall 0 1) (pgSt 1)) (fun t => (t.job 0 1).map (fun j => (j.phase, j.result)) == some (.done, 1 <<< 32)) = true := by decide +kernel
/-- A page system with frames to spare, or below its low level. -/
def evSt (free : Nat) : State := { seqSt 0 [] with pg := { (seqSt 0 []).pg with free := free }, tier := { freeLow := 2, freeHigh := 3 } }
theorem wit_evictor :
    Awake (evSt 4) ∧ (evSt 4).pg.init = true ∧ dryStall (evSt 4) = false ∧ levels (evSt 4) = false ∧ levels (evSt 1) = true ∧
      (evSt 4).tier.maxFalls + 1 ≤ { (evSt 4).pg with falls := [⟨0, 0, none, [], 0, 4, none, []⟩] }.falls.length := by decide +kernel
theorem test_evictor_rests_above_the_levels : goesTo (exec .evictor (evSt 4)) (evSt 4) = true := by decide +kernel
/-- Descriptor 3 is `FALLING` in frame 1, its bytes acknowledged. -/
def fallSt (left : Nat) : State :=
  { seqSt 0 [] with
    tier := { sideBase := 0x200000, shelfEn := true }
    pg := { (seqSt 0 []).pg with falls := [⟨3, 0, none, leBytes 16 5, left, 4, none, []⟩] } }
theorem wit_FallsAndRises :
    ((fallSt 0).pg.falls.find? fun f => f.d == BitVec.toNat (3 : BitVec 28)).map (fun f => (f.left, f.cls, f.summary)) = some (0, 4, none) ∧
      ((fallSt 1).pg.falls.find? fun f => f.d == BitVec.toNat (3 : BitVec 28)).map Fall.left = some 1 := by decide +kernel
theorem test_fallCommit :
    goes (exec (.fallCommit 3) (fallSt 0)) (fun t => t.pg.falls.isEmpty && t.t1.bytes.num (0x200000 + 96) 4 == 5 && (getDesc t 3).state == 2 &&
      t.pg.free == 3) = true ∧ goesTo (exec (.fallCommit 3) (fallSt 1)) (fallSt 1) = true := by decide +kernel
/-- Descriptor 3 is `RISING`; its body came poisoned. -/
def riseSt (p : Bool) : State := { seqSt 0 [] with pg := { (seqSt 0 []).pg with rises := [⟨3, [], 0, p, false, 4, none, 3, []⟩] } }
theorem wit_rises : ((riseSt true).pg.rises.find? fun r => r.d == BitVec.toNat (3 : BitVec 28)).map (fun r => (r.left, r.timedOut, r.poisoned)) = some (0, false, true) := by
  decide +kernel
theorem wit_neap :
    (getDesc (fallSt 0) 3).state ≠ 1 ∧ bit (sideWord (fallSt 0) 3) 0 = false ∧
      bit (sideWord { fallSt 0 with t1 := (fallSt 0).t1.put (0x200000 + 96) (leBytes 16 1 ++ leBytes 16 1) } 3) 0 = true := by decide +kernel
theorem test_neapStreamDeadline_without_a_summary : goesTo (exec (.neapStreamDeadline 3 5000) (fallSt 0)) (At (fallSt 0) 5000) = true := by decide +kernel

/-! ### The cascade -/

/-- A message with arguments, tag and payload. -/
def mg (ty src arg0 arg1 tag : Nat) (p : List Byte) : Msg :=
  { link := 0x11, type := BitVec.ofNat 8 ty, src := BitVec.ofNat 8 src, dst := 0, attempt := 0, len := BitVec.ofNat 16 p.length, tag := BitVec.ofNat 8 tag,
    mflags := 0, arg0 := BitVec.ofNat 32 arg0, arg1 := BitVec.ofNat 32 arg1, payload := p }
/-- A group of two: this engine is the headland, or rank 1, in a state of `CAS_STATE`. -/
def group (rank state : Nat) : State :=
  { up with
    t1 := (({} : PMem).put 0x10060 (leBytes 4 1)).put 0x100 (desc 0x1000 0 1 1) |>.put 0x120 (desc 0x1100 0 1 1) |>.put 0x1000 (leBytes 4 0x43800000)
    cas := { enable := true, rank := rank, size := 1, state := state, joined := if state == 1 then [] else [(1, 0x11)], route := [(1, 0x80000011)], btab := 0x10000, stepMask := 0xFF, commitEn := true,
             commitBar := 5, window := 1000, aperBase := 0x5000, aperSize := 64, credit := 256 } }
theorem wit_CascadeMessagesAreChecked :
    (BitVec.toNat (mg 1 1 0 0 0 []).type ≠ 0x02 ∧ msgTypes.contains (mg 1 1 0 0 0 []).type.toNat = true) ∧ boots.life.ready = false ∧
      ({ group 0 2 with str := { up.str with linkRx := 0 } } : State).str.linkRx < msgFlits (mg 1 1 0 0 0 []) ∧ Awake (group 0 2) ∧
      msgOk { mg 1 1 0 0 0 [] with dst := 1 } = false ∧ isStale { group 0 2 with cas := { (group 0 2).cas with attempt := 1 } } (mg 0x20 1 0 0 0 []) = true ∧
      msgFlits (mg 1 1 0 0 0 []) ≤ (group 0 2).str.linkRx := by decide +kernel
theorem test_messages_are_checked :
    goesTo (exec (.joinMsg { mg 1 1 0 0 0 [] with dst := 1 }) (group 0 2)) (casViol (group 0 2) 0 1 0 0) = true ∧
      goes (exec (.contrib (mg 0x20 1 0 0 3 [0, 0])) { group 0 2 with cas := { (group 0 2).cas with attempt := 1 } }) (fun t => t.cas.staleCount == 1) = true := by
  decide +kernel
/-- The fields of JOIN that agree with the group: size 1, fan-in 1, commit barrier 5. -/
def joinA : Nat := 1 + 1 <<< 8 + 5 <<< 16
theorem wit_GroupsFormByJoining :
    Receives (group 0 1) 0x01 (mg 1 1 joinA 0 0 []) ∧ LinkFree (group 0 1) ∧ (group 0 1).cas.enable = true ∧ (group 0 1).cas.rank = 0 ∧
      (group 0 1).cas.state = 1 ∧ (1 : Nat) < (group 0 1).cas.ranks ∧ (group 0 1).cas.joined.length + 2 = (group 0 1).cas.ranks ∧
      ({ (group 0 1).cas with size := 2 }.joined.length + 2 ≠ { (group 0 1).cas with size := 2 }.ranks) ∧
      Receives (group 1 1) 0x02 (mg 2 0 0 0 0 []) ∧ Receives (group 1 1) 0x03 (mg 3 0 0 0 0 []) ∧ Receives (group 1 1) 0x04 (mg 4 0 0 0 0 []) ∧
      ((group 1 1).cas.welcomed = false ∧ (At (group 1 1) 100000).life.lt = (group 1 1).cas.joinLt + 100000 ∧
        (At (group 1 1) 99999).life.lt < (group 1 1).cas.joinLt + 100000) ∧
      Reaches up 0xA000 ∧ up.cas.enable = false ∧ fld 1 16 8 = 0 ∧ pairsOverlap up = false := by decide +kernel
theorem test_join_forms_the_group :
    goes (exec (.joinMsg (mg 1 1 joinA 0 0 [])) (group 0 1)) (fun t => t.cas.state == 2 && t.cas.credit == 256 && t.cas.joined == [(1, 0x11)] &&
      (t.sent.map fun m => (m.type, m.link)) == [(2, 0x11), (3, 0x11)]) = true := by decide +kernel
theorem test_join_of_other_fields_is_refused :
    goes (exec (.joinMsg (mg 1 1 0 0 0 [])) (group 0 1)) (fun t => (t.sent.map fun m => (m.type, m.arg0)) == [(4, 5)] && t.cas == (group 0 1).cas) = true := by
  decide +kernel
theorem test_welcome_and_start :
    goes (exec (.welcomeMsg (mg 2 0 0 0 0 [])) (group 1 1)) (fun t => t.cas.welcomed) = true ∧
      goes (exec (.startMsg (mg 3 0 0 0 0 [])) (group 1 1)) (fun t => t.cas.state == 2 && t.cas.base == 5000) = true := by decide +kernel
theorem test_refuse_halts :
    goes (exec (.refuseMsg (mg 4 0 5 0 0 [])) (group 1 1)) (fun t => t.cas.state == 4 && t.flt.count.get 8 0 == 1) = true := by decide +kernel
theorem test_joinRetry :
    goes (exec (.joinRetry 100000) (group 1 1)) (fun t => (t.sent.map fun m => (m.type, m.dst)) == [(1, 0)] && t.cas.joinLt == 100000) = true ∧
      goes (exec (.joinRetry 99999) (group 1 1)) (fun t => t.sent == []) = true := by decide +kernel
theorem test_casEnable_alone :
    goes (exec (.casEnable 1) up) (fun t => t.cas.enable && t.cas.state == 2) = true ∧
      goes (exec .casDisable (group 0 2)) (fun t => !t.cas.enable && t.cas.state == 0) = true := by decide +kernel

/-- Barrier 2 waits for its release in generation 7. -/
def barSt (rank : Nat) : State := { group rank 2 with sync := { bars := [(2, { cascade := true, gen := 7, sent := true, count := 1 })] } }
theorem wit_CascadeBarriersRelease :
    isMember (group 0 2) (mg 0x10 1 (2 + 0 <<< 8) 0 0 []) = true ∧ Receives (group 0 2) 0x10 (mg 0x10 1 2 0 0 []) ∧
      notBefore 0 ((group 0 2).sync.bars.get 2 {}).gen = true ∧ ((group 0 2).sync.bars.get 2 {}).heard.contains (1, 0) = false ∧
      ((group 0 2).sync.bars.get 2 {}).sent = false ∧ notBefore 6 7 = false ∧
      Receives (barSt 1) 0x11 (mg 0x11 0 (2 + 7 <<< 8) 0 0 []) ∧ isMember (barSt 1) (mg 0x11 0 (2 + 7 <<< 8) 0 0 []) = true ∧
      ((barSt 1).sync.bars.get 2 {}).sent = true ∧ ((barSt 1).sync.bars.get 2 {}).gen = 7 := by decide +kernel
theorem test_arrive_is_heard_once :
    goes (exec (.arriveMsg (mg 0x10 1 2 0 0 [])) (group 0 2)) (fun t => (t.sync.bars.get 2 {}).heard == [(1, 0)] &&
      goesTo (exec (.arriveMsg (mg 0x10 1 2 0 0 [])) t) t) = true := by decide +kernel
theorem test_release_starts_the_next_generation :
    goes (exec (.releaseMsg (mg 0x11 0 (2 + 7 <<< 8) 0 0 [])) (barSt 1)) (fun t => t.sync.bars.get 2 {} == { gen := 8 }) = true ∧
      goes (exec (.releaseMsg (mg 0x11 0 (2 + 6 <<< 8) 0 0 [])) (barSt 1)) (fun t => t.cas.staleCount == 1 && t.sync == (barSt 1).sync) = true := by decide +kernel

/-- REDUCE of one element under tag 3. -/
def redCmd : Job := jb 0 (cm 0x38 [0x100, 0x120, 3])
def redSt : State := { group 0 2 with jobs := [redCmd] }
theorem wit_ReductionsTravelTheTree :
    Quiet redSt ∧ Taken redSt 0 0 0x38 redCmd ∧ Startable redSt redCmd ∧ bucketWaits redSt (redCmd.body 0x10) = false ∧ redSt.cas.chunks = [] ∧
      (match chkReduce redSt redCmd with | .ok p => decide (AtHand redSt redCmd redCmd.ctx (reduceParts p.1)) && !p.1.list | .error _ => false) = true ∧
      bucketWaits { redSt with cas := { redSt.cas with buckets := [⟨3, 9, 0, false, 0, 1, 1⟩] } } (redCmd.body 0x10) = true := by decide +kernel
theorem test_reduce_opens_its_bucket :
    goes (exec (.reduce 0 0) redSt) (fun t => (t.cas.buckets.map fun b => (b.tag, b.count, b.left)) == [(3, 1, 1)] &&
      (t.job 0 0).map (fun j => (j.phase, j.total)) == some (.running, 1)) = true := by decide +kernel
/-- The term 256.0 of rank 1, chunk 0 of tag 3, as DLOG32's wire halves give. -/
def term1 : Msg := mg 0x20 1 0 0 3 [0x80, 0x43]
theorem wit_contrib :
    isMember (group 0 2) term1 = true ∧ Receives (group 0 2) 0x20 term1 ∧ (group 0 2).cas.children.contains 1 = true ∧ bit (group 0 2).cas.stepMask 3 = true ∧
      btCount (group 0 2) 3 ≠ 0 ∧ modeBad (group 0 2) term1 = false ∧ bucketOf (group 0 2) 3 = none ∧
      (((chunkOf (group 0 2) 3 0).terms.any fun t => t.rank == 1) = false) ∧ bit { (group 0 2).cas with stepMask := 0 }.stepMask 3 = false ∧
      LinkFree (group 0 2) := by decide +kernel
theorem test_contrib_holds_a_term_once :
    goes (exec (.contrib term1) (group 0 2)) (fun t => ((chunkOf t 3 0).terms.map Term.rank) == [1] &&
      goes (exec (.contrib term1) t) (fun u => u.cas.dupCount == 1 && u.flt.vnext == 1 && (chunkOf u 3 0).terms.length == 1)) = true := by decide +kernel
theorem wit_creditMsg : Receives (group 1 2) 0x22 (mg 0x22 0 5 0 0 []) ∧ (group 1 2).cas.rank ≠ 0 ∧ (0 : Nat) = (group 1 2).cas.parent ∧ (group 1 2).cas.pendingUp = [] := by
  decide +kernel
theorem test_creditMsg : goes (exec (.creditMsg (mg 0x22 0 5 0 0 [])) (group 1 2)) (fun t => t.cas.credit == 261) = true := by decide +kernel
/-- A leaf's bucket of tag 3 whose REDUCE runs. -/
def leafSt : State :=
  { group 1 2 with
    jobs := [{ redCmd with phase := .running, total := 1, finished := 1 }]
    cas := { (group 1 2).cas with buckets := [⟨3, 0, 0, false, 0, 1, 1⟩] } }
def res1 : Msg := mg 0x21 0 0 0 3 [0x00, 0x00, 0x80, 0x43]
theorem wit_resultMsg :
    isMember leafSt res1 = true ∧ Receives leafSt 0x21 res1 ∧ leafSt.cas.rank ≠ 0 ∧ (0 : Nat) = leafSt.cas.parent ∧ leafSt.cas.children = [] ∧
      bucketOf leafSt 3 = some ⟨3, 0, 0, false, 0, 1, 1⟩ ∧ modeBad leafSt res1 = false ∧ (chunkOf leafSt 3 0).got = false ∧
      (match tensor leafSt redCmd.ctx .any (redCmd.body 8) with | .ok d => !d.list && d.space == 0 | .error _ => false) = true := by decide +kernel
theorem test_result_ends_the_bucket :
    goes (exec (.resultMsg res1) leafSt) (fun t => t.cas.buckets.isEmpty && t.cas.doneTags == [3]) = true := by decide +kernel
theorem wit_nak :
    Receives leafSt 0x23 (mg 0x23 0 2 0x20 3 []) ∧ leafSt.cas.nakked.contains (3, 0) = false ∧ bucketOf leafSt 3 = some ⟨3, 0, 0, false, 0, 1, 1⟩ := by decide +kernel
theorem test_nak_of_a_contrib_ends_its_command :
    goes (exec (.nak (mg 0x23 0 2 0x20 3 [])) leafSt) (fun t => (t.job 0 0).map (fun j => (j.phase, j.status)) == some (.done, 4) && t.flt.vnext == 1 &&
      t.cas.nakked == [(3, 0)]) = true := by decide +kernel

/-- Every rank has arrived at the commit barrier and no step tag is left. -/
def comSt : State :=
  { group 0 2 with
    cas := { (group 0 2).cas with stepMask := 0, attempt := 2, consec := 2, semmask := 2 }
    sync := { sem := [(1, 9)], bars := [(5, { cascade := true, sent := true, count := 1, heard := [(0, 0), (1, 0)] })] } }
theorem wit_StepsCommit :
    Receives (group 1 2) 0x30 (mg 0x30 0 0 0 0 []) ∧ isMember (group 1 2) (mg 0x30 0 0 0 0 []) = true ∧ ((group 1 2).sync.bars.get 5 {}).sent = false ∧
      Awake comSt ∧ comSt.cas.commitEn = true ∧ (comSt.sync.bars.get 5 {}).sent = true ∧ allHeard comSt 5 = true ∧ tagsLeft comSt = [] := by decide +kernel
theorem test_commitMsg :
    goes (exec (.commitMsg (mg 0x30 0 (2 ^ 32 - 1) 0 0 [])) { group 1 2 with cas := { (group 1 2).cas with step := 2 ^ 32 - 1, semmask := 2 }, sync := { sem := [(1, 9)] } })
      (fun t => t.cas.step == 0 && t.cas.semSaved.get 1 0 == 9 && t.cas.attempt == 0) = true := by decide +kernel
theorem test_stepCommit :
    goes (exec .stepCommit comSt) (fun t => t.cas.step == 1 && t.cas.attempt == 0 && t.cas.semSaved.get 1 0 == 9 && !(t.sync.bars.get 5 {}).sent) = true ∧
      goesTo (exec .stepCommit (group 0 2)) (group 0 2) = true := by decide +kernel
theorem wit_RepeatsRollBackAndResume :
    Receives (group 1 2) 0x31 { mg 0x31 0 0 0 0 [] with attempt := 1 } ∧ isMember (group 1 2) { mg 0x31 0 0 0 0 [] with attempt := 1 } = true ∧
      (group 1 2).cas.attempt < 1 ∧ Receives (group 1 3) 0x33 (mg 0x33 0 0 0 0 []) ∧ (group 1 3).cas.state = 3 ∧ (group 1 3).cas.rank ≠ 0 ∧
      Receives (group 0 3) 0x32 (mg 0x32 1 0 0 0 []) ∧ ((others (group 0 3)).all fun r => [1].contains r) = true ∧
      ((others { group 0 3 with cas := { (group 0 3).cas with size := 2 } }).all fun r => [1].contains r) = false ∧
      Receives (group 1 3) 0x34 (mg 0x34 0 0 0 0 []) := by decide +kernel
theorem test_repeat :
    goes (exec (.repeatMsg { mg 0x31 0 0 0 0 [] with attempt := 1 }) { group 1 2 with cas := { (group 1 2).cas with semmask := 2, semSaved := [(1, 9)], doneTags := [3] } })
      (fun t => t.cas.state == 3 && t.cas.attempt == 1 && t.cas.doneTags == [] && t.sync.sem.get 1 0 == 9) = true := by decide +kernel
theorem test_resume : goes (exec (.resumeMsg (mg 0x33 0 0 0 0 [])) (group 1 3)) (fun t => t.cas.state == 2 && t.cas.resumed) = true := by decide +kernel
theorem test_repeatAck : goes (exec (.repeatAck (mg 0x32 1 0 0 0 [])) (group 0 3)) (fun t => t.cas.state == 2 && (t.sent.map Msg.type) == [0x33]) = true := by
  decide +kernel
theorem test_cascadeHalt : goes (exec (.cascadeHalt (mg 0x34 0 0 0 0 [])) (group 1 3)) (fun t => t.cas.state == 4) = true := by decide +kernel
theorem wit_headland :
    Awake (group 0 2) ∧ (group 0 2).cas.commitEn = true ∧ 1 < (group 0 2).cas.ranks ∧ (group 0 2).cas.window ≠ 0 ∧
      (group 0 2).cas.base + (group 0 2).cas.window ≤ (At (group 0 2) 5000).life.lt ∧ tagsLeft (group 0 2) ≠ [] ∧ (group 0 2).cas.consec < max (group 0 2).cas.repeatMax 1 ∧
      max (group 0 2).cas.repeatMax 1 ≤ 3 ∧ Receives (group 0 2) 0x24 (mg 0x24 1 0 0 0 []) ∧ isMember (group 0 2) (mg 0x24 1 0 0 0 []) = true := by decide +kernel
theorem test_stepRepeat :
    goes (exec (.stepRepeat 5000) (group 0 2)) (fun t => t.cas.attempt == 1 && t.cas.repeatCount == 1 && t.cas.state == 3 && (t.sent.map Msg.type) == [0x31]) = true ∧
      goes (exec (.stepRepeat 5000) { group 0 2 with cas := { (group 0 2).cas with consec := 3 } }) (fun t => t.cas.state == 4 && (t.sent.map Msg.type) == [0x34]) = true := by
  decide +kernel
theorem test_abandon : goes (exec (.abandon (mg 0x24 1 0 0 0 [])) (group 0 2)) (fun t => t.cas.attempt == 1 && t.cas.state == 3) = true := by decide +kernel

/-- A write of 4 bytes at the last place of the window, and one beyond it. -/
theorem wit_AperturesReadAndWrite :
    isMember (group 0 2) (mg 0x40 1 60 5 0 [1, 2, 3, 4]) = true ∧ LinkFree (group 0 2) ∧ Receives (group 0 2) 0x40 (mg 0x40 1 60 (5 <<< 8) 0 [1, 2, 3, 4]) ∧
      msgOff (mg 0x40 1 60 (5 <<< 8) 0 [1, 2, 3, 4]) + 4 ≤ (group 0 2).cas.aperSize ∧ ¬ (msgOff (mg 0x40 1 61 (5 <<< 8) 0 [1, 2, 3, 4]) + 4 ≤ (group 0 2).cas.aperSize) ∧
      Receives (group 0 2) 0x41 { mg 0x41 1 60 (5 <<< 8) 0 [] with len := 4 } := by decide +kernel
theorem test_aperWr :
    goes (exec (.aperWr (mg 0x40 1 60 (5 <<< 8) 0 [1, 2, 3, 4])) (group 0 2)) (fun t => t.t1.bytes.read 0x503C 4 == [1, 2, 3, 4] && (t.sent.map Msg.type) == [0x43]) = true ∧
      goes (exec (.aperWr (mg 0x40 1 61 (5 <<< 8) 0 [1, 2, 3, 4])) (group 0 2)) (fun t => t.t1 == (group 0 2).t1 && (t.sent.map fun m => (m.type, m.arg0)) == [(0x23, 4)]) = true := by
  decide +kernel
theorem test_aperRd :
    goes (exec (.aperRd { mg 0x41 1 60 (5 <<< 8) 0 [] with len := 4 }) { group 0 2 with t1 := ({} : PMem).put 0x503C [1, 2, 3, 4] })
      (fun t => (t.sent.map fun m => (m.type, m.payload)) == [(0x42, [1, 2, 3, 4])]) = true := by decide +kernel
/-- A read of 4 bytes of rank 1's window, and a write there, in flight on core 0 under tag 1 of generation 1. -/
def aperSt (write : Bool) : State :=
  { group 0 2 with
    str := { up.str with tags := [(1, { tagOf write (.aper 1) (if write then .write 0 0 else .fetch 0 0 0) with len := 4 })], gens := [(1, 1)] }
    jobs := [jb 0 (cm 0x18 [])] }
/-- ARG1 of the request of tag 1, generation 1, core 0: core in bits 15:8, tag in 24:16, generation in 26:25. -/
def aperA : Nat := 1 <<< 16 + 1 <<< 25
theorem wit_aperAnswers :
    Receives (aperSt true) 0x43 (mg 0x43 1 0 aperA 0 []) ∧ (aperSt true).str.tags.find (tagKey (fld (aperId (mg 0x43 1 0 aperA 0 [])) 11 8) (fld (aperId (mg 0x43 1 0 aperA 0 [])) 2 9)) ≠ none ∧
      (aperSt true).str.gens.get 1 0 = fld (aperId (mg 0x43 1 0 aperA 0 [])) 0 2 ∧ NothingWaits (aperSt true) ∧
      Receives (aperSt false) 0x42 (mg 0x42 1 0 aperA 0 [1, 2, 3, 4]) ∧ (aperSt false).job 0 0 = some (jb 0 (cm 0x18 [])) := by decide +kernel
theorem test_aperAck : goes (exec (.aperAck (mg 0x43 1 0 aperA 0 [])) (aperSt true)) (fun t => t.str.tags == [] && t.flt == up.flt) = true := by decide +kernel
theorem test_aperData :
    goes (exec (.aperData (mg 0x42 1 0 aperA 0 [1, 2, 3, 4])) (aperSt false)) (fun t => t.str.tags == [] && (t.jobs.map Job.fetched == [[⟨0, 0, 256, [1, 2, 3, 4], false, 0, false⟩]])) = true := by
  decide +kernel

/-! ### Commits, records, deadlines, attention -/

/-- A VEC whose one tile has an item on core 3. -/
def vecIt : Item := ⟨0, 0, 0, false⟩
def vecTile : Tile := { tile0 with items := [(0, false)] }
def vecRun : Job := { jb 0 (rowCmd 0x10) with phase := .running, total := 1, tiles := [vecTile] }
def vecSt : State := { rowSt 0x10 with jobs := [vecRun], cores := [(3, { deque := [vecIt] })] }
theorem wit_TilesCommitInOrder :
    (placed { mmaRun with tiles := [tile0] } {}).job 0 0 = some { mmaRun with tiles := [tile0] } ∧ mmaRun.op ≠ 0x0A ∧
      tileItems (placed { mmaRun with tiles := [tile0] } {}) { mmaRun with tiles := [tile0] } tile0 = [] ∧ mmaRun.hold = ([], []) ∧
      NothingWaits (placed { mmaRun with tiles := [tile0] } {}) ∧ tile0.contrib = [] ∧ mmaRun.stepCmd = false ∧
      tile0.wr.all (fun w => decide (w.place = .t1 ∧ w.addr + w.data.length ≤ 2 ^ 47)) = true ∧
      tileItems vecSt vecRun vecTile = [(3, vecIt)] ∧ vecSt.coreStopped 3 = false ∧ vecSt.nextItem 3 = some vecIt ∧
      landedOn vecSt vecRun vecTile.unit 3 = true ∧ landedOn vecSt { vecRun with ask := some [⟨0, 3, 0x1000, 16, false⟩] } vecTile.unit 3 = false := by
  decide +kernel
theorem test_tileCommit_runs_the_item_first :
    goes (exec (.tileCommit 0 0) vecSt) (fun t => t.cores.all (fun p => p.2.deque == []) && (t.job 0 0).map (fun j => (j.phase, j.tiles)) == some (.done, []))
      = true := by decide +kernel
/-- A NOP with a deadline. -/
def dlc (d : Nat) : List Byte := leBytes 8 0x3F ++ leBytes 8 d ++ List.replicate 48 0
/-- A finished command of queue 0, whose record goes to place 15 of a ring of 16 at 0x8000. -/
def recSt (p : Phase) : State :=
  { up with jobs := [{ jb 7 (cm (0x3F + 7 <<< 16) []) with phase := p, idx := some 0, fl := 5 }], qs := [(0, { cpl := 0x8000, enable := true, cplTail := 15 })] }
theorem wit_CompletionsAndMisses :
    recordReady (recSt .done) { jb 7 (cm (0x3F + 7 <<< 16) []) with phase := .done, idx := some 0, fl := 5 } = true ∧ Awake (recSt .done) ∧ Quiet (recSt .done) ∧
      recordReady (recSt .running) { jb 7 (cm (0x3F + 7 <<< 16) []) with phase := .running, idx := some 0, fl := 5 } = false ∧
      (jb 7 (dlc 5000)).deadline = 5000 ∧ (At (recSt .done) 5000).life.lt = 5000 := by decide +kernel
theorem test_completionRecord :
    goes (exec (.completionRecord 0 7) (recSt .done)) (fun t => t.jobs.isEmpty && (t.queue 0).cplTail == 16 && t.t1.bytes.num (0x8000 + 480) 4 == 7 + 0x3F <<< 24 + 2 ^ 31 &&
      t.t1.bytes.num (0x8000 + 484) 4 == 5 <<< 8 && t.t1.bytes.num (0x8000 + 488) 8 == 5000 && t.t1.bytes.get (0x8000 + 512) == 0) = true ∧
      goesTo (exec (.completionRecord 0 7) (recSt .running)) (recSt .running) = true := by decide +kernel
/-- A waiting command whose deadline is given, on an abort-on-miss queue or not. -/
def dlSt (d : Nat) (abort : Bool) : State := { up with jobs := [{ jb 7 (dlc d) with abort := abort }] }
theorem test_deadlineMiss :
    goes (exec (.deadlineMiss 0 7 5000) (dlSt 4999 false)) (fun t => (t.jobs.map fun j => (j.missed, j.status, j.phase)) == [(true, 1, .waiting)] && t.flt.count.get 1 0 == 1) = true ∧
      goes (exec (.deadlineMiss 0 7 5000) (dlSt 5000 true)) (fun t => t.jobs == (dlSt 5000 true).jobs) = true ∧
      goes (exec (.deadlineMiss 0 7 5000) (dlSt 4999 true)) (fun t => (t.jobs.map fun j => (j.status, j.phase)) == [(2, .done)]) = true := by decide +kernel
/-- ATTN of sequence 0 at position 0: one head of 64, FP16 keys, its query row of zeros at 0x3000. -/
def attnCmd : Job := jb 1 (cm 0x0A [0x140, 0x300, 0x320, 1 <<< 24 + 1 <<< 34 + 1 <<< 32, 0x3F800000 <<< 32, 0])
def attnSt : State :=
  let s := seqSt 0 []
  { s with
    t1 := (s.t1.put 0x300 (desc 0x3000 0 64 3)).put 0x320 (desc 0x3400 0 64 1)
    slots := { s.slots with recs := [(0, { admSlot with pos := 0 })] }
    jobs := [attnCmd] }
/-- What the checks make of it. -/
def attnOp : AttnOp :=
  { qkv := dt .fp32 0x3000 64 3, y := dt .fp32 0x3400 64 1, base := 0, kv := .fp16, kvCode := 3, hp := 1, kvwr := true, advance := false
    acc := 1, split := 0, hq := 1, hkv := 1, dh := 64, kappa := 0x3F800000, npos := 1, win := 0, compat := false, sids := [0] }
theorem attn_checked : prepAttn attnSt attnCmd.ctx true attnCmd.cmd = .ok attnOp := ok_of _ _ (by decide +kernel)
/-- The command with its one member, and the machine that holds it. -/
def attnRun : Job := { attnCmd with members := [memberOf attnSt 0], total := 1 }
def attnRunSt : State := attnSt.setJob attnRun
theorem wit_AttentionRunsItsMembers :
    Quiet attnSt ∧ Startable attnSt attnCmd ∧ Taken attnSt 0 1 0x0A attnCmd ∧ attnCmd.members = [] ∧ attnCmd.hold = ([], []) ∧ attnOp.compat = false ∧
      bringIn attnRunSt attnRun [0] = (true, attnRunSt) ∧ attnReach attnRunSt attnRun attnOp attnRun.members = (true, attnRunSt) ∧
      (memberOf attnSt 0).phase ≠ .ended := by decide +kernel
theorem wit_attn_rejected : ∃ b, prepAttn (one 0x0A []) (jb 0 (cm 0x0A [])).ctx true (cm 0x0A []) = .error b := ⟨_, rfl⟩
theorem wit_attn_at_hand : AtHand attnRunSt attnRun attnRun.ctx (attnOp.allParts attnRunSt attnRun attnRun.members) := by decide +kernel
theorem wit_attn_members :
    ((attnMembers attnRunSt attnRun attnOp attnRun.members.zipIdx).map fun r =>
      (r.1.job 0 1).isSome && decide (r.1.mon = attnSt.mon) && r.2.1.length == 1) = some true := by decide +kernel
/-- With no page free it cannot write its key and value. -/
def drySt : State := { attnRunSt with pg := { attnRunSt.pg with free := 0 } }
theorem wit_attn_dry :
    (attnMembers drySt attnRun attnOp attnRun.members.zipIdx).isNone = true ∧
      (growHold (fun s => (attnMembers s attnRun attnOp attnRun.members.zipIdx).map fun r => (r.1, r.2)) 0 drySt ([], [])).1.isNone = true := by
  decide +kernel
theorem test_attn_of_a_bad_set : goes (exec (.attn 0 0) (one 0x0A [])) (fun t => (t.job 0 0).map (fun j => (j.phase, j.status)) == some (.done, 4)) = true := by
  decide +kernel

/-! ### Rails, power states, telemetry -/

/-- A setpoint is wanted, asked for, or acknowledged. -/
def railSt (p : Power) : State := { up with pwr := { p with state := 0 } }
def asks : Power := { up.pwr with want := [(0, 88)] }
def asked : Power := { up.pwr with want := [], vreq := true, vsel := 0, vset := 88, hsLt := 4000 }
def acked : Power := { up.pwr with want := [], vack := true, vackPin := true, hsLt := 4000 }
theorem wit_SetpointsShakeHands :
    PinsReach (railSt asks) ∧ asks.vreq = false ∧ asks.vack = false ∧ asks.want = (0, 88) :: [] ∧ asked.vreq = true ∧ asked.vack = false ∧
      (railSt asked).mon.inj = [] ∧ (railSt asked).mon.trOn = false ∧ asked.move = none ∧ acked.vack = true ∧
      asked.hsLt + 100000 ≤ (At (railSt asked) 104000).life.lt ∧ (At (railSt asked) 103999).life.lt < asked.hsLt + 100000 := by decide +kernel
theorem test_setpointChange :
    goes (exec .setpointChange (railSt asks)) (fun t => t.pwr.vreq && t.pwr.vset == 88 && t.pwr.want.isEmpty && t.pwr.hsLt == 5000) = true ∧
      goesTo (exec .setpointChange (railSt asked)) (railSt asked) = true := by decide +kernel
theorem test_vackRise :
    goes (exec .vackRise (railSt asked)) (fun t => !t.pwr.vreq && t.pwr.vack && t.pwr.rails.get 0 0 == 88) = true ∧
      goes (exec .vackRise up) (fun t => t.flt.vnext == 1 && !t.pwr.vack) = true := by decide +kernel
theorem test_vackFall : goes (exec .vackFall (railSt acked)) (fun t => !t.pwr.vack && !t.pwr.vackPin) = true := by decide +kernel
theorem test_vackLate :
    goes (exec (.vackLate 104000) (railSt asked)) (fun t => t.pwr.late && t.pwr.vreq && t.flt.count.get 4 0 == 1) = true ∧
      goesTo (exec (.vackLate 103999) (railSt asked)) (At (railSt asked) 103999) = true := by decide +kernel

/-- The hottest sensor stands at HI, 100 degrees in eighths. -/
def hotSt : State := { up with pwr := { up.pwr with temp := [(3, 800)], loSince := some 5000, thermalLimit := 1, lastStep := some 5000 } }
theorem wit_TelemetryFollowsTheSensors :
    hotSt.life.rstLow = false ∧ hotSt.pwr.stepdown = true ∧ ((8 * hotSt.pwr.tempHi : Nat) : Int) ≤ (hottest hotSt).2 ∧ hotSt.pwr.thermalLimit ≠ 0 ∧
      5000 + 1000000 ≤ (At hotSt 1005000).life.lt ∧ (hottest up).2 < ((8 * up.pwr.tempHi : Nat) : Int) ∧ hotSt.pwr.loSince = some 5000 ∧ hotSt.pwr.thermalLimit < 2 ∧
      (At hotSt 1004999).life.lt < 5000 + 1000000 ∧ up.pwr.telLt + 1000 ≤ (At up 1000).life.lt ∧
      (up.core 255).scrubLt + up.pwr.scrubRate ≤ (At up 100).life.lt ∧ up.pwr.scrubRate ≠ 0 ∧ up.pwr.state ≤ 2 ∧
      badWords up.t0 (255 * 2 ^ 21 + 64 * (up.core 255).scrubRow) 64 = [] := by decide +kernel
theorem test_thermalStepdown :
    goes (exec (.thermalStepdown 1005000) hotSt) (fun t => t.pwr.thermalLimit == 0 && t.pwr.lastStep == some 1005000) = true ∧
      goes (exec (.thermalStepdown 1004999) hotSt) (fun t => t.pwr.thermalLimit == 1) = true := by decide +kernel
theorem test_thermalStepup :
    goes (exec (.thermalStepup 1005000) hotSt) (fun t => t.pwr.thermalLimit == 2 && t.pwr.loSince == some 1005000) = true ∧
      goes (exec (.thermalStepup 1004999) hotSt) (fun t => t.pwr.thermalLimit == 1) = true := by decide +kernel
theorem test_telemetryUpdate :
    goes (exec (.telemetryUpdate 6000 (List.replicate 16 5) 200) up) (fun t => t.pwr.energy == 12 && t.pwr.est == 200 && t.pwr.temp.get 15 0 == 5 && t.pwr.telLt == 6000) = true := by
  decide +kernel
theorem test_beatRateWindow :
    goes (exec (.beatRateWindow 6000 (List.replicate 15 3200 ++ [3199])) up) (fun t => t.pwr.slow == 1000 && t.pwr.beat.get 15 0 == 3199) = true := by decide +kernel
theorem test_calibration : goesTo (exec (.calibration 6000) up) (At up 6000) = true := by decide +kernel
theorem test_scrub : goes (exec (.scrub 255 5000) up) (fun t => (t.core 255).scrubRow == 1 && (t.core 255).scrubLt == 5000 && t.t0 == up.t0) = true := by
  decide +kernel

/-- Quiescent with the given LT to wake at; and asleep in S2 with a move. -/
def rest (w : Nat) : State := { up with pwr := { up.pwr with wakeAt := w } }
def moving (m : PowerMove) (st : Nat) : State := { up with pwr := { up.pwr with state := st, move := some m } }
theorem wit_PowerStatesFollowTheGap :
    isQuiescent up = true ∧ isQuiescent halt = false ∧ up.pwr.move = none ∧ chooseState (rest 7199) = 1 ∧ max 1 up.pwr.state < chooseState (rest 7200) ∧
      chooseState (rest 7200) ≠ 4 ∧ nextEvent { rest 7200 with pwr := { (rest 7200).pwr with state := 2 } } = some 7200 ∧
      7200 ≤ (At (rest 7200) 7000).life.lt + wakeTime 2 ∧ (At (rest 7200) 6999).life.lt + wakeTime 2 < 7200 ∧
      (rest 7200).pwr.wakeAt ≤ (At (rest 7200) 7200).life.lt ∧ (moving ⟨true, 0, 5200⟩ 2).pwr.heldAcc = [] ∧ Quiet (moving ⟨false, 3, 5000⟩ 0) ∧
      (At (moving ⟨true, 0, 5200⟩ 2) 5199).life.lt < 5200 := by decide +kernel
theorem test_quiescent :
    goesTo (exec .quiescent (rest 7199)) (rest 7199) = true ∧ goes (exec .quiescent (rest 7200)) (fun t => t.pwr.move == some ⟨false, 2, 5000⟩) = true := by
  decide +kernel
theorem test_timedWake :
    goes (exec (.timedWake 7000) { rest 7200 with pwr := { (rest 7200).pwr with state := 2 } }) (fun t => t.pwr.move == some ⟨true, 0, 7200⟩) = true ∧
      goes (exec (.timedWake 6999) { rest 7200 with pwr := { (rest 7200).pwr with state := 2 } }) (fun t => t.pwr.move == none) = true := by decide +kernel
theorem test_wakeAtReached : goes (exec (.wakeAtReached 7200) (rest 7200)) (fun t => t.pwr.wakeAt == 0) = true ∧
    goes (exec (.wakeAtReached 7199) (rest 7200)) (fun t => t.pwr.wakeAt == 7200) = true := by decide +kernel
theorem test_powerStateChangeComplete :
    goes (exec (.powerStateChangeComplete 5200) (moving ⟨true, 0, 5200⟩ 2)) (fun t => t.pwr.state == 0 && t.pwr.move == none) = true ∧
      goes (exec (.powerStateChangeComplete 5199) (moving ⟨true, 0, 5200⟩ 2)) (fun t => t.pwr.state == 2) = true := by decide +kernel

/-! ### Inputs, reset and boot -/

/-- The inputs given stand asserted since LT 0. -/
def inp (l : BitVec 4) : State := { up with inp := { level := l, pins := l, throttle := true, droopEnd := 5000 } }
theorem wit_InputsActWhenSeen :
    PinsReach up ∧ up.inp.level = 0 ∧ up.inp.masked = 0 ∧ (inp 15).inp.level.getLsbD 0 = true ∧ (inp 15).inp.level.getLsbD 1 = true ∧
      (inp 15).inp.level.getLsbD 2 = true ∧ (inp 15).inp.level.getLsbD 3 = true ∧ (inp 0).inp.throttle = true ∧
      100 ≤ (At up 5000).life.lt - up.inp.changeLt.get 1 0 ∧ ¬ (100 ≤ (At { up with inp := { changeLt := [(1, 4901)] } } 5000).life.lt - 4901) ∧
      (inp 15).inp.changeLt.get 1 0 + 10000000 ≤ (At (inp 15) 10000000).life.lt ∧ (inp 15).inp.changeLt.get 3 0 + 100000000 ≤ (At (inp 15) 100000000).life.lt ∧
      (inp 15).inp.stuck = 0 ∧ up.life.refLost = false := by decide +kernel
theorem test_haltReq : goes (exec .haltReq up) (fun t => t.inp.halted && t.inp.level == 1) = true ∧
    goes (exec .haltReqDeassert (inp 1)) (fun t => t.inp.level == 0) = true := by decide +kernel
theorem test_thermTrip : goes (exec .thermTrip up) (fun t => t.inp.thermHalt && t.flt.count.get 6 0 == 1) = true ∧
    goes (exec .thermTripDeassert { up with inp := { level := 4, pins := 4, thermHalt := true } }) (fun t => t.inp.thermHalt && t.inp.level == 0) = true := by
  decide +kernel
theorem test_droopWarn : goes (exec .droopWarn up) (fun t => t.inp.throttle && t.inp.level == 8) = true ∧
    goes (exec (.droopWarnDeassert 6000) (inp 8)) (fun t => t.inp.throttle && t.inp.droopEnd == 11000) = true := by decide +kernel
theorem test_throttleEnd : goes (exec (.throttleEnd 5000) (inp 0)) (fun t => !t.inp.throttle) = true ∧
    goes (exec (.throttleEnd 5000) { inp 0 with inp := { (inp 0).inp with droopEnd := 5001 } }) (fun t => t.inp.throttle) = true := by decide +kernel
theorem test_wakeReq :
    goes (exec (.wakeReq 5000) up) (fun t => t.inp.wakeLt == some 5000 && t.inp.coalesced == 0) = true ∧
      goes (exec (.wakeReq 5000) { up with inp := { changeLt := [(1, 4901)] } }) (fun t => t.inp.wakeLt == none && t.inp.coalesced == 1) = true := by decide +kernel
theorem test_wakeReqDeassert : goes (exec (.wakeReqDeassert 6000) (inp 2)) (fun t => t.inp.level == 0 && t.inp.changeLt.get 1 0 == 6000) = true := by decide +kernel
theorem test_inputStuck :
    goes (exec (.inputStuck 1 10000000) (inp 2)) (fun t => t.inp.stuck == 2 && t.inp.masked == 2 && t.flt.count.get 7 0 == 1) = true ∧
      goes (exec (.inputStuck 1 9999999) (inp 2)) (fun t => t.inp.stuck == 0) = true := by decide +kernel
theorem test_refLoss_and_resume : goes (exec .refLoss up) (fun t => t.life.refLost && t.flt.count.get 5 0 == 1 &&
    goes (exec .refResume t) (fun u => !u.life.refLost)) = true := by decide +kernel
/-- A boot read may run, and a flash with the length given in its header at byte 8. -/
def flashOf (n : Nat) : List Byte := leBytes 8 0 ++ leBytes 4 n
def bootSt (ph : Nat) : State := { (State.reset) with life := { lt := 1000 }, boot := { phase := ph, readCmd := 3 }, pwr := { want := [], rails := [(0, 88), (1, 100)] } }
theorem wit_ResetAndBootReachReady :
    ({ up with life := { up.life with rstLow := true } }.life.rstLow = true ∧ up.inp.pins = 0 ∧ up.inp.level = 0) ∧
      (bootSt 0).life.refLost = false ∧ (bootSt 0).boot.phase = 0 ∧ 1000 ≤ (At (bootSt 0) 1000).life.lt ∧
      (At { bootSt 0 with life := { lt := 998 } } 999).life.lt < 1000 ∧
      imageLimit (bootChoice []).2.2 < flashNum (flashOf (2 ^ 24 + 1)) 8 4 ∧ flashNum (flashOf 12) 8 4 ≤ imageLimit (bootChoice []).2.2 ∧
      railsUp (bootSt 2) = true ∧ railsUp { bootSt 2 with pwr := {} } = false ∧ digestOk (bootSt 2) = true ∧ imageOk (stagedImage (bootSt 2)) = false ∧
      digestOk { bootSt 2 with fuse := { digest := 1 } } = false := by decide +kernel
theorem test_rstN :
    goes (exec .rstNAssert { up with t1 := ({} : PMem).put 0 [1] }) (fun t => t.life.rstLow && t.t1.bytes == [(0, 1)] && t.life.lt == 0 && t.slots == {} && t.cas == {}) = true ∧
      goes (exec .rstNRelease { up with life := { up.life with rstLow := true } }) (fun t => !t.life.rstLow) = true := by decide +kernel
theorem test_bootRead_of_a_long_image : goes (exec (.bootRead [] (flashOf (2 ^ 24 + 1)) 1000) (bootSt 0)) (fun t => t.boot.phase == 4 && t.boot.error == 2) = true := by
  decide +kernel
theorem test_bootComplete_checks :
    goes (exec (.bootComplete [] none 1000) { bootSt 2 with fuse := { digest := 1 } }) (fun t => t.boot.phase == 4 && t.boot.error == 3) = true ∧
      goes (exec (.bootComplete [] none 1000) (bootSt 2)) (fun t => t.boot.phase == 4 && t.boot.error == 4) = true := by decide +kernel
/-- The smallest image: no more than one empty preload section (16 R519). -/
def image : List Byte :=
  leBytes 4 0x33555354 ++ leBytes 2 1 ++ leBytes 2 1 ++ leBytes 4 128 ++ leBytes 4 7 ++ leBytes 2 256 ++ leBytes 2 0 ++ List.replicate 44 0 ++
    leBytes 2 4 ++ leBytes 2 0 ++ leBytes 4 0x50 ++ leBytes 4 0 ++ leBytes 4 0 ++ List.replicate 48 0
theorem test_image_is_in_form : image.length = 128 ∧ imageOk image = true ∧ imageOk (image.set 0 0) = false := by decide +kernel

/-! ### TAP -/

theorem test_tap_holds_the_pins :
    goes (exec (.extest 5) up) (fun t => t.tap.update == 5 && outputPins t == some 5) = true ∧
      goes (exec (.sample 5) up) (fun t => t.tap.update == 5 && outputPins t == some (engineOuts t)) = true ∧
      goes (exec (.clamp 3) { up with tap := { update := 9 } }) (fun t => outputPins t == some 9 && t.tap.tdo == 6) = true ∧
      goes (exec (.highz 3) up) (fun t => outputPins t == none && t.tap.tdo == 6) = true := by decide +kernel
theorem test_idcode_and_bypass :
    goes (exec .idcode up) (fun t => t.tap.ir == 2 && t.tap.tdo == idCode) = true ∧ goes (exec (.bypass 15) up) (fun t => t.tap.ir == 15 && t.tap.tdo == 0) = true ∧
      goesTo (exec (.bypass 4) up) up = true ∧ goes (exec .tapReset { up with tap := { ir := 0 } }) (fun t => t.tap.ir == 2 && !tapHolds t) = true := by decide +kernel

/-! ### UART and monitor -/

/-- The monitor open, with a checked request waiting. -/
def monSt (ws : List String) : State :=
  { up with fuse := { debugEn := true, key := 5 }, mon := { unlocked := true, req := some (1, ws.map txt) }, boot := { phase := 3 } }
theorem wit_monitor_requests :
    ([["ID"], ["CHAL"], ["LOCK"], ["ST"], ["RD", "4520"], ["HALT"], ["RES"], ["TR", "OFF"], ["INJ", "CLR"]].all fun ws =>
      decide (Asked (monSt ws) 1 ws 2 [])) = true ∧ Asked (monSt ["UNLK", "0123456789ABCDEF"]) 1 ["UNLK"] 1 [txt "0123456789ABCDEF"] ∧
      hexOf (txt "0123456789ABCDEF") = some 0x0123456789ABCDEF ∧ (txt "0123456789ABCDEF").length = 16 ∧
      gate { monSt ["ST"] with mon := { (monSt ["ST"]).mon with unlocked := false } } 2 = some "LOCKED" := by decide +kernel
theorem wit_UartCountsAndTimes :
    PinsReach up ∧ up.life.refLost = false ∧ up.mon.fifo = [] ∧ up.mon.req = none ∧ up.mon.line = [] ∧
      64 ≤ ({ up with mon := { fifo := List.replicate 64 0 } } : State).mon.fifo.length ∧ ({ up with mon := { nonce := some (7, 5000) } } : State).mon.nonce = some (7, 5000) ∧
      ({ up with mon := { tx := [1] } } : State).mon.tx = 1 :: [] := by decide +kernel
theorem test_uartRxFrame :
    goes (exec (.uartRxFrame 65 false 5000) up) (fun t => t.mon.frameErr == 1 && t.mon.line == []) = true ∧
      goes (exec (.uartRxFrame 65 true 5000) { up with mon := { fifo := List.replicate 64 0 } }) (fun t => t.mon.overrun == 1) = true ∧
      goes (exec (.uartRxFrame 65 true 5000) up) (fun t => t.mon.line == [65]) = true := by decide +kernel
theorem test_monitor_times :
    goes (exec (.monitorLineTimeout 100000000) { up with mon := { line := [65] } }) (fun t => t.mon.line == []) = true ∧
      goes (exec (.monitorLineTimeout 99999999) { up with mon := { line := [65] } }) (fun t => t.mon.line == [65]) = true ∧
      goes (exec (.nonceExpiry 6000) { up with mon := { nonce := some (7, 6000) } }) (fun t => t.mon.nonce == none) = true ∧
      goes (exec (.nonceExpiry 5999) { up with mon := { nonce := some (7, 6000) } }) (fun t => t.mon.nonce == some (7, 6000)) = true := by decide +kernel
theorem test_uartTxCharacterEnd : goes (exec .uartTxCharacterEnd { up with mon := { tx := [1], divNext := some 9 } }) (fun t => t.mon.tx == [] && t.mon.div == 9) = true := by
  decide +kernel
/-- What the answer does to the state. -/
theorem test_lock_and_chal :
    goes (exec .lockCmd (monSt ["LOCK"])) (fun t => !t.mon.unlocked && t.mon.req == none) = true ∧
      goes (exec (.chal 0x5E0A91C4D2377B10) (monSt ["CHAL"])) (fun t => t.mon.nonce == some (0x5E0A91C4D2377B10, 6000005000)) = true ∧
      goes (exec (.chal 1) { monSt ["CHAL"] with mon := { (monSt ["CHAL"]).mon with wrong := 3 } }) (fun t => t.mon.nonce == none) = true := by decide +kernel
theorem test_id_st_and_unlk :
    goes (exec .idCmd (monSt ["ID"])) (fun t => t.mon.req == none && t.mon.unlocked) = true ∧
      goes (exec .stCmd (monSt ["ST"])) (fun t => t.mon.req == none) = true ∧
      goes (exec .unlk { monSt ["UNLK", "0123456789ABCDEF"] with mon := { (monSt ["UNLK", "0123456789ABCDEF"]).mon with unlocked := false } })
        (fun t => t.mon.req == none && !t.mon.unlocked) = true := by decide +kernel
theorem test_rd_and_wr :
    goes (exec .rdCmd (monSt ["RD", "9004"])) (fun t => t.mon.lastAns == (answer (monSt ["RD", "9004"]) 1 '!' (txt "000186A0")).mon.lastAns) = true ∧
      goes (exec .wrCmd (monSt ["WR", "9004", "7D0"])) (fun t => t.str.timeout == 2000) = true ∧
      goes (exec .rdCmd (monSt ["RD", "2001"])) (fun t => t.mon.lastAns == (answer (monSt ["RD", "2001"]) 1 '?' (txt "RANGE")).mon.lastAns) = true := by decide +kernel
theorem test_md_and_cnt :
    goes (exec .mdCmd { monSt ["MD", "10", "2"] with t1 := ({} : PMem).put 0x11 [255] })
      (fun t => t.mon.lastAns == (answer (monSt ["MD", "10", "2"]) 1 '!' (txt "00 FF")).mon.lastAns) = true ∧
      goes (exec .cntCmd (monSt ["CNT", "FF"])) (fun t => t.mon.req == none && t.str == up.str) = true := by decide +kernel
theorem test_monitor_halt_and_res :
    goes (exec .monitorHalt (monSt ["HALT"])) (fun t => t.inp.halted) = true ∧ goes (exec .monitorHalt (monSt ["HALT", "FF"])) (fun t => t.inp.monHalt == [255]) = true ∧
      goes (exec .monitorRes { monSt ["RES"] with inp := { halted := true, monHalt := [3] } }) (fun t => !t.inp.halted && t.inp.monHalt == []) = true := by decide +kernel
theorem test_bp : goes (exec .bpCmd (monSt ["BP", "3", "3F", "FFFF", "C"])) (fun t => t.mon.bp == [(3, 0xFFFF + 0x3F <<< 16 + 1 <<< 22 + 2 ^ 31)]) = true := by decide +kernel
theorem test_trace_commands :
    goes (exec .trOn (monSt ["TR", "ON", "1000", "1000", "7F", "1"])) (fun t => t.mon.trOn && t.mon.trBase == 0x1000 && t.mon.trSize == 0x1000 && t.mon.trWrap) = true ∧
      goes (exec .trOff { monSt ["TR", "OFF"] with mon := { (monSt ["TR", "OFF"]).mon with trOn := true } }) (fun t => !t.mon.trOn) = true ∧
      goes (exec .trSt (monSt ["TR", "ST"])) (fun t => t.mon.req == none) = true ∧
      goes (exec .traceDrop { up with mon := { trOn := true } }) (fun t => t.mon.trDrop == 1) = true := by decide +kernel
theorem test_stest : goes (exec (.stest none 5000) (monSt ["STEST"])) (fun t => t.life.ready && t.flt == up.flt && t.t0 == {}) = true ∧
    goes (exec (.stest (some ⟨2, 9, 1, 3⟩) 5000) (monSt ["STEST"])) (fun t => t.life.selftestFail && !t.life.ready && t.flt.count.get 9 0 == 1) = true := by decide +kernel
theorem test_baud : goes (exec .baud (monSt ["BAUD", "1B2"])) (fun t => (t.mon.baud.map Prod.snd) == some 0x1B2) = true := by decide +kernel
theorem wit_injections : (monSt ["INJ", "PPOI", "FF"]).mon.inj.length < 8 ∧ Asked (monSt ["INJ", "PPOI", "FF"]) 1 ["INJ", "PPOI"] 2 [txt "FF"] ∧
    hexOf (txt "FF") = some 255 ∧ hexOf (txt "1FFFFF") = some (2 ^ 21 - 1) ∧ hexOf (txt "47") = some 71 ∧
    Asked (monSt ["INJ", "T0C", "FF", "1FFFFF", "47"]) 1 ["INJ", "T0C"] 2 [txt "FF", txt "1FFFFF", txt "47"] := by decide +kernel
theorem test_injections_arm :
    goes (exec .injPpoi (monSt ["INJ", "PPOI", "FF"])) (fun t => t.mon.inj == [⟨3, 255, 0, 0⟩]) = true ∧
      goes (exec .injTdrop (monSt ["INJ", "TDROP", "FF"])) (fun t => t.mon.inj == [⟨4, 255, 0, 0⟩]) = true ∧
      goes (exec .injDln (monSt ["INJ", "DLN", "3F"])) (fun t => t.mon.inj == [⟨5, 63, 0, 0⟩]) = true ∧
      goes (exec .injCdrop (monSt ["INJ", "CDROP"])) (fun t => t.mon.inj == [⟨6, 0, 0, 0⟩]) = true ∧
      goes (exec .injVack (monSt ["INJ", "VACK"])) (fun t => t.mon.inj == [⟨7, 0, 0, 0⟩]) = true ∧
      goes (exec .injClr { monSt ["INJ", "CLR"] with mon := { (monSt ["INJ", "CLR"]).mon with inj := [⟨7, 0, 0, 0⟩] } }) (fun t => t.mon.inj == []) = true ∧
      goes (exec .injSt (monSt ["INJ", "ST"])) (fun t => t.mon.req == none) = true := by decide +kernel
theorem test_injections_on_T0 :
    goes (exec .injT0c (monSt ["INJ", "T0C", "FF", "1FFFF8", "47"])) (fun t => t.t0.ce == [128 * (255 * 2 ^ 18 + 0x3FFFF) + 71] && t.mon.inj == []) = true ∧
      goes (exec .injT0u (monSt ["INJ", "T0U", "3", "8"])) (fun t => t.t0.ue == [3 * 2 ^ 18 + 1]) = true ∧
      goes (exec .injT0u { monSt ["INJ", "T0U", "3", "8"] with pwr := { up.pwr with state := 3 } }) (fun t => t.mon.inj == [⟨2, 3, 8, 0⟩]) = true := by decide +kernel

/-! ### Memory and reset values -/

theorem wit_MemoryReadsWhatWasWritten : Memory.wf [(5, 1)] = true := by decide
theorem test_memory_write_of_zero_removes : Memory.write [(5, 1), (6, 2)] 5 [0] = [(6, 2)] := by decide
theorem test_reset_values : reg32 State.reset 0x9000 = 0x400 ∧ reg32 State.reset 0x9004 = 100000 := by decide +kernel

/-! ### Witnesses at further clauses -/

/-- The page of the highest VPN of sequence 0, descriptor 1, stands on the shelf. -/
def farCmd (fall : Nat) : Job := jb 1 (cm 0x28 [0, 2 ^ 24 - 1, 1, 0, 0, fall])
def farSt (st : Nat) (fall : Nat) : State :=
  let s := seqSt 0 []
  { s with
    t1 := s.t1.put 1048592 [BitVec.ofNat 8 (0x40 + st)]
    tier := { sideBase := 0x200000, shelfBase := 0x300000, shelfEn := true, shelfFree := 4, shelfCount := 4, freeLow := 3, freeHigh := 4 }
    jobs := [farCmd fall] }
theorem wit_page_rises :
    pageOf (farSt 2 0) 0 (2 ^ 24 - 1) = some 1 ∧ (getDesc (farSt 2 0) 1).state = 2 ∧ Startable (farSt 2 0) (farCmd 0) ∧
      ((startRise (farSt 2 0) 1 1 3 (some (0, 1))).map fun t => t.job 0 1 == some (farCmd 0) && t.pg.rises.any fun r => r.d == 1) = some true := by decide +kernel
theorem test_pageRise_starts : goes (exec (.pageRise 0 1) (farSt 2 0)) (fun t => (t.jobs.map Job.work) == [[1, 0, 1]] && (getDesc t 1).state == 3) = true := by
  decide +kernel
theorem wit_page_falls : eligible (farSt 1 1) 1 = true ∧ (farSt 1 1).pg.falls.length ≤ (farSt 1 1).tier.maxFalls ∧ levels (farSt 1 1) = true ∧
    (clockScan 8 0 (farSt 1 1)).1 = some 1 ∧ (startFall (farSt 1 1) 1 3 (some (0, 1))).isSome = true := by decide +kernel
/-- A rise whose body has come in whole: a stored page of no bytes, whose check word is 0. -/
theorem wit_rise_lands :
    ((riseSt false).pg.rises.find? fun r => r.d == 3).map (fun r => (r.left, r.timedOut, r.poisoned, r.bytes.length)) = some (0, false, false, 0) ∧
      (match unfoldPage 0 (List.replicate 16 0) [] with | .ok p => p.length == 0 | .error _ => false) = true := by decide +kernel
theorem test_riseComplete :
    goes (exec (.riseComplete 3) (riseSt false)) (fun t => t.pg.rises.isEmpty && (getDesc t 3).state == 1 && t.tier.foldErr == 0) = true ∧
      goes (exec (.riseComplete 3) (riseSt true)) (fun t => t.pg.rises.isEmpty && t.tier.foldErr == 1 && t.flt.count.get 2 0 == 1) = true := by decide +kernel
/-- A command with deadline 6000 waits for page 3, which is on the shelf with a summary. -/
def lateSt : State :=
  { fallSt 0 with
    t1 := ((fallSt 0).t1.put (0x100000 + 48) [2]).put (0x200000 + 112) [1]
    tier := { (fallSt 0).tier with neapEn := true, neapQ := 1 }
    jobs := [{ jb 7 (leBytes 8 0x0A ++ leBytes 8 6000 ++ List.replicate 48 0) with phase := .running, kvWaits := [(0, 3), (0, 2)] }] }
theorem wit_late :
    (getDesc lateSt 3).state ≠ 1 ∧ bit (sideWord lateSt 3) 0 = true ∧
      (lateSt.jobs.map fun j => (streamDeadline (At lateSt 6000) j { sid := 0 }).map fun sd => decide (sd ≤ ((At lateSt 6000).life.lt : Int))) = [some true] := by
  decide +kernel
theorem test_neapStreamDeadline :
    goes (exec (.neapStreamDeadline 3 6000) lateSt) (fun t => (t.jobs.map fun j => (j.neaps, j.kvWaits)) == [([(0, 3, 0)], [(0, 2)])]) = true := by decide +kernel

/-- Every register that a clause names is a 64-bit one that a high-word write reaches, and no lock stands. -/
theorem wit_wide_registers :
    ([0x2010, 0x2018, 0x9430, 0x9438, 0x2100, 0x22F8, 0x2020, 0x8100, 0x8110, 0x8130, 0x9408, 0x9418, 0x9420, 0xA020, 0xA028, 0xA030, 0xA038, 0xA080, 0xA088,
      0xA100, 0xA2F0, 0x4000, 0x4008, 0x7F10, 0x8000, 0x08, 0x18, 0x1050, 0x2038, 0x2060, 0x3010, 0x9010, 0x9020, 0x9458, 0x9468, 0xA060, 0xA078,
      0xC018, 0xC0E0, 0x18008, 0x18028].all fun a => decide (Reaches up (a + 4)) && (reg64 up a).isSome && isLow up a) = true ∧
      up.slots.sids = [] ∧ up.cas.enable = false ∧ (up.queue 63).enable = false ∧ up.pwr.state ≠ 4 ∧
      ({ up with ctl := { up.ctl with captured := [(0x2010, 5)] } } : State).ctl.captured.find 0x2010 = some 5 := by decide +kernel
/-- A fall with one, or more, of its transfers left. -/
def fell2 : State := { fell with pg := { fell.pg with falls := [⟨4, 0, none, [], 2, 4, none, []⟩] } }
theorem wit_fall_acks :
    FallsMarked fell ∧ FallsMarked wri ∧ (getDesc fell 4).commit = false ∧ FallsMarked fell2 ∧ (∀ f ∈ fell2.pg.falls, f.d = 4 → 1 < f.left) ∧
      fell2.str.tags.find 1 = some (tagOf true .shelf (.fall 4)) := by decide +kernel
/-- A command that waits for a page with none left; a sequence that no member names. -/
theorem wit_dry_command :
    ({ dry with jobs := [{ jb 1 (cm 0x18 []) with dry := true }] } : State).job 0 1 = some { jb 1 (cm 0x18 []) with dry := true } ∧ (jb 1 (cm 0x18 [])).op ≠ 9 ∧
      dry.pg.free = 0 ∧ (jb 1 (cm 0x18 [])).phase ≠ .done ∧ (∀ k ∈ retSt.jobs, k.phase = .done ∨ ∀ m ∈ k.members, m.sid = 0 → m.phase = .ended) := by decide +kernel
/-- A `STREAMED` sequence that parks or unparks in slot 5, its move running or not. -/
def moveSt (st : Nat) (on : Bool) : State :=
  { up with slots := { up.slots with sids := [9], recs := [(5, { sid := 9, state := st, resid := 2 })], transit := if on then [5] else [] } }
theorem wit_moves :
    ([4, 5].all fun st => decide (Quiet (moveSt st true) ∧ Awake (moveSt st true)) && Machine.moving (moveSt st true) 5 && !Machine.moving (moveSt st false) 5) = true ∧
      touchAll unparking admSlot.core none (tab (statePages admSlot) fun k => (admSlot.sid, 2 ^ 24 - statePages admSlot + k)) = (true, unparking) ∧
      Machine.moving unparking 0 = true := by decide +kernel
theorem test_parkComplete_waits_for_its_turn :
    goesTo (exec (.parkComplete 5) (moveSt 4 false)) (moveSt 4 false) = true ∧ goes (exec (.parkComplete 5) (moveSt 4 true)) (fun t => t.slots.recs == []) = true ∧
      goes (exec (.unparkComplete 5) (moveSt 5 true)) (fun t => recsOf t == [(5, 1, false)]) = true := by decide +kernel
/-- A fall that lost a write. -/
def lostSt : State := { fallSt 0 with pg := { (fallSt 0).pg with falls := [⟨3, 0, none, [], 0, 9, none, []⟩] } }
theorem wit_falls_end :
    (lostSt.pg.falls.find? fun f => f.d == BitVec.toNat (3 : BitVec 28)).map (fun f => (f.left, f.cls)) = some (0, 9) ∧
      (getDesc (putDesc (fallSt 0) 3 { getDesc (fallSt 0) 3 with commit := true }) 3).commit = true ∧ (getDesc (fallSt 0) 3).commit = false := by decide +kernel
theorem test_fall_with_a_lost_write_is_given_up :
    goes (exec (.fallCommit 3) lostSt) (fun t => t.pg.falls.isEmpty && (getDesc t 3).state == 1) = true := by decide +kernel
/-- A rank with a child: its term and the child's are there, and the bucket is open. -/
def midSt : State :=
  { group 1 2 with
    cas := { (group 1 2).cas with
      size := 2
      fanin := 0
      route := [(0, 0x80000011), (2, 0x80000012)]
      buckets := [⟨3, 0, 0, false, 0, 1, 1⟩]
      chunks := [{ tag := 3, num := 0, terms := [⟨1, [some 0], 0, false, 0⟩], sent := false }] }
    jobs := [{ redCmd with phase := .running, total := 1, finished := 1 }] }
def term2 : Msg := mg 0x20 2 0 0 3 [0x80, 0x43]
theorem wit_contrib_of_the_last_child :
    isMember midSt term2 = true ∧ Receives midSt 0x20 term2 ∧ midSt.cas.children = [2] ∧ bit midSt.cas.stepMask 3 = true ∧ btCount midSt 3 ≠ 0 ∧
      modeBad midSt term2 = false ∧ bucketOf midSt 3 ≠ none ∧ midSt.cas.rank ≠ 0 ∧ ((chunkOf midSt 3 0).terms.any fun t => t.rank == 2) = false ∧
      (∀ r ∈ midSt.cas.rank :: midSt.cas.children, r = 1 ∨ r = 2) := by decide +kernel
theorem test_contrib_goes_up : goes (exec (.contrib term2) midSt) (fun t => (chunkOf t 3 0).sent && t.sent.map (fun m => (m.type, m.dst)) == [(0x22, 2), (0x20, 0)]) = true := by
  decide +kernel
/-- A result that has come, and one of two chunks. -/
theorem wit_results :
    (chunkOf { leafSt with cas := { leafSt.cas with chunks := [{ tag := 3, num := 0, terms := [], sent := false, got := true }] } } 3 0).got = true ∧ (1 : Nat) < (⟨3, 0, 0, false, 0, 257, 2⟩ : Bucket).left ∧
      ([0x10, 0x40, 0x41, 0x20].all fun ty => decide (Receives leafSt 0x23 (mg 0x23 0 2 ty 3 []))) = true ∧
      ({ leafSt with cas := { leafSt.cas with nakked := [(3, 0)] } } : State).cas.nakked.contains (3, 0) = true ∧ bucketOf (group 1 2) 3 = none := by decide +kernel
/-- Under EXTEST the inputs are held, and a write to the boundary register ends it. -/
theorem wit_TapScansItsRegisters :
    tapHolds { up with tap := { ir := 0 } } = true ∧ tapHolds up = false ∧ (5 : Nat) ≤ BitVec.toNat (15 : BitVec 4) ∧ BitVec.toNat (4 : BitVec 4) < 5 ∧
      up.life.rstLow = false := by decide +kernel
theorem wit_stest :
    Asked (monSt ["STEST"]) 1 ["STEST"] 2 [] ∧ reachable (monSt ["STEST"]) = true ∧ (monSt ["STEST"]).boot.phase = 3 ∧ (monSt ["STEST"]).jobs = [] ∧
      (monSt ["STEST"]).slots.sids = [] ∧ reachable { monSt ["STEST"] with jobs := [jb 0 (cm 0x3F [])] } = true ∧
      Asked { monSt ["STEST"] with jobs := [jb 0 (cm 0x3F [])] } 1 ["STEST"] 2 [] := by decide +kernel
/-- A good image stands staged. -/
def staged : State := { bootSt 2 with t0 := ({} : T0Mem).store 0 image [], boot := { (bootSt 2).boot with bytes := 128 } }
theorem wit_good_image : railsUp staged = true ∧ digestOk staged = true ∧ imageOk (stagedImage staged) = true := by decide +kernel
/-- An MMA for the bucket of tag 3, which is free or taken. -/
def redMma : Job := jb 0 (cm 1 [0x100, 0x120, 0x140, 0, 0 + 2 <<< 6 + 1 <<< 8 + 1 <<< 22 + 1 <<< 24, 3])
def redMmaSt (taken : Bool) : State :=
  { group 0 2 with
    t1 := mat.put 0x10060 (leBytes 4 4)
    jobs := [redMma]
    cas := { (group 0 2).cas with buckets := if taken then [⟨3, 9, 0, false, 0, 4, 1⟩] else [] } }
/-- Its checked form; the word of the bucket stands where a CONV has its kernel. -/
def redOp : ArrOp := { mmaOp with reduce := true, geom := ⟨4, 1, 1, 1, 1, 1, 1, 1, 1, 0, 0, 0⟩ }
theorem redMma_checked (b : Bool) : chkArray (redMmaSt b) redMma = .ok redOp := by
  cases b <;> exact ok_of _ _ (by decide +kernel)
theorem wit_array_buckets :
    bucketWaits (redMmaSt true) (bw redMma.cmd 5) = true ∧ bucketWaits (redMmaSt false) (bw redMma.cmd 5) = false ∧
      ([true, false].all fun b => decide (Quiet (redMmaSt b) ∧ Startable (redMmaSt b) redMma ∧ Taken (redMmaSt b) 0 0 1 redMma)) = true ∧
      redOp.firstBad (openBucket (redMmaSt false) redMma 3) redMma.ctx = none := by decide +kernel

end Sys2Proof.Tests
end

section
/-! What an access of the control port does, and which addresses answer before READY (15 R490, R491). -/
namespace Sys2Proof.Proofs
open Sys2Proof Sys2Proof.Machine

theorem exec_regWrite (a : BitVec 24) (v : Word) (s : State) :
    exec (.regWrite a v) s = .next (portAccess s true a.toNat v.toNat) := rfl

theorem exec_controlPortRead (a : BitVec 24) (s : State) :
    exec (.controlPortRead a) s = .next (portAccess s false a.toNat 0) := rfl

theorem earlyRange_iff (a : Nat) : earlyRange a = true ↔ a < 0x1000 ∨ (0xC000 ≤ a ∧ a < 0xD000) := by
  simp [earlyRange]

/-- Only an engine that is READY can sleep, so before READY no access waits for a wake (16 R532). -/
theorem portAccess_beforeReady (s : State) (w : Bool) (a v : Nat) (hrst : s.life.rstLow = false) (hready : s.life.ready = false) :
    portAccess s w a v = portNow s w a v := by
  simp [portAccess, hrst, hready]

/-- An address that answers takes a write. -/
theorem portNow_write (s : State) (a v : Nat) (h : s.life.ready = true ∨ earlyRange a = true) :
    portNow s true a v = ctrlWrite s a v := by
  rcases h with h | h <;> simp [portNow, h]

/-- An address that answers gives a read the value of `ctrlRead`, behind the answers given before. -/
theorem portNow_read (s : State) (a v : Nat) (h : s.life.ready = true ∨ earlyRange a = true) :
    portNow s false a v =
      { (ctrlRead s a).2 with ctl := { (ctrlRead s a).2.ctl with
          answers := (ctrlRead s a).2.ctl.answers ++ [BitVec.ofNat 32 (ctrlRead s a).1] } } := by
  rcases h with h | h <;> simp [portNow, h]

/-- Outside the two ranges a write before READY is ignored, with no entry in the log. -/
theorem portNow_write_ignored (s : State) (a v : Nat) (hready : s.life.ready = false) (ha : earlyRange a = false) :
    portNow s true a v = s := by
  simp [portNow, hready, ha]

/-- Outside the two ranges a read before READY answers 0, with no entry in the log. -/
theorem portNow_read_zero (s : State) (a v : Nat) (hready : s.life.ready = false) (ha : earlyRange a = false) :
    portNow s false a v = { s with ctl := { s.ctl with answers := s.ctl.answers ++ [0] } } := by
  simp [portNow, hready, ha]

/-- A read of a 32-bit register gives its value and changes nothing; the slot window (18 R559), the table data (18 R560) and the
words of a core's window (18 R564) are the registers whose reads do more. -/
theorem ctrlRead_reg32 (s : State) (a : Nat) (halign : a % 4 = 0) (hlow : isLow s a = false) (hhigh : isHigh s a = false)
    (hslot : a ≠ 0x8040) (htbl : a ≠ 0xB00C) (hcore : ¬ (0x100000 ≤ a ∧ a % 4096 = 0xC)) :
    ctrlRead s a = (reg32 s a, s) := by
  have h64 : reg64 s a = none := by simpa [isLow] using hlow
  simp [ctrlRead, halign, hslot, htbl, hcore, h64, hhigh]

/-- No 32-bit register in the two ranges changes the state by a read. -/
theorem ctrlRead_reg32_early (s : State) (a : Nat) (ha : earlyRange a = true) (halign : a % 4 = 0) (hlow : isLow s a = false)
    (hhigh : isHigh s a = false) : ctrlRead s a = (reg32 s a, s) := by
  rw [earlyRange_iff] at ha
  exact ctrlRead_reg32 s a halign hlow hhigh (by omega) (by omega) (by omega)

/-- Settles O13: before READY no access waits for a wake, so each meets the range check at once; within the two ranges it is the
access of `ctrlWrite` or `ctrlRead`, outside them it is ignored or answers 0. -/
theorem onlyTwoRangesAnswerBeforeReady : Obligations.OnlyTwoRangesAnswerBeforeReady := by
  intro a v s hrst hready
  simp only [exec_regWrite, exec_controlPortRead, portAccess_beforeReady s _ _ _ hrst hready, ← earlyRange_iff]
  constructor
  · intro hearly
    rw [portNow_write s _ _ (.inr hearly), portNow_read s _ _ (.inr hearly)]
    refine ⟨rfl, ⟨_, rfl, rfl, rfl⟩, fun halign hlow hhigh => ?_⟩
    rw [ctrlRead_reg32_early s _ hearly halign hlow hhigh]
  · intro hlate
    have hout : earlyRange a.toNat = false := by simpa using hlate
    rw [portNow_write_ignored s _ _ hready hout, portNow_read_zero s _ _ hready hout]
    exact ⟨rfl, rfl⟩

end Sys2Proof.Proofs
end

section
/-! What a fault does to the fault registers and the event lines (15 R504; 17 R540, R541), and what a violation does to its log
(13 R441). -/
namespace Sys2Proof.Proofs
open Sys2Proof Sys2Proof.Machine Sys2Proof.Laws

/-! ### A fault -/

/-- A fault of this class, code and core makes no record: its class is one of 2 to 7 and a like record is younger than 1,000 LT
(17 R541). -/
def LikeFault (s : State) (cls code core : Nat) : Prop :=
  2 ≤ cls ∧ cls ≤ 7 ∧ ∃ r ∈ s.flt.recent, r.1 = cls ∧ r.2.1 = code ∧ r.2.2.1 = core ∧ s.life.lt < r.2.2.2 + 1000

/-- The fault registers with a fault of the class counted and summarised, which every fault does (17 R541). -/
def countFault (f : FaultRegs) (cls : Nat) : FaultRegs :=
  { f with summary := f.summary ||| 2 ^ cls, count := f.count.put cls (add64 (f.count.get cls 0) 1) }

/-- The fault registers with a record at the ring's next place, which becomes the latest of its class, code and core
(17 R540). -/
def recordFault (f : FaultRegs) (r : FaultRec) : FaultRegs :=
  { f with
    recs := f.recs.put f.next r
    next := (f.next + 1) % 16
    wrapped := f.wrapped || f.next == 15
    lost := if f.wrapped then min (f.lost + 1) 0xFFFF else f.lost
    recent := (r.cls, r.code, r.core, r.lt) ::
      f.recent.filter fun x => !(x.1 == r.cls && x.2.1 == r.code && x.2.2.1 == r.core) }

/-- The pulses of a record: `FAULT`, and `DEADLINE` too for a record of class 1 (17 R541). -/
def faultPulses (s : State) (cls : Nat) : State :=
  if cls = 1 then pulse (pulse s 0x0C) 0x07 else pulse s 0x0C

@[simp] theorem faultPulses_flt (s : State) (cls : Nat) : (faultPulses s cls).flt = s.flt := by
  unfold faultPulses
  split <;> rfl

@[simp] theorem faultPulses_t1 (s : State) (cls : Nat) : (faultPulses s cls).t1 = s.t1 := by
  unfold faultPulses
  split <;> rfl

@[simp] theorem faultPulses_mon (s : State) (cls : Nat) : (faultPulses s cls).mon = s.mon := by
  unfold faultPulses
  split <;> rfl

/-- The event lines after the pulses do not depend on the fault registers. -/
theorem faultPulses_evt (s : State) (f : FaultRegs) (cls : Nat) :
    (faultPulses { s with flt := f } cls).evt = if cls = 1 then (pulse (pulse s 0x0C) 0x07).evt else (pulse s 0x0C).evt := by
  unfold faultPulses
  split <;> rfl

@[simp] theorem trace_flt (s : State) (code cls core q n op arg : Nat) : (trace s code cls core q n op arg).flt = s.flt := by
  rw [trace_eq]

@[simp] theorem trace_evt (s : State) (code cls core q n op arg : Nat) : (trace s code cls core q n op arg).evt = s.evt := by
  rw [trace_eq]

section
variable {s : State} {cls code core : Nat} (inj : Bool) (cmd detail aux : Nat)

/-- A fault with a young like record is counted as suppressed and does nothing else. -/
theorem fault_of_like (h : LikeFault s cls code core) :
    fault s cls code core inj cmd detail aux =
      { s with flt := { countFault s.flt cls with suppressed := add64 s.flt.suppressed 1 } } := by
  obtain ⟨hlow, hhigh, r, hr⟩ := h
  refine if_pos ?_
  simp only [Bool.and_eq_true, decide_eq_true_eq, List.any_eq_true, beq_iff_eq, and_assoc]
  exact ⟨hlow, hhigh, r, hr⟩

/-- Any other fault is recorded, pulses its sources and is traced. -/
theorem fault_of_not_like (h : ¬ LikeFault s cls code core) :
    fault s cls code core inj cmd detail aux =
      trace (faultPulses { s with
          flt := recordFault (countFault s.flt cls) ⟨cls, code, core, inj, cmd, s.life.lt, detail % 2 ^ 32, aux % 2 ^ 32⟩ } cls)
        0x08 4 core (fld cmd 16 6) (fld cmd 0 16) (fld cmd 24 6) (cls + code <<< 8) := by
  refine (if_neg ?_).trans ?_
  · simpa only [LikeFault, Bool.and_eq_true, decide_eq_true_eq, List.any_eq_true, beq_iff_eq, and_assoc] using h
  · simp only [beq_iff_eq]
    rfl

/-- The fault registers after a fault that makes a record. -/
theorem fault_flt_of_not_like (h : ¬ LikeFault s cls code core) :
    (fault s cls code core inj cmd detail aux).flt =
      recordFault (countFault s.flt cls) ⟨cls, code, core, inj, cmd, s.life.lt, detail % 2 ^ 32, aux % 2 ^ 32⟩ := by
  simp [fault_of_not_like inj cmd detail aux h]

/-- The event lines after a fault that makes a record. -/
theorem fault_evt_of_not_like (h : ¬ LikeFault s cls code core) :
    (fault s cls code core inj cmd detail aux).evt =
      if cls = 1 then (pulse (pulse s 0x0C) 0x07).evt else (pulse s 0x0C).evt := by
  rw [fault_of_not_like inj cmd detail aux h, trace_evt, faultPulses_evt]

end

/-- Recorded or suppressed, a fault is counted and summarised as `countFault` says, and the violation log stays. -/
theorem fault_counts (s : State) (cls code core : Nat) (inj : Bool) (cmd detail aux : Nat) :
    (fault s cls code core inj cmd detail aux).flt.count = (countFault s.flt cls).count ∧
      (fault s cls code core inj cmd detail aux).flt.summary = (countFault s.flt cls).summary ∧
      (fault s cls code core inj cmd detail aux).flt.vlog = s.flt.vlog := by
  by_cases h : LikeFault s cls code core
  · rw [fault_of_like inj cmd detail aux h]
    exact ⟨rfl, rfl, rfl⟩
  · rw [fault_flt_of_not_like inj cmd detail aux h]
    exact ⟨rfl, rfl, rfl⟩

/-- With capture off a fault leaves T1 and the monitor. -/
theorem fault_traceOff (s : State) (cls code core : Nat) (inj : Bool) (cmd detail aux : Nat) (hoff : s.mon.trOn = false) :
    (fault s cls code core inj cmd detail aux).t1 = s.t1 ∧ (fault s cls code core inj cmd detail aux).mon = s.mon := by
  by_cases h : LikeFault s cls code core
  · rw [fault_of_like inj cmd detail aux h]
    exact ⟨rfl, rfl⟩
  · rw [fault_of_not_like inj cmd detail aux h, trace_off _ _ _ _ _ _ _ _ (by simpa using hoff)]
    simp

/-! ### A violation -/

/-- The fault registers with an entry at the violation log's next place (13 R441). -/
def logViolation (f : FaultRegs) (r : VlogRec) : FaultRegs :=
  { f with
    vlog := f.vlog.put f.vnext r
    vnext := (f.vnext + 1) % 64
    vwrapped := f.vwrapped || f.vnext == 63
    vlost := if f.vwrapped then min (f.vlost + 1) 0xFFFF else f.vlost }

/-- A violation is logged, pulses its source and is traced. -/
theorem viol_eq_trace (s : State) (cmd cause detail aux : Nat) :
    viol s cmd cause detail aux =
      trace (pulse { s with
          flt := logViolation s.flt ⟨cmd, cause + (detail % 2 ^ 24) <<< 8, aux % 2 ^ 32, s.life.lt % 2 ^ 32⟩ } 0x0D)
        0x09 4 0xFF (fld cmd 16 6) (fld cmd 0 16) (fld cmd 24 6) cause := rfl

/-- The fault registers after a violation. -/
theorem viol_flt (s : State) (cmd cause detail aux : Nat) :
    (viol s cmd cause detail aux).flt =
      logViolation s.flt ⟨cmd, cause + (detail % 2 ^ 24) <<< 8, aux % 2 ^ 32, s.life.lt % 2 ^ 32⟩ := by
  simp [viol_eq_trace]

/-- With capture off a violation leaves T1 and the monitor. -/
theorem viol_traceOff (s : State) (cmd cause detail aux : Nat) (hoff : s.mon.trOn = false) :
    (viol s cmd cause detail aux).t1 = s.t1 ∧ (viol s cmd cause detail aux).mon = s.mon := by
  rw [viol_eq_trace, trace_off _ _ _ _ _ _ _ _ (by simpa using hoff)]
  exact ⟨rfl, rfl⟩

/-- Settles O7: every fault is counted and summarised, and whether it makes a record or counts as suppressed turns on
`LikeFault` alone; a violation only logs its entry beside the event lines and the trace. -/
theorem faultsAndViolationsAreRecorded : Obligations.FaultsAndViolationsAreRecorded := by
  constructor
  · intro s cls code core cmd detail aux inj
    obtain ⟨hcount, hsummary, hvlog⟩ := fault_counts s cls code core inj cmd detail aux
    refine ⟨?_, hsummary, fun k hk => ?_, hvlog, fault_eq .., fault_traceOff s cls code core inj cmd detail aux, fun hfresh => ?_, fun hlike => ?_⟩
    · rw [hcount]
      exact get_put_self ..
    · rw [hcount]
      exact get_put_ne _ _ _ _ _ hk
    · rw [fault_flt_of_not_like inj cmd detail aux hfresh]
      exact ⟨find_put_self .., List.mem_cons_self, rfl, rfl, fault_evt_of_not_like inj cmd detail aux hfresh⟩
    · rw [fault_of_like inj cmd detail aux hlike]
      exact ⟨rfl, rfl, rfl, rfl, rfl⟩
  · intro s cmd cause detail aux
    refine ⟨?_, ?_, fun i hi => ?_, ?_, ?_, ?_, viol_eq .., viol_traceOff s cmd cause detail aux⟩ <;> rw [viol_flt]
    · exact find_put_self ..
    · rfl
    · exact find_put_ne _ _ _ _ hi
    all_goals rfl

end Sys2Proof.Proofs
end

section
-- One declaration is checked after the other: each further thread reserves a large stack of its own.
set_option Elab.async false
/-! What an operation within a command keeps: the fuses, the queue of waiting commands, the direction of time and the canonical form of
every memory (00 R15; logs 1, 3, 5). -/
namespace Sys2Proof.Proofs
open Sys2Proof Sys2Proof.Machine Sys2Proof.Laws Sys2Proof.Safety

/-- The banks of the tables are in canonical form. -/
abbrev TablesOk (b : Tables) : Prop := b.dqA.wf = true ∧ b.dqB.wf = true ∧ b.sfuA.wf = true ∧ b.sfuB.wf = true

/-- Of a command that began in `a`, what holds of the state `s` that it has reached. -/
structure Keeps (a s : State) : Prop where
  fuse : s.fuse = a.fuse
  pending : s.pending = a.pending
  time : a.life.lt < 2 ^ 64 → a.life.lt ≤ s.life.lt ∧ s.life.lt < 2 ^ 64
  memory : MemoryOk a → MemoryOk s

theorem Keeps.refl (a : State) : Keeps a a := ⟨rfl, rfl, fun h => ⟨Nat.le_refl _, h⟩, id⟩

theorem Keeps.trans {a b c : State} (h : Keeps a b) (k : Keeps b c) : Keeps a c :=
  ⟨k.fuse.trans h.fuse, k.pending.trans h.pending,
    fun ha => ⟨Nat.le_trans (h.time ha).1 (k.time (h.time ha).2).1, (k.time (h.time ha).2).2⟩, fun ha => k.memory (h.memory ha)⟩

variable {a s t : State}

/-- An update that leaves the fuses, the waiting commands and the time, and each memory in canonical form. -/
theorem Keeps.of (h : Keeps a s) (fuse : t.fuse = s.fuse := by rfl) (pending : t.pending = s.pending := by rfl)
    (time : t.life.lt = s.life.lt := by rfl) (t1 : s.t1.bytes.wf = true → t.t1.bytes.wf = true := by exact fun h => h)
    (t0 : s.t0.bytes.wf = true → t.t0.bytes.wf = true := by exact fun h => h)
    (shelf : s.shelf.bytes.wf = true → t.shelf.bytes.wf = true := by exact fun h => h)
    (tbl : TablesOk s.tbl → TablesOk t.tbl := by exact fun h => h) : Keeps a t :=
  h.trans ⟨fuse, pending, fun ha => ⟨time ▸ Nat.le_refl _, time ▸ ha⟩,
    fun ⟨h1, h0, hs, hA, hB, hC, hD⟩ => ⟨t1 h1, t0 h0, shelf hs, tbl ⟨hA, hB, hC, hD⟩⟩⟩

/-- An update of other parts of the state. -/
theorem Keeps.frame {flg flt evt qs jobs takeNo turns cores ring slots pg tier str sync cas inp pwr boot mon tap ctl sent fresh} (h : Keeps a s) :
    Keeps a ⟨s.life, flg, flt, evt, qs, jobs, takeNo, turns, cores, s.t0, s.t1, s.shelf, s.tbl, ring, slots, pg, tier, str, sync, cas, inp, pwr,
      s.fuse, boot, mon, tap, ctl, sent, fresh, s.pending⟩ := h.of

theorem keeps_ite {c : Prop} [Decidable c] (hs : Keeps a s) (ht : Keeps a t) : Keeps a (if c then s else t) := by
  split
  · exact hs
  · exact ht

/-- The state of a pair that an operation answers. -/
theorem keeps_snd {α : Type} {p : α × State} {x : α} (h : Keeps a p.2) (e : p = (x, t)) : Keeps a t := by
  rw [e] at h
  exact h

/-- The state of a pair that an operation answers first. -/
theorem keeps_fst {α : Type} {p : State × α} {x : α} (h : Keeps a p.1) (e : p = (t, x)) : Keeps a t := by
  rw [e] at h
  exact h

/-- A fold of an operation that keeps them. -/
theorem keeps_foldl {β : Type} {f : State → β → State} {l : List β} (hf : ∀ s x, Keeps a s → Keeps a (f s x)) (h : Keeps a s) :
    Keeps a (l.foldl f s) := by
  induction l generalizing s with
  | nil => exact h
  | cons x l ih => exact ih (hf s x h)

/-- A fold that carries a value beside the state. -/
theorem keeps_foldl_snd {α β : Type} {f : α × State → β → α × State} {l : List β} {p : α × State}
    (hf : ∀ p x, Keeps a p.2 → Keeps a (f p x).2) (h : Keeps a p.2) : Keeps a (l.foldl f p).2 := by
  induction l generalizing p with
  | nil => exact h
  | cons x l ih => exact ih (hf p x h)

theorem Keeps.withJob {q n : Nat} {f : State → Job → State} (h : Keeps a s) (hf : ∀ s j, Keeps a s → Keeps a (f s j)) :
    Keeps a (s.withJob q n f) := by
  unfold State.withJob
  split
  · exact h
  · exact hf _ _ h

/-- A fold of an operation that may fail. -/
theorem keeps_foldl_bind {β : Type} {f : State → β → Option State} {l : List β}
    (hf : ∀ s x t, Keeps a s → f s x = some t → Keeps a t) (h : Keeps a s)
    (e : l.foldl (fun (o : Option State) x => o.bind fun s => f s x) (some s) = some t) : Keeps a t := by
  induction l generalizing s with
  | nil =>
    cases e
    exact h
  | cons x l ih =>
    rw [List.foldl_cons, Option.bind_some] at e
    cases hx : f s x with
    | none =>
      rw [hx] at e
      have hnone : ∀ l : List β, l.foldl (fun (o : Option State) x => o.bind fun s => f s x) none = none := fun l => by
        induction l with
        | nil => rfl
        | cons y l ih => exact ih
      rw [hnone] at e
      cases e
    | some u =>
      rw [hx] at e
      exact ih (hf s x u h hx) e

/-- An act on pages that answers only its state. -/
theorem keeps_act {g : State → Option State} (hg : ∀ s t, Keeps a s → g s = some t → Keeps a t) :
    ∀ s (r : State × Unit), Keeps a s → (g s).map (fun s => (s, ())) = some r → Keeps a r.1 := by
  intro s r h e
  obtain ⟨u, hu, rfl⟩ := Option.map_eq_some_iff.1 e
  exact hg s u h hu

/-- Cells left out keep the canonical form. -/
theorem filter_wf {m : Memory} {p : Host.Cell → Bool} (h : m.wf = true) : Memory.wf (m.filter p) = true := by
  rw [wf_iff] at h ⊢
  exact ⟨fun c hc => h.1 c (List.mem_filter.1 hc).1, h.2.filter _⟩

theorem bankOf_ok {b : Tables} {sfu bank : Bool} (h : TablesOk b) : (bankOf b sfu bank).wf = true := by
  obtain ⟨hA, hB, hC, hD⟩ := h
  cases sfu <;> cases bank <;> assumption

theorem putBank_ok {b : Tables} {sfu bank : Bool} {m : Memory} (hm : m.wf = true) (h : TablesOk b) : TablesOk (putBank b sfu bank m) := by
  obtain ⟨hA, hB, hC, hD⟩ := h
  cases sfu <;> cases bank
  · exact ⟨hm, hB, hC, hD⟩
  · exact ⟨hA, hm, hC, hD⟩
  · exact ⟨hA, hB, hm, hD⟩
  · exact ⟨hA, hB, hC, hm⟩

theorem setCore_keeps {c : Nat} {k : Core} (h : Keeps a s) : Keeps a (State.setCore s c k) := by
  unfold State.setCore
  exact h.frame

theorem placeItem_keeps {c : Nat} {it : Item} (h : Keeps a s) : Keeps a (placeItem s c it) := by
  unfold placeItem
  dsimp only
  exact setCore_keeps h

theorem setQueue_keeps {q : Nat} {k : Queue} (h : Keeps a s) : Keeps a (State.setQueue s q k) := by
  unfold State.setQueue
  exact h.frame

theorem advance_keeps {lt : Dword} (h : Keeps a s) : Keeps a (advance s lt) := by
  refine h.trans ?_
  rw [advance_eq]
  exact ⟨rfl, rfl, advance_lt s lt, id⟩

theorem trace_keeps {code : Nat} {cls : Nat} {core : Nat} {q : Nat} {n : Nat} {op : Nat} {arg : Nat}
    (h : Keeps a s) : Keeps a (trace s code cls core q n op arg) := by
  unfold trace
  dsimp only
  exact keeps_ite (h.of (t1 := fun h => put_wf _ _ h)) h

theorem pulse_keeps {src : Nat} (h : Keeps a s) : Keeps a (pulse s src) := by
  unfold pulse
  dsimp only
  exact h.frame

theorem levelRise_keeps {src : Nat} (h : Keeps a s) : Keeps a (levelRise s src) := by
  unfold levelRise
  dsimp only
  exact h.frame

theorem viol_keeps {cmd : Nat} {cause : Nat} {detail : Nat} {aux : Nat} (h : Keeps a s) : Keeps a (viol s cmd cause detail aux) := by
  unfold viol
  dsimp only
  exact trace_keeps (pulse_keeps h.frame)

theorem portViol_keeps {port : Nat} {code : Nat} {aux : Nat} (h : Keeps a s) : Keeps a (portViol s port code aux) := by
  unfold portViol
  dsimp only
  exact keeps_ite h (viol_keeps h.frame)

theorem fault_keeps {cls : Nat} {code : Nat} {core : Nat} {inj : Bool} {cmd : Nat} {detail : Nat} {aux : Nat}
    (h : Keeps a s) : Keeps a (fault s cls code core inj cmd detail aux) := by
  unfold fault
  dsimp only
  exact keeps_ite h.frame (trace_keeps (keeps_ite (pulse_keeps (pulse_keeps h.frame)) (pulse_keeps h.frame)))

theorem ueFault_keeps {c : Nat} {word : Nat} {aux : Nat} (h : Keeps a s) : Keeps a (ueFault s c word aux) := by
  unfold ueFault
  dsimp only
  exact fault_keeps (h.of (t0 := fun h => h))

theorem unitRead_keeps {c : Nat} {a' : Nat} {n : Nat} (h : Keeps a s) : Keeps a (unitRead s c a' n) := by
  unfold unitRead
  exact keeps_foldl (fun s1 x h1 => ueFault_keeps h1) h

theorem count_keeps {core : Nat} {slot : Nat} {d : Nat} (h : Keeps a s) : Keeps a (count s core slot d) := by
  unfold count
  dsimp only
  exact keeps_ite h h.frame

theorem bubbles_keeps {core : Nat} {n : Nat} (h : Keeps a s) : Keeps a (bubbles s core n) := by
  unfold bubbles
  dsimp only
  exact keeps_ite h (setCore_keeps h)

theorem report_keeps {cmd : Nat} {core : Nat} {r : Rep} (h : Keeps a s) : Keeps a (report s cmd core r) := by
  unfold report
  dsimp only
  exact keeps_ite
    (pulse_keeps
      (keeps_ite
        (pulse_keeps
          (keeps_ite
            (pulse_keeps (keeps_ite (pulse_keeps (keeps_ite (pulse_keeps h.frame) h.frame)) (keeps_ite (pulse_keeps h.frame) h.frame)))
            (keeps_ite (pulse_keeps (keeps_ite (pulse_keeps h.frame) h.frame)) (keeps_ite (pulse_keeps h.frame) h.frame))))
        (keeps_ite
          (pulse_keeps (keeps_ite (pulse_keeps (keeps_ite (pulse_keeps h.frame) h.frame)) (keeps_ite (pulse_keeps h.frame) h.frame)))
          (keeps_ite (pulse_keeps (keeps_ite (pulse_keeps h.frame) h.frame)) (keeps_ite (pulse_keeps h.frame) h.frame)))))
    (keeps_ite
      (pulse_keeps
        (keeps_ite
          (pulse_keeps (keeps_ite (pulse_keeps (keeps_ite (pulse_keeps h.frame) h.frame)) (keeps_ite (pulse_keeps h.frame) h.frame)))
          (keeps_ite (pulse_keeps (keeps_ite (pulse_keeps h.frame) h.frame)) (keeps_ite (pulse_keeps h.frame) h.frame))))
      (keeps_ite (pulse_keeps (keeps_ite (pulse_keeps (keeps_ite (pulse_keeps h.frame) h.frame)) (keeps_ite (pulse_keeps h.frame) h.frame)))
        (keeps_ite (pulse_keeps (keeps_ite (pulse_keeps h.frame) h.frame)) (keeps_ite (pulse_keeps h.frame) h.frame))))

theorem settleClaims_keeps {cmd : Nat} (h : Keeps a s) : Keeps a (settleClaims s cmd) := by
  unfold settleClaims
  dsimp only
  exact h.frame

theorem setJob_keeps {j : Job} (h : Keeps a s) : Keeps a (State.setJob s j) := by
  unfold State.setJob
  exact h.frame

theorem malform_keeps {j : Job} {cause : Nat} {detail : Nat} {aux : Nat} (h : Keeps a s) : Keeps a (malform s j cause detail aux) := by
  unfold malform
  dsimp only
  exact setJob_keeps (keeps_ite h (viol_keeps h))

theorem reject_keeps {j : Job} {cause : Nat} {detail : Nat} {aux : Nat} (h : Keeps a s) : Keeps a (reject s j cause detail aux) := by
  unfold reject
  exact malform_keeps h

theorem freeNat_keeps (h : Keeps a s) : Keeps a (freeNat s).2 := by
  unfold freeNat
  dsimp only
  exact h.frame

theorem sendMsg_keeps {dry : Nat} {m : Msg} (h : Keeps a s) : Keeps a (sendMsg s dry m) := by
  unfold sendMsg
  dsimp only
  exact keeps_ite h.frame h.frame

theorem pumpLink_keeps (h : Keeps a s) : Keeps a (pumpLink s) := by
  unfold pumpLink
  dsimp only
  exact h.frame

theorem sendTag_keeps {key : Nat} (h : Keeps a s) : Keeps a (sendTag s key) := by
  unfold sendTag
  dsimp only
  split
  · exact h
  · refine keeps_ite h ?_
    split
    · refine keeps_ite h ?_
      split
      · exact h.of (t1 := fun h => store_wf _ _ _ h)
      · exact h.frame
    · refine keeps_ite h ?_
      split
      · exact h.of (shelf := fun h => store_wf _ _ _ h)
      · exact h.frame
    · exact sendMsg_keeps h.frame

theorem pumpTags_keeps (h : Keeps a s) : Keeps a (pumpTags s) := by
  unfold pumpTags
  exact keeps_foldl (fun s1 x h1 => sendTag_keeps h1) h

theorem takeTag_keeps {core : Nat} {t' : Tag} (h : Keeps a s) (e : takeTag s core t' = some t) : Keeps a t := by
  unfold takeTag at e
  dsimp only at e
  split at e
  · cases e
  · cases e
    exact sendTag_keeps h.frame

theorem loseWrite_keeps {core : Nat} {tag : Nat} {t' : Tag} (h : Keeps a s) : Keeps a (loseWrite s core tag t') := by
  unfold loseWrite
  dsimp only
  refine keeps_ite ?_ ?_
  · split
    · split
      · exact (freeNat_keeps (Keeps.withJob (viol_keeps h) (fun s1 j h1 => setJob_keeps h1))).of (t1 := fun h => write_wf _ _ h)
      · exact (freeNat_keeps (viol_keeps h)).of (t1 := fun h => write_wf _ _ h)
    · split
      · exact (freeNat_keeps (Keeps.withJob (viol_keeps h) (fun s1 j h1 => setJob_keeps h1))).of (shelf := fun h => write_wf _ _ h)
      · exact (freeNat_keeps (viol_keeps h)).of (shelf := fun h => write_wf _ _ h)
    · split
      · exact Keeps.withJob (viol_keeps h) (fun s1 j h1 => setJob_keeps h1)
      · exact viol_keeps h
  · split
    · exact Keeps.withJob (viol_keeps h) (fun s1 j h1 => setJob_keeps h1)
    · exact viol_keeps h

theorem spoilFall_keeps {d : Nat} (h : Keeps a s) : Keeps a (spoilFall s d) := by
  unfold spoilFall
  dsimp only
  exact h.frame

theorem fallEnds_keeps {u : TagFor} {lost : Bool} (h : Keeps a s) : Keeps a (fallEnds s u lost) := by
  unfold fallEnds
  dsimp only
  split
  · split
    · exact (spoilFall_keeps h).frame
    · exact h.frame
  · exact h

theorem issueOne_keeps {j : Job} (h : Keeps a s) (e : issueOne s j = some t) : Keeps a t := by
  unfold issueOne at e
  dsimp only at e
  split at e
  · cases e
  · split at e
    · exact takeTag_keeps (setJob_keeps h) e
    · exact takeTag_keeps (setJob_keeps h) e
    · cases e
      exact loseWrite_keeps (setJob_keeps h)

theorem issueWrites_keeps {k q n : Nat} (h : Keeps a s) : Keeps a (issueWrites k s q n) := by
  induction k generalizing s with
  | zero => exact h
  | succ k ih =>
    unfold issueWrites
    split
    · exact h
    · split
      · exact h
      · rename_i e
        exact ih (issueOne_keeps h e)

theorem landPut_keeps {core : Nat} {stage : Bool} {k : Nat} (h : Keeps a s) : Keeps a (landPut s core stage k) := by
  unfold landPut
  dsimp only
  exact h.frame

theorem landBytes_keeps {core : Nat} {stage : Bool} {a' : Nat} {d : List Byte} {bad : Bool}
    (h : Keeps a s) : Keeps a (landBytes s core stage a' d bad) := by
  unfold landBytes
  dsimp only
  exact landPut_keeps (h.of (t0 := fun h => t0Store_wf _ _ _ h))

theorem landUnit_keeps {core : Nat} {t' : Tag} {u : Nat × Bool × List Byte} (h : Keeps a s) : Keeps a (landUnit core t' s u) := by
  unfold landUnit
  dsimp only
  split
  · exact Keeps.withJob (landBytes_keeps (keeps_ite (count_keeps h) h)) (fun s1 j h1 => setJob_keeps h1)
  · split
    · exact (count_keeps h).frame
    · exact h.frame
  · exact count_keeps h
  · exact h

theorem askPieces_keeps {j : Job} {l : List Piece} (h : Keeps a s) : Keeps a (askPieces s j l).1 := by
  induction l generalizing s with
  | nil => exact h
  | cons p ps ih =>
    unfold askPieces
    dsimp only
    split
    · split
      · exact h
      · rename_i e
        exact ih (takeTag_keeps h e)
    · split
      · exact h
      · rename_i e
        exact ih (takeTag_keeps h e)
    · exact ih (keeps_foldl (fun _ _ h => landUnit_keeps h) h)

theorem issueReads_keeps {q : Nat} {n : Nat} (h : Keeps a s) : Keeps a (issueReads s q n) := by
  unfold issueReads
  dsimp only
  refine Keeps.withJob h (fun s1 j h1 => ?_)
  split
  · exact Keeps.withJob (askPieces_keeps h1) (fun s11 j1 h11 => setJob_keeps h11)
  · exact h1

theorem issueTags_keeps {core : Nat} {l : List Tag} (h : Keeps a s) : Keeps a (issueTags core l s).2 := by
  induction l generalizing s with
  | nil => exact h
  | cons t l ih =>
    unfold issueTags
    split
    · exact h
    · rename_i e
      exact ih (takeTag_keeps h e)

theorem issueFall_keeps {d : Nat} (h : Keeps a s) : Keeps a (issueFall s d) := by
  unfold issueFall
  dsimp only
  split
  · exact h
  · exact (issueTags_keeps h).frame

theorem issueRise_keeps {d : Nat} (h : Keeps a s) : Keeps a (issueRise s d) := by
  unfold issueRise
  dsimp only
  split
  · exact h
  · exact (issueTags_keeps h).frame

theorem issueJob_keeps {q n k : Nat} (h : Keeps a s) : Keeps a (issueJob s q n k) := issueReads_keeps (issueWrites_keeps h)

theorem pumpWrites_keeps (h : Keeps a s) : Keeps a (pumpWrites s) := by
  unfold pumpWrites
  refine keeps_foldl (fun s1 x h1 => ?_) h
  split
  · exact issueJob_keeps h1
  · exact issueFall_keeps h1
  · exact issueRise_keeps h1

theorem dropTag_keeps {key : Nat} (h : Keeps a s) : Keeps a (dropTag s key) := by
  unfold dropTag
  dsimp only
  exact pumpWrites_keeps h.frame

theorem sinkTags_keeps {p : TagFor → Bool} (h : Keeps a s) : Keeps a (sinkTags s p) := by
  unfold sinkTags
  dsimp only
  exact pumpWrites_keeps h.frame

theorem endRead_keeps {key : Nat} {t' : Tag} {units : List (Nat × Bool × List Byte)}
    (h : Keeps a s) : Keeps a (endRead s key t' units) := by
  unfold endRead
  dsimp only
  refine dropTag_keeps ?_
  split
  · exact (keeps_foldl (fun s1 x2 h1 => landUnit_keeps h1) h).frame
  · exact keeps_foldl (fun s1 x1 h1 => landUnit_keeps h1) h

theorem fireInj_keeps {kind : Nat} {p : Inject → Bool} (h : Keeps a s) : Keeps a (fireInj s kind p).2 := by
  unfold fireInj
  dsimp only
  split
  · exact h
  · exact h.frame

theorem readUnit_keeps {port : Nat} {ok : Tag → Bool} {id : Nat} {unit : Nat} {last : Bool} {err : Bool} {poison : Bool} {data : List Byte}
    (h : Keeps a s) : Keeps a (readUnit s port ok id unit last err poison data) := by
  unfold readUnit
  dsimp only
  refine keeps_ite h (keeps_ite (portViol_keeps h) ?_)
  split
  · exact portViol_keeps h
  · exact keeps_ite (portViol_keeps h)
      (keeps_ite (portViol_keeps h)
        (keeps_ite h
          (keeps_ite ((fireInj_keeps h).frame)
            (keeps_ite (portViol_keeps h.frame) (keeps_ite (endRead_keeps (fireInj_keeps h)) ((fireInj_keeps h).frame))))))

theorem writeAck_keeps {port : Nat} {ok : Tag → Bool} {id : Nat} {err : Bool} (h : Keeps a s) : Keeps a (writeAck s port ok id err) := by
  unfold writeAck
  dsimp only
  refine keeps_ite h (keeps_ite (portViol_keeps h) ?_)
  split
  · exact portViol_keeps h
  · exact keeps_ite (portViol_keeps h) (keeps_ite (portViol_keeps h) (dropTag_keeps (fallEnds_keeps (keeps_ite (loseWrite_keeps h) h))))

theorem streamReadData_keeps {p : BitVec 2} {id : BitVec 19} {unit : BitVec 2} {last : Bool} {err : Bool} {poison : Bool} {data : List Byte}
    (h : Keeps a s) : Keeps a (streamReadData p id unit last err poison data s) := by
  unfold streamReadData
  exact readUnit_keeps h

theorem streamWriteAck_keeps {p : BitVec 2} {id : BitVec 19} {err : Bool} (h : Keeps a s) : Keeps a (streamWriteAck p id err s) := by
  unfold streamWriteAck
  exact writeAck_keeps h

theorem shelfReadData_keeps {id : BitVec 19} {unit : BitVec 2} {last : Bool} {err : Bool} {poison : Bool} {data : List Byte}
    (h : Keeps a s) : Keeps a (shelfReadData id unit last err poison data s) := by
  unfold shelfReadData
  exact readUnit_keeps h

theorem shelfWriteAck_keeps {id : BitVec 19} {err : Bool} (h : Keeps a s) : Keeps a (shelfWriteAck id err s) := by
  unfold shelfWriteAck
  exact writeAck_keeps h

theorem grantPort_keeps {p : Nat} {wdata : Bool} {k : Nat} (h : Keeps a s) : Keeps a (grantPort s p wdata k).1 := by
  unfold grantPort
  dsimp only
  split
  · exact h.frame
  · exact h.frame

theorem streamCreditGrant_keeps {p : BitVec 2} {wdata : Bool} {k : BitVec 8} (h : Keeps a s) : Keeps a (streamCreditGrant p wdata k s) := by
  unfold streamCreditGrant
  dsimp only
  exact keeps_ite h (pumpTags_keeps (keeps_ite (grantPort_keeps h) (portViol_keeps (grantPort_keeps h))))

theorem grantLink_keeps {shelf : Bool} {k : Nat} (h : Keeps a s) : Keeps a (grantLink s shelf k).1 := by
  unfold grantLink
  dsimp only
  split
  · exact h.frame
  · exact h.frame

theorem linkCreditGrant_keeps {shelf : Bool} {k : BitVec 8} (h : Keeps a s) : Keeps a (linkCreditGrant shelf k s) := by
  unfold linkCreditGrant
  dsimp only
  exact keeps_ite h (pumpTags_keeps (pumpLink_keeps (keeps_ite (grantLink_keeps h) (portViol_keeps (grantLink_keeps h)))))

theorem timeOut_keeps {key : Nat} {t' : Tag} (h : Keeps a s) : Keeps a (timeOut s key t') := by
  unfold timeOut
  dsimp only
  refine keeps_ite (dropTag_keeps (fallEnds_keeps (loseWrite_keeps h.frame))) ?_
  split
  · exact dropTag_keeps h.frame
  · exact endRead_keeps h.frame
  · exact endRead_keeps h.frame

theorem tagTimeout_keeps {core : BitVec 8} {tag : BitVec 9} {lt : Dword} (h : Keeps a s) : Keeps a (tagTimeout core tag lt s) := by
  unfold tagTimeout
  dsimp only
  split
  · exact advance_keeps h
  · exact keeps_ite (timeOut_keeps (advance_keeps h)) (advance_keeps h)

theorem wr_keeps {a' : Nat} {bs : List Byte} (h : Keeps a s) : Keeps a (State.wr s a' bs) := by
  unfold State.wr
  exact h.of (t1 := fun h => put_wf _ _ h)

theorem wrNum_keeps {a' : Nat} {n : Nat} {x : Nat} (h : Keeps a s) : Keeps a (State.wrNum s a' n x) := by
  unfold State.wrNum
  exact wr_keeps h

theorem popDesc_keeps {r0 : Nat} (h : Keeps a s) (e : popDesc s = some (r0, t)) : Keeps a t := by
  unfold popDesc at e
  dsimp only at e
  split at e
  · cases e
    exact h.frame
  · cases e
  · split at e
    · cases e
    · cases e
      exact h.frame

theorem popFrame_keeps {r0 : Nat} (h : Keeps a s) (e : popFrame s = some (r0, t)) : Keeps a t := by
  unfold popFrame at e
  dsimp only at e
  split at e
  · cases e
    exact h.frame
  · cases e
  · split at e
    · cases e
    · cases e
      exact h.frame

theorem popPool_keeps {r0 : Nat} (h : Keeps a s) (e : popPool s = some (r0, t)) : Keeps a t := by
  unfold popPool at e
  dsimp only at e
  split at e
  · cases e
  · cases e
    exact h.frame

theorem popPair_keeps {r0 : Nat} {r1 : Nat} (h : Keeps a s) (e : popPair s = some (r0, r1, t)) : Keeps a t := by
  unfold popPair at e
  split at e
  · cases e
  · rename_i e1
    obtain ⟨r, hr, e⟩ := Option.map_eq_some_iff.1 e
    cases e
    exact popDesc_keeps (popFrame_keeps h e1) hr

theorem popReserve_keeps {core : Nat} {r0 : Nat} (h : Keeps a s) (e : popReserve s core = some (r0, t)) : Keeps a t := by
  unfold popReserve at e
  dsimp only at e
  split at e
  · cases e
  · cases e
    exact h.frame

theorem pushDesc_keeps {d : Nat} (h : Keeps a s) : Keeps a (pushDesc s d) := by
  unfold pushDesc
  dsimp only
  exact (wrNum_keeps h).frame

theorem pushFrame_keeps {f : Nat} (h : Keeps a s) : Keeps a (pushFrame s f) := by
  unfold pushFrame
  dsimp only
  split
  · exact (wrNum_keeps h.frame).frame
  · exact (wrNum_keeps h.frame).frame

theorem popShelf_keeps {r0 : Nat} (h : Keeps a s) (e : popShelf s = some (r0, t)) : Keeps a t := by
  unfold popShelf at e
  dsimp only at e
  split at e
  · cases e
  · cases e
    exact h.frame

theorem pushShelf_keeps {x : Nat} (h : Keeps a s) : Keeps a (pushShelf s x) := by
  unfold pushShelf
  dsimp only
  exact (wrNum_keeps h).frame

theorem popNeap_keeps {r0 : Nat} (h : Keeps a s) (e : popNeap s = some (r0, t)) : Keeps a t := by
  unfold popNeap at e
  dsimp only at e
  split at e
  · cases e
  · cases e
    exact h.frame

theorem pushNeap_keeps {x : Nat} (h : Keeps a s) : Keeps a (pushNeap s x) := by
  unfold pushNeap
  dsimp only
  exact (wrNum_keeps h).frame

theorem putDesc_keeps {d : Nat} {x : Desc} (h : Keeps a s) : Keeps a (putDesc s d x) := by
  unfold putDesc
  exact wrNum_keeps h

theorem putSide_keeps {d : Nat} {x : Nat} (h : Keeps a s) : Keeps a (putSide s d x) := by
  unfold putSide
  exact keeps_ite (wrNum_keeps h) h

theorem allocPage_keeps {fam : Nat} {kind : Nat} {r0 : Nat} (h : Keeps a s) (e : allocPage s fam kind = some (r0, t)) : Keeps a t := by
  unfold allocPage at e
  dsimp only at e
  split at e
  · cases e
  · rename_i e1
    split at e
    · cases e
    · rename_i e11
      cases e
      exact putSide_keeps ((putDesc_keeps (popFrame_keeps (popDesc_keeps h e1) e11)).of (t1 := fun h => clear_wf _ _ h))

theorem putNodeCount_keeps {na : Nat} {n : Nat} (h : Keeps a s) : Keeps a (putNodeCount s na n) := by
  unfold putNodeCount
  exact wrNum_keeps h

theorem takeUnit_keeps {fam : Nat} {na : Nat} (h : Keeps a s) : Keeps a (takeUnit s fam na) := by
  unfold takeUnit
  dsimp only
  exact (wrNum_keeps h).of (t1 := fun h => clear_wf _ _ h)

theorem newNode_keeps {fam : Nat} {r0 : Nat} (h : Keeps a s) (e : newNode s fam = some (r0, t)) : Keeps a t := by
  unfold newNode at e
  dsimp only at e
  split at e
  · cases e
    exact takeUnit_keeps h
  · split at e
    · cases e
    · rename_i e11
      cases e
      exact takeUnit_keeps ((allocPage_keeps h e11).frame)

theorem putInterior_keeps {ea : Nat} {na : Nat} (h : Keeps a s) : Keeps a (putInterior s ea na) := by
  unfold putInterior
  exact wrNum_keeps h

theorem putLeaf_keeps {ea : Nat} {d : Nat} (h : Keeps a s) : Keeps a (putLeaf s ea d) := by
  unfold putLeaf
  exact wrNum_keeps h

theorem addCount_keeps {d : Nat} {k : Nat} (h : Keeps a s) : Keeps a (addCount s d k) := by
  unfold addCount
  dsimp only
  exact putDesc_keeps h

theorem ownNode_keeps {fam : Nat} {leaf : Bool} {na : Nat} {r0 : Nat}
    (h : Keeps a s) (e : ownNode s fam leaf na = some (r0, t)) : Keeps a t := by
  unfold ownNode at e
  dsimp only at e
  split at e
  · cases e
    exact h
  · split at e
    · cases e
    · rename_i x1 _ e11
      cases e
      refine keeps_foldl (fun s11 x1 h1 => keeps_ite ?_ ?_) (putNodeCount_keeps (wr_keeps (newNode_keeps h e11)))
      · split
        · exact addCount_keeps h1
        · exact h1
      · split
        · exact putNodeCount_keeps h1
        · exact h1

theorem ownChild_keeps {fam : Nat} {leaf : Bool} {ea : Nat} {r0 : Nat}
    (h : Keeps a s) (e : ownChild s fam leaf ea = some (r0, t)) : Keeps a t := by
  unfold ownChild at e
  split at e
  · split at e
    · cases e
    · rename_i e11
      cases e
      exact putInterior_keeps (newNode_keeps h e11)
  · split at e
    · cases e
    · rename_i e11
      cases e
      exact keeps_ite (ownNode_keeps h e11) (putInterior_keeps (ownNode_keeps h e11))

theorem ownPath_keeps {root : Nat} {fam : Nat} {vpn : Nat} {r0 : Nat} {r1 : Nat}
    (h : Keeps a s) (e : ownPath s root fam vpn = some (r0, r1, t)) : Keeps a t := by
  unfold ownPath at e
  split at e
  · cases e
  · rename_i e1
    split at e
    · cases e
    · rename_i e11
      split at e
      · cases e
      · rename_i e12
        cases e
        exact ownChild_keeps (ownChild_keeps (ownNode_keeps h e1) e11) e12

theorem ownPage_keeps {root : Nat} {fam : Nat} {vpn : Nat} {kind : Nat} {whole : Bool} {r0 : Nat} {r1 : Nat}
    (h : Keeps a s) (e : ownPage s root fam vpn kind whole = some (r0, r1, t)) : Keeps a t := by
  unfold ownPage at e
  dsimp only at e
  split at e
  · cases e
  · rename_i e1
    split at e
    · split at e
      · cases e
      · rename_i e12
        cases e
        exact putLeaf_keeps (allocPage_keeps (ownPath_keeps h e1) e12)
    · split at e
      · cases e
        exact ownPath_keeps h e1
      · split at e
        · cases e
        · rename_i e13
          cases e
          exact putLeaf_keeps
            (putDesc_keeps
              (keeps_ite (allocPage_keeps (ownPath_keeps h e1) e13)
                (putSide_keeps ((putDesc_keeps (allocPage_keeps (ownPath_keeps h e1) e13)).of (t1 := fun h => store_wf _ _ _ h)))))

theorem dropShelf_keeps {d : Nat} {x : Desc} (h : Keeps a s) : Keeps a (dropShelf s d x) := by
  unfold dropShelf
  dsimp only
  exact keeps_ite (putSide_keeps (pushNeap_keeps (pushShelf_keeps h))) (pushShelf_keeps h)

theorem dropFall_keeps {d : Nat} (h : Keeps a s) : Keeps a (dropFall s d) := by
  unfold dropFall
  dsimp only
  exact h.frame

theorem stopFall_keeps {d : Nat} (h : Keeps a s) : Keeps a (stopFall s d) := by
  unfold stopFall
  dsimp only
  split
  · exact h
  · refine sinkTags_keeps (dropFall_keeps ?_)
    split
    · exact pushNeap_keeps (pushShelf_keeps h)
    · exact pushShelf_keeps h

theorem freePage_keeps {d : Nat} (h : Keeps a s) : Keeps a (freePage s d) := by
  unfold freePage
  dsimp only
  refine pushDesc_keeps (putDesc_keeps ?_)
  split
  · exact (pushFrame_keeps h).frame
  · exact (dropShelf_keeps h).frame
  · exact (sinkTags_keeps ((dropShelf_keeps (pushFrame_keeps h)).frame)).frame
  · split
    · exact (dropShelf_keeps (pushFrame_keeps (dropFall_keeps h))).frame
    · exact (pushFrame_keeps (stopFall_keeps h)).frame
  · exact h.frame

theorem releasePage_keeps {d : Nat} (h : Keeps a s) : Keeps a (releasePage s d).2 := by
  unfold releasePage
  dsimp only
  split
  · exact putDesc_keeps h
  · exact freePage_keeps h

theorem freeNode_keeps {na : Nat} (h : Keeps a s) : Keeps a (freeNode s na) := by
  unfold freeNode
  dsimp only
  refine keeps_ite (wrNum_keeps h) ?_
  split
  · exact wrNum_keeps h
  · exact pushDesc_keeps (putDesc_keeps (pushFrame_keeps ((wrNum_keeps h).frame)))

theorem releaseNode_keeps {sub : State → Nat → Nat × State} {na : Nat} (h : Keeps a s) (hsub : ∀ s x, Keeps a s → Keeps a (sub s x).2) :
    Keeps a (releaseNode sub s na).2 := by
  unfold releaseNode
  dsimp only
  split
  · exact putNodeCount_keeps h
  · exact freeNode_keeps (keeps_foldl_snd (fun _ _ h => hsub _ _ h) h)

theorem releaseLeafEntry_keeps {fam : Nat} {ea : Nat} (h : Keeps a s) : Keeps a (releaseLeafEntry fam s ea).2 := by
  unfold releaseLeafEntry
  split
  · exact h
  · exact releasePage_keeps h

theorem releaseL2Entry_keeps {fam : Nat} {ea : Nat} (h : Keeps a s) : Keeps a (releaseL2Entry fam s ea).2 := by
  unfold releaseL2Entry
  split
  · exact h
  · exact releaseNode_keeps h (fun s1 x2 h1 => releaseLeafEntry_keeps h1)

theorem releaseRootEntry_keeps {fam : Nat} {ea : Nat} (h : Keeps a s) : Keeps a (releaseRootEntry fam s ea).2 := by
  unfold releaseRootEntry
  split
  · exact h
  · exact releaseNode_keeps h (fun s1 x2 h1 => releaseL2Entry_keeps h1)

theorem releaseRoot_keeps {root : Nat} (h : Keeps a s) : Keeps a (releaseRoot s root).2 := by
  unfold releaseRoot
  exact releaseNode_keeps h (fun s1 x h1 => releaseRootEntry_keeps h1)

theorem putSeq_keeps {sid : Nat} {x : Slot} (h : Keeps a s) : Keeps a (putSeq s sid x) := by
  unfold putSeq
  dsimp only
  split
  · exact h.frame
  · exact wr_keeps h

theorem startRise_keeps {d : Nat} {core : Nat} {cls : Nat} {job : Option (Nat × Nat)}
    (h : Keeps a s) (e : startRise s d core cls job = some t) : Keeps a t := by
  unfold startRise at e
  dsimp only at e
  split at e
  · cases e
  · rename_i e1
    cases e
    exact issueRise_keeps ((putDesc_keeps (popPool_keeps h e1)).frame)

theorem noteDry_keeps {job : Option (Nat × Nat)} {b : Bool} (h : Keeps a s) : Keeps a (noteDry s job b) := by
  unfold noteDry
  split
  · exact h
  · exact Keeps.withJob h (fun s1 j h1 => setJob_keeps h1)

theorem touchPage_keeps {core : Nat} {job : Option (Nat × Nat)} {d : Nat} (h : Keeps a s) : Keeps a (touchPage s core job d).2 := by
  unfold touchPage
  dsimp only
  split
  · exact keeps_ite h (putDesc_keeps h)
  · split
    · exact keeps_ite (noteDry_keeps h) h
    · rename_i e11
      exact noteDry_keeps (startRise_keeps h e11)
  · split
    · exact h
    · exact putDesc_keeps (stopFall_keeps h)
  · exact h

theorem touchVpn_keeps {core : Nat} {job : Option (Nat × Nat)} {root vpn : Nat} {p : Bool × State} (h : Keeps a p.2) :
    Keeps a (touchVpn core job root p vpn).2 := by
  unfold touchVpn
  split
  · exact h
  · exact touchPage_keeps h

theorem touchAll_keeps {core : Nat} {job : Option (Nat × Nat)} {l : List (Nat × Nat)} (h : Keeps a s) : Keeps a (touchAll s core job l).2 := by
  unfold touchAll
  refine keeps_foldl_snd (fun p x h1 => ?_) h
  split
  · exact h1
  · exact touchVpn_keeps h1

theorem logUnmapped_keeps {cmd : Nat} {l : List (Nat × Nat)} (h : Keeps a s) : Keeps a (logUnmapped s cmd l) := by
  unfold logUnmapped
  refine keeps_foldl (fun s1 x h1 => ?_) h
  split
  · exact h1
  · split
    · exact viol_keeps h1
    · exact h1

theorem noteWrite_keeps {d : Nat} {kv : Nat} {off : Nat} {n : Nat} (h : Keeps a s) : Keeps a (noteWrite s d kv off n) := by
  unfold noteWrite
  dsimp only
  exact keeps_ite (putDesc_keeps (putSide_keeps h)) (putDesc_keeps (putSide_keeps h.frame))

theorem writePage_keeps {sid : Nat} {vpn : Nat} {off : Nat} {kind : Nat} {kv : Nat} {data : List Byte} {poison : List Bool}
    (h : Keeps a s) (e : writePage s sid vpn off kind kv data poison = some t) : Keeps a t := by
  unfold writePage at e
  dsimp only at e
  split at e
  · cases e
    exact h
  · split at e
    · cases e
    · rename_i e11
      cases e
      refine noteWrite_keeps ?_
      split
      · exact (ownPage_keeps h e11).of (t1 := fun h => store_wf _ _ _ h)
      · exact (putSeq_keeps (ownPage_keeps h e11)).of (t1 := fun h => store_wf _ _ _ h)

theorem writeSpace_keeps {sid a' kind kv : Nat} {data : List Byte} {poison : List Bool} (h : Keeps a s)
    (e : writeSpace s sid a' kind kv data poison = some t) : Keeps a t :=
  keeps_foldl_bind (fun _ _ _ h e => writePage_keeps h e) h e

theorem noteCopy_keeps {x : Slot} {k : Bool} {off : Nat} {n : Nat} (h : Keeps a s) : Keeps a (noteCopy s x k off n) := by
  unfold noteCopy
  exact keeps_ite (unitRead_keeps h) h

theorem writeCopy_keeps {x : Slot} {k : Bool} {off : Nat} {data : List Byte} {poison : List Bool}
    (h : Keeps a s) (e : writeCopy s x k off data poison = some t) : Keeps a t := by
  unfold writeCopy at e
  split at e
  · cases e
    exact h.of (t0 := fun h => t0Store_wf _ _ _ h)
  · exact writeSpace_keeps h e

theorem noteState_keeps {x : Ctx} {ins : List Tensor} (h : Keeps a s) : Keeps a (noteState s x ins) := by
  unfold noteState
  refine keeps_foldl (fun s1 x1 h1 => keeps_ite ?_ h1) h
  split
  · exact noteCopy_keeps (noteCopy_keeps h1)
  · exact h1

theorem queueWr_keeps {q : Nat} {n : Nat} {l : List (Nat × Wr)} (h : Keeps a s) : Keeps a (queueWr s q n l) := by
  unfold queueWr
  exact Keeps.withJob h (fun s1 j h1 => setJob_keeps h1)

theorem storeNow_keeps {q : Nat} {n : Nat} {a' : Nat} {d : List Byte} {b : List Bool}
    (h : Keeps a s) : Keeps a (storeNow s q n a' d b) := by
  unfold storeNow
  exact Keeps.withJob (h.of (t1 := fun h => store_wf _ _ _ h)) (fun s1 j h1 => setJob_keeps h1)

theorem stageOut_keeps {core : Nat} {a' : Nat} {d : List Byte} {b : List Bool} (h : Keeps a s) : Keeps a (stageOut s core a' d b) := by
  unfold stageOut
  dsimp only
  exact keeps_foldl (fun s1 x h1 => landBytes_keeps h1) h

theorem pagePart_keeps {now : Bool} {q : Nat} {n : Nat} {core : Nat} {sid : Nat} {kv : Nat} {w : Wr} {p : Nat × Nat × Nat × Nat}
    (h : Keeps a s) (e : pagePart now q n core sid kv w s p = some t) : Keeps a t := by
  unfold pagePart at e
  dsimp only at e
  split at e
  · cases e
    exact h
  · split at e
    · cases e
    · rename_i e11
      cases e
      exact queueWr_keeps
        (keeps_ite
          (storeNow_keeps
            (keeps_ite (stageOut_keeps (noteWrite_keeps (keeps_ite (ownPage_keeps h e11) (putSeq_keeps (ownPage_keeps h e11)))))
              (noteWrite_keeps (keeps_ite (ownPage_keeps h e11) (putSeq_keeps (ownPage_keeps h e11))))))
          (noteWrite_keeps (keeps_ite (ownPage_keeps h e11) (putSeq_keeps (ownPage_keeps h e11)))))

theorem writeRun_keeps {now : Bool} {q n core kv : Nat} {w : Wr} (h : Keeps a s) (e : writeRun now q n core kv s w = some t) : Keeps a t := by
  unfold writeRun at e
  split at e
  · cases e
    exact h.of (t0 := t0Store_wf _ _ _)
  · exact keeps_foldl_bind (fun _ _ _ h e => pagePart_keeps h e) h e
  · split at e
    · split at e
      · cases e
        exact queueWr_keeps (storeNow_keeps h)
      · cases e
        exact queueWr_keeps h
    · cases e
      exact h.withJob fun _ _ h => setJob_keeps h

theorem withHold_keeps {α : Type} {act : State → Option (State × α)} {l : List Nat × List Nat} {r : State × α}
    (hact : ∀ s r, Keeps a s → act s = some r → Keeps a r.1) (h : Keeps a s) (e : withHold act l s = some r) : Keeps a r.1 := by
  unfold withHold at e
  obtain ⟨u, hu, rfl⟩ := Option.map_eq_some_iff.1 e
  exact keeps_foldl (fun _ _ h => pushDesc_keeps h) (keeps_foldl (fun _ _ h => pushFrame_keeps h) (hact _ u h.frame hu).frame)

/-- Both the act's own state, if it succeeds, and the state answered beside it. -/
theorem growHold_keeps {α : Type} {act : State → Option (State × α)} (hact : ∀ s r, Keeps a s → act s = some r → Keeps a r.1) {k : Nat}
    {l : List Nat × List Nat} (h : Keeps a s) :
    Keeps a (growHold act k s l).2.2 ∧ ∀ v, (growHold act k s l).1 = some v → Keeps a v.1 := by
  induction k generalizing s l with
  | zero =>
    unfold growHold
    split
    · rename_i r e
      have hr := withHold_keeps hact h e
      exact ⟨hr, fun v hv => by cases hv; exact hr⟩
    · exact ⟨h, fun v hv => nomatch hv⟩
  | succ k ih =>
    unfold growHold
    split
    · rename_i r e
      have hr := withHold_keeps hact h e
      exact ⟨hr, fun v hv => by cases hv; exact hr⟩
    · split
      · rename_i hk e
        cases hk
        exact ih (popPair_keeps h e)
      · exact ⟨h, fun v hv => nomatch hv⟩

theorem takePages_both {α : Type} {act : State → Option (State × α)} (hact : ∀ s r, Keeps a s → act s = some r → Keeps a r.1) {j : Job}
    (h : Keeps a s) : Keeps a (takePages s j act).2 ∧ ∀ v, (takePages s j act).1 = some v → Keeps a v.1 := by
  have hgrow := growHold_keeps hact (k := s.pg.free) (l := j.hold) h
  have hput : ∀ (hold : List Nat × List Nat) (dry : Bool) s, Keeps a s →
      Keeps a (s.withJob j.q j.n fun s j => s.setJob { j with hold := hold, dry := dry }) :=
    fun _ _ _ h => h.withJob fun _ _ h => setJob_keeps h
  unfold takePages
  dsimp only
  generalize hm : (if (!(j.hold.1.isEmpty && j.hold.2.isEmpty)) = true then none else act s) = m
  cases m with
  | some r =>
    have hr : Keeps a r.1 := by
      split at hm
      · cases hm
      · exact hact _ _ h hm
    exact ⟨hr, fun v hv => by cases hv; exact hr⟩
  | none =>
    cases hg : (growHold act s.pg.free s j.hold).1 with
    | none => exact ⟨hput _ _ _ hgrow.1, fun v hv => nomatch hv⟩
    | some v => exact ⟨hput _ _ _ (hgrow.2 v hg), fun w hw => by cases hw; exact hput _ _ _ (hgrow.2 v hg)⟩

theorem takePages_keeps {α : Type} {act : State → Option (State × α)} {j : Job} (h : Keeps a s)
    (hact : ∀ s r, Keeps a s → act s = some r → Keeps a r.1) : Keeps a (takePages s j act).2 :=
  (takePages_both hact h).1

/-- The state of an act that found its pages. -/
theorem takePages_found {α : Type} {act : State → Option (State × α)} {j : Job} {v : State × α} {o : State} (h : Keeps a s)
    (hact : ∀ s r, Keeps a s → act s = some r → Keeps a r.1) (e : takePages s j act = (some v, o)) : Keeps a v.1 :=
  (takePages_both hact h).2 v (by rw [e])

theorem dropHold_keeps {q : Nat} {n : Nat} (h : Keeps a s) : Keeps a (dropHold s q n) := by
  unfold dropHold
  dsimp only
  exact Keeps.withJob h
    (fun s1 j h1 =>
      Keeps.withJob (keeps_foldl (fun s11 x h11 => pushDesc_keeps h11) (keeps_foldl (fun s11 x h11 => pushFrame_keeps h11) h1))
        (fun s11 j1 h11 => setJob_keeps h11))

theorem writeRuns_keeps {now : Bool} {q n core kv : Nat} {l : List Wr} (h : Keeps a s) (e : writeRuns now q n core kv s l = some t) : Keeps a t :=
  keeps_foldl_bind (fun _ _ _ h e => writeRun_keeps h e) h e

theorem settle_keeps {q : Nat} {n : Nat} (h : Keeps a s) : Keeps a (settle s q n) := by
  unfold settle
  refine Keeps.withJob h (fun s1 j h1 => keeps_ite ?_ h1)
  split
  · exact malform_keeps h1
  · exact setJob_keeps h1

theorem placeTiles_keeps {q : Nat} {n : Nat} {ts : List Tile} (h : Keeps a s) : Keeps a (placeTiles s q n ts) := by
  unfold placeTiles
  exact keeps_foldl (fun s1 x h1 => keeps_foldl (fun s11 x1 h11 => placeItem_keeps h11) h1) h

theorem runTiles_keeps {j : Job} {tiles : List Tile} {fail : Option (Nat × Nat × Nat)}
    (h : Keeps a s) : Keeps a (runTiles s j tiles fail) := by
  unfold runTiles
  dsimp only
  exact settle_keeps (placeTiles_keeps (trace_keeps (setJob_keeps h)))

theorem putChunk_keeps {c : Chunk} (h : Keeps a s) : Keeps a (putChunk s c) := by
  unfold putChunk
  dsimp only
  exact h.frame

theorem sendContrib_keeps {m : Msg} (h : Keeps a s) : Keeps a (sendContrib s m) := by
  unfold sendContrib
  dsimp only
  exact keeps_ite (keeps_ite (fireInj_keeps h.frame) (sendMsg_keeps (fireInj_keeps h.frame))) h.frame

theorem pumpUp_keeps (h : Keeps a s) : Keeps a (pumpUp s) := by
  unfold pumpUp
  dsimp only
  exact keeps_foldl (fun s1 x h1 => sendContrib_keeps h1) h.frame

theorem writeResult_keeps {b : Bucket} {num : Nat} {vals : List (Option Nat)} {fl : Flags} {poison : Bool}
    (h : Keeps a s) : Keeps a (writeResult s b num vals fl poison) := by
  unfold writeResult
  dsimp only
  refine Keeps.withJob h (fun s1 j h1 => ?_)
  split
  · exact h1
  · split
    · exact Keeps.withJob (setJob_keeps (report_keeps h1)) (fun s11 j1 h11 => (setJob_keeps h11).frame)
    · rename_i e11
      exact pumpWrites_keeps (settle_keeps ((writeRuns_keeps (setJob_keeps (report_keeps h1)) e11).frame))

theorem deliver_keeps {tag : Nat} {num : Nat} {b : Bucket} {vals : List (Option Nat)} {fl : Flags} {poison : Bool} {mfl : Nat}
    (h : Keeps a s) : Keeps a (deliver s tag num b vals fl poison mfl) := by
  unfold deliver
  dsimp only
  exact writeResult_keeps (keeps_foldl (fun s1 x h1 => sendMsg_keeps h1) h)

theorem actChunk_keeps {tag : Nat} {num : Nat} (h : Keeps a s) : Keeps a (actChunk s tag num) := by
  unfold actChunk
  dsimp only
  split
  · exact h
  · exact keeps_ite h
      (keeps_ite (deliver_keeps (keeps_foldl (fun s1 x2 h1 => sendMsg_keeps h1) (putChunk_keeps (report_keeps h))))
        (sendContrib_keeps (keeps_foldl (fun s1 x2 h1 => sendMsg_keeps h1) (putChunk_keeps (report_keeps h)))))

theorem addTerm_keeps {tag : Nat} {num : Nat} {t' : Term} (h : Keeps a s) : Keeps a (addTerm s tag num t') := by
  unfold addTerm
  dsimp only
  exact actChunk_keeps (putChunk_keeps h)

theorem ownTerm_keeps {b : Bucket} {num : Nat} {els : List (Nat × Bool)} (h : Keeps a s) : Keeps a (ownTerm s b num els) := by
  unfold ownTerm
  dsimp only
  exact keeps_ite (addTerm_keeps (report_keeps h)) (addTerm_keeps (report_keeps (wr_keeps h)))

theorem contribute_keeps {b : Bucket} {els : List (Nat × Nat × Bool)} (h : Keeps a s) : Keeps a (contribute s b els) := by
  unfold contribute
  dsimp only
  exact keeps_foldl (fun s1 x h1 => keeps_ite (ownTerm_keeps (Keeps.withJob h1.frame (fun s11 j h11 => setJob_keeps h11))) h1) h.frame

theorem openBucket_keeps {j : Job} {word : Nat} (h : Keeps a s) : Keeps a (openBucket s j word) := by
  unfold openBucket
  dsimp only
  exact (keeps_foldl (fun s1 x h1 => sendMsg_keeps h1) h).frame

theorem dropBucket_keeps {j : Job} (h : Keeps a s) : Keeps a (dropBucket s j) := by
  unfold dropBucket
  dsimp only
  split
  · exact h
  · exact keeps_ite (keeps_ite h.frame (sendMsg_keeps h.frame)) h.frame

theorem notice_keeps {t' : List Byte} (h : Keeps a s) : Keeps a (notice s t') := by
  unfold notice
  dsimp only
  exact h.frame

theorem haltEngine_keeps (h : Keeps a s) : Keeps a (haltEngine s) := by
  unfold haltEngine
  dsimp only
  exact keeps_ite h.frame (levelRise_keeps h.frame)

theorem hitBreak_keeps {i : Nat} {q : Nat} {n : Nat} (h : Keeps a s) : Keeps a (hitBreak s i q n) := by
  unfold hitBreak
  dsimp only
  exact haltEngine_keeps ((notice_keeps h).frame)

theorem served_keeps {j : Job} (h : Keeps a s) : Keeps a (State.served s j) := by
  unfold State.served
  exact keeps_ite h.frame h

theorem fetchAll_keeps {j : Job} {l : Unit → List Piece} (h : Keeps a s) : Keeps a (fetchAll s j l).2 := by
  unfold fetchAll
  dsimp only
  refine issueReads_keeps ?_
  split
  · exact h
  · exact setJob_keeps h

theorem touchParts_keeps {j : Job} {x : Ctx} {ps : List Part} (h : Keeps a s) : Keeps a (touchParts s j x ps).2 := by
  unfold touchParts
  dsimp only
  exact keeps_foldl_snd (fun p x1 h1 => touchAll_keeps h1) h

theorem noteLanded_keeps {q : Nat} {n : Nat} (h : Keeps a s) : Keeps a (noteLanded s q n) := by
  unfold noteLanded
  split
  · exact h
  · exact keeps_ite h (keeps_foldl (fun s1 x1 h1 => unitRead_keeps h1) h)

theorem countNeaps_keeps {q : Nat} {n : Nat} {k : Nat} (h : Keeps a s) : Keeps a (countNeaps s q n k) := by
  unfold countNeaps
  dsimp only
  exact keeps_ite h (pulse_keeps ((Keeps.withJob h (fun s1 j h1 => setJob_keeps h1)).frame))

theorem withOperands_keeps {j : Job} {x : Ctx} {ins : List Tensor} {ps : List Part} {go : State → Job → State} (h : Keeps a s)
    (hgo : ∀ s j, Keeps a s → Keeps a (go s j)) : Keeps a (withOperands s j x ins ps go) := by
  unfold withOperands
  dsimp only
  split
  · exact touchParts_keeps h
  · refine (touchParts_keeps h).withJob fun s j h => ?_
    split
    · exact fetchAll_keeps h
    · exact (noteLanded_keeps (noteState_keeps (countNeaps_keeps (logUnmapped_keeps (fetchAll_keeps h))))).withJob hgo

theorem startRow_keeps {α : Type} {op q n : Nat} {chk : State → Job → Except Bad α} {run : State → Job → α → State} (h : Keeps a s)
    (hrun : ∀ s j x, Keeps a s → Keeps a (run s j x)) : Keeps a (startRow op q n s chk run) := by
  refine h.withJob fun s j h => ?_
  split
  · exact h
  · split
    · exact reject_keeps h
    · exact hrun _ _ _ (served_keeps h)

theorem setSlotState_keeps {i : Nat} {x : Slot} {st : Nat} (h : Keeps a s) : Keeps a (setSlotState s i x st) := by
  unfold setSlotState
  dsimp only
  exact trace_keeps h.frame

theorem dropToken_keeps {core : Nat} (h : Keeps a s) : Keeps a (dropToken s core) := by
  unfold dropToken
  dsimp only
  exact setCore_keeps h

theorem returnNeed_keeps {m : Member} (h : Keeps a s) : Keeps a (returnNeed s m) := by
  unfold returnNeed
  dsimp only
  exact keeps_foldl (fun s1 x h1 => pushDesc_keeps h1) (keeps_foldl (fun s1 x h1 => pushFrame_keeps h1) h)

theorem sinkUnits_keeps {j : Job} {mine : Nat → Bool} (h : Keeps a s) : Keeps a (sinkUnits s j mine) := by
  unfold sinkUnits
  dsimp only
  exact Keeps.withJob (sinkTags_keeps (Keeps.withJob (keeps_foldl (fun s1 x h1 => count_keeps h1) h) (fun s1 j1 h1 => setJob_keeps h1)))
    (fun s1 j1 h1 => setJob_keeps h1)

theorem sinkFetches_keeps {j : Job} (h : Keeps a s) : Keeps a (sinkFetches s j) := by
  unfold sinkFetches
  exact sinkUnits_keeps h

theorem endMember_keeps {q : Nat} {n : Nat} {i : Nat} {outcome : Nat} (h : Keeps a s) : Keeps a (endMember s q n i outcome) := by
  unfold endMember
  dsimp only
  refine Keeps.withJob h (fun s1 j h1 => ?_)
  split
  · exact h1
  · refine keeps_ite h1 (Keeps.withJob ?_ (fun s11 j1 h11 => setJob_keeps h11))
    split
    · exact keeps_ite
        (setSlotState_keeps
          (keeps_ite (dropToken_keeps (returnNeed_keeps (keeps_ite h1 (sinkUnits_keeps h1))))
            (returnNeed_keeps (keeps_ite h1 (sinkUnits_keeps h1)))))
        (keeps_ite (dropToken_keeps (returnNeed_keeps (keeps_ite h1 (sinkUnits_keeps h1))))
          (returnNeed_keeps (keeps_ite h1 (sinkUnits_keeps h1))))
    · exact keeps_ite (dropToken_keeps (returnNeed_keeps (keeps_ite h1 (sinkUnits_keeps h1)))) (returnNeed_keeps (keeps_ite h1 (sinkUnits_keeps h1)))

theorem dropItems_keeps {q : Nat} {n : Nat} (h : Keeps a s) : Keeps a (dropItems s q n) := by
  unfold dropItems
  exact h.frame

theorem withdraw_keeps {q : Nat} {n : Nat} {b : Nat} (h : Keeps a s) : Keeps a (withdraw s q n b) := by
  unfold withdraw
  dsimp only
  split
  · exact h
  · exact keeps_ite h.frame h

theorem dropFork_keeps {j : Job} (h : Keeps a s) : Keeps a (dropFork s j) := by
  unfold dropFork
  split
  · split
    · exact keeps_ite (setSlotState_keeps h) h
    · exact h
  · exact h

/-- Updates of the tables that leave the banks. -/
theorem putPend_ok {b : Tables} {sfu v : Bool} (h : TablesOk b) : TablesOk (putPend b sfu v) := by
  cases sfu <;> exact h

theorem dropReload_keeps {j : Job} (h : Keeps a s) : Keeps a (dropReload s j) := by
  unfold dropReload
  cases bit (j.body 0) 0
  · exact keeps_ite h.of h
  · exact keeps_ite h.of h

theorem endJob_keeps {q : Nat} {n : Nat} {st : Nat} (h : Keeps a s) : Keeps a (endJob s q n st) := by
  unfold endJob
  dsimp only
  exact Keeps.withJob h
    (fun s1 j h1 =>
      keeps_ite (keeps_ite h1 (setJob_keeps h1))
        (Keeps.withJob
          (dropHold_keeps
            (dropBucket_keeps
              (keeps_ite
                (withdraw_keeps
                  (dropFork_keeps
                    (dropReload_keeps (keeps_foldl (fun s11 x h11 => endMember_keeps h11) (sinkFetches_keeps (dropItems_keeps h1))))))
                (dropFork_keeps
                  (dropReload_keeps (keeps_foldl (fun s11 x h11 => endMember_keeps h11) (sinkFetches_keeps (dropItems_keeps h1))))))))
          (fun s11 j1 h11 => setJob_keeps h11)))

theorem missFault_keeps {j : Job} {code : Nat} {inj : Bool} {aux : Nat} (h : Keeps a s) : Keeps a (missFault s j code inj aux) := by
  unfold missFault
  dsimp only
  exact keeps_ite h (Keeps.withJob (fault_keeps h) (fun s1 j1 h1 => setJob_keeps h1))

theorem missJob_keeps {q : Nat} {n : Nat} {inj : Bool} (h : Keeps a s) : Keeps a (missJob s q n inj) := by
  unfold missJob
  dsimp only
  exact Keeps.withJob h
    (fun s1 j h1 => keeps_ite (endJob_keeps (missFault_keeps h1)) (Keeps.withJob (missFault_keeps h1) (fun s11 j1 h11 => setJob_keeps h11)))

theorem missMembers_keeps {q : Nat} {n : Nat} (h : Keeps a s) : Keeps a (missMembers s q n) := by
  unfold missMembers
  dsimp only
  refine Keeps.withJob h (fun s1 j h1 => keeps_foldl (fun s11 x h11 => Keeps.withJob h11 (fun s12 j1 h12 => ?_)) h1)
  split
  · exact h12
  · exact keeps_ite h12 (keeps_ite (endMember_keeps (missFault_keeps h12)) (Keeps.withJob (missFault_keeps h12) (fun s13 j2 h13 => setJob_keeps h13)))

theorem checkMiss_keeps {q : Nat} {n : Nat} (h : Keeps a s) : Keeps a (checkMiss s q n) := by
  unfold checkMiss
  dsimp only
  exact Keeps.withJob h (fun s1 j h1 => keeps_ite (missJob_keeps h1) (settle_keeps (missMembers_keeps h1)))

theorem injectMiss_keeps {q : Nat} {n : Nat} (h : Keeps a s) : Keeps a (injectMiss s q n) := by
  unfold injectMiss
  dsimp only
  refine keeps_ite ?_ h
  split
  · exact keeps_ite (fireInj_keeps h) (missJob_keeps (fireInj_keeps h))
  · exact fireInj_keeps h

theorem breakTake_keeps {q : Nat} {n : Nat} (h : Keeps a s) : Keeps a (breakTake s q n) := by
  unfold breakTake
  dsimp only
  split
  · exact h
  · exact Keeps.withJob (hitBreak_keeps h) (fun s1 j h1 => keeps_ite (setJob_keeps h1) h1)

theorem commandTake_keeps {q : BitVec 6} (h : Keeps a s) : Keeps a (commandTake q s) := by
  unfold commandTake
  dsimp only
  refine keeps_ite h (injectMiss_keeps (breakTake_keeps ?_))
  split
  · exact reject_keeps (trace_keeps ((setQueue_keeps h).frame))
  · exact keeps_ite (setJob_keeps (trace_keeps ((setQueue_keeps h).frame)))
      (keeps_ite (setJob_keeps (trace_keeps ((setQueue_keeps h).frame))) (trace_keeps ((setQueue_keeps h).frame)))

theorem dependencyRelease_keeps {q : BitVec 6} {n : BitVec 16} (h : Keeps a s) : Keeps a (dependencyRelease q n s) := by
  unfold dependencyRelease
  exact Keeps.withJob h (fun s1 j h1 => setJob_keeps h1)

theorem deadlineMiss_keeps {q : BitVec 6} {n : BitVec 16} {lt : Dword} (h : Keeps a s) : Keeps a (deadlineMiss q n lt s) := by
  unfold deadlineMiss
  exact checkMiss_keeps (advance_keeps h)

theorem seqPoison_keeps {j : Job} {t' : Tile} {last : Bool} (h : Keeps a s) : Keeps a (seqPoison s j t' last) := by
  unfold seqPoison
  split
  · split
    · exact h
    · exact keeps_ite (putSeq_keeps h) (keeps_ite (putSeq_keeps h) h)
  · exact h

theorem endRows_keeps {q : Nat} {n : Nat} (h : Keeps a s) : Keeps a (endRows s q n) := by
  unfold endRows
  refine Keeps.withJob h (fun s1 j h1 => keeps_ite h1 (keeps_foldl (fun s11 x h11 => Keeps.withJob h11 (fun s12 j1 h12 => ?_)) h1))
  split
  · exact keeps_ite (endMember_keeps h12) h12
  · exact h12

theorem commitTile_keeps {j : Job} {u : Tile} {rest : List Tile} (h : Keeps a s) : Keeps a (commitTile s j u rest) := by
  unfold commitTile
  dsimp only
  have hact := keeps_act (a := a) (g := fun s => writeRuns false j.q j.n u.core plainKv s u.wr) fun _ _ h e => writeRuns_keeps h e
  split
  · exact h
  · split
    · exact touchAll_keeps h
    · split
      · rename_i e
        exact keeps_snd (takePages_keeps (touchAll_keeps h) hact) e
      · rename_i e
        have h1 := keeps_snd (takePages_keeps (touchAll_keeps h) hact) e
        refine pumpWrites_keeps (settle_keeps (endRows_keeps ?_))
        have h2 := (bubbles_keeps (core := u.core) (n := u.bubble) (count_keeps (core := u.core) (slot := 13) (d := u.masked)
          (count_keeps (core := u.core) (slot := 12) (d := u.floor) (report_keeps (cmd := j.loc) (core := u.core) (r := u.rep) h1)))).withJob
          (q := j.q) (n := j.n) (f := fun s j => seqPoison (s.setJob (({ j with
            poison := sat32 j.poison u.poison
            result := j.result + u.result
            tiles := rest
            finished := j.finished + 1
            dry := false } : Job).commitUnit u.num u.index u.rep.fl)) { j with
            poison := sat32 j.poison u.poison
            result := j.result + u.result
            tiles := rest
            finished := j.finished + 1
            dry := false } u (j.finished + 1 == j.total))
          fun _ _ h => seqPoison_keeps (setJob_keeps h)
        split
        · exact h2
        · exact contribute_keeps h2

theorem runItem_keeps {j : Job} {t' : Tile} {l : List (Nat × Item)} {r1 : Job}
    (h : Keeps a s) (e : runItem s j t' l = some (t, r1)) : Keeps a t := by
  unfold runItem at e
  dsimp only at e
  obtain ⟨r, hr, e⟩ := Option.map_eq_some_iff.1 e
  cases e
  exact setJob_keeps (setCore_keeps h)

theorem finishTile_keeps {j : Job} {t' : Tile} {rest : List Tile} (h : Keeps a s) : Keeps a (finishTile s j t' rest) := by
  unfold finishTile
  split
  · exact commitTile_keeps h
  · split
    · exact h
    · rename_i e11
      split
      · exact keeps_ite (commitTile_keeps (runItem_keeps h e11)) (runItem_keeps h e11)
      · exact runItem_keeps h e11

theorem tileCommit_keeps {q : BitVec 6} {n : BitVec 16} (h : Keeps a s) : Keeps a (tileCommit q n s) := by
  unfold tileCommit
  refine Keeps.withJob (Keeps.withJob h (fun s1 j h1 => keeps_ite (settle_keeps (missMembers_keeps h1)) h1)) (fun s1 j h1 => ?_)
  split
  · exact h1
  · exact keeps_ite (finishTile_keeps h1) h1

theorem writeOutcomes_keeps {j : Job} (h : Keeps a s) : Keeps a (writeOutcomes s j) := by
  unfold writeOutcomes
  exact keeps_ite (wr_keeps h) h

theorem moveOn_keeps {j : Job} (h : Keeps a s) : Keeps a (moveOn s j) := by
  unfold moveOn
  refine keeps_ite (keeps_foldl (fun s1 x h1 => ?_) h) h
  split
  · exact putSeq_keeps h1
  · exact h1

theorem completionRecord_keeps {q : BitVec 6} {n : BitVec 16} (h : Keeps a s) : Keeps a (completionRecord q n s) := by
  unfold completionRecord
  dsimp only
  refine Keeps.withJob h (fun s1 j h1 => keeps_ite h1 ?_)
  split
  · exact trace_keeps
      (keeps_ite
        (pulse_keeps
          (settleClaims_keeps ((setQueue_keeps (wr_keeps (moveOn_keeps (writeOutcomes_keeps (checkMiss_keeps (dropHold_keeps h1)))))).frame)))
        (settleClaims_keeps ((setQueue_keeps (wr_keeps (moveOn_keeps (writeOutcomes_keeps (checkMiss_keeps (dropHold_keeps h1)))))).frame)))
  · exact hitBreak_keeps
      (trace_keeps
        (keeps_ite
          (pulse_keeps
            (settleClaims_keeps
              ((setQueue_keeps (wr_keeps (moveOn_keeps (writeOutcomes_keeps (checkMiss_keeps (dropHold_keeps h1)))))).frame)))
          (settleClaims_keeps ((setQueue_keeps (wr_keeps (moveOn_keeps (writeOutcomes_keeps (checkMiss_keeps (dropHold_keeps h1)))))).frame))))

theorem finish_keeps {j : Job} (h : Keeps a s) : Keeps a (finish s j) := by
  unfold finish
  dsimp only
  exact setJob_keeps h

theorem finishJob_keeps {q : Nat} {n : Nat} (h : Keeps a s) : Keeps a (finishJob s q n) := by
  unfold finishJob
  exact Keeps.withJob h (fun s1 j h1 => keeps_ite h1 (finish_keeps h1))

theorem nopRow_keeps {q : BitVec 6} {n : BitVec 16} (h : Keeps a s) : Keeps a (nopRow q n s) := by
  unfold nopRow
  exact Keeps.withJob h (fun s1 j h1 => keeps_ite (finish_keeps h1) h1)

theorem fenceRow_keeps {q : BitVec 6} {n : BitVec 16} (h : Keeps a s) : Keeps a (fenceRow q n s) := by
  unfold fenceRow
  exact Keeps.withJob h (fun s1 j h1 => keeps_ite h1 (keeps_ite (reject_keeps h1) (keeps_ite (finish_keeps h1) h1)))

theorem satisfyWaits_keeps (h : Keeps a s) : Keeps a (satisfyWaits s) := by
  unfold satisfyWaits
  exact keeps_foldl (fun s1 x h1 => finishJob_keeps h1) h

theorem setSem_keeps {i : Nat} {v : Nat} (h : Keeps a s) : Keeps a (setSem s i v) := by
  unfold setSem
  dsimp only
  exact satisfyWaits_keeps h.frame

theorem waitRow_keeps {q : BitVec 6} {n : BitVec 16} (h : Keeps a s) : Keeps a (waitRow q n s) := by
  unfold waitRow
  exact Keeps.withJob h (fun s1 j h1 => keeps_ite h1 (satisfyWaits_keeps (setJob_keeps h1)))

theorem signalRow_keeps {q : BitVec 6} {n : BitVec 16} (h : Keeps a s) : Keeps a (signalRow q n s) := by
  unfold signalRow
  dsimp only
  refine Keeps.withJob h (fun s1 j h1 => keeps_ite h1 (keeps_ite (setSem_keeps (finish_keeps h1)) ?_))
  split
  · exact setSem_keeps (finish_keeps h1)
  · rename_i e1
    exact pumpWrites_keeps (writeRun_keeps (setSem_keeps (finish_keeps h1)) e1)

theorem releaseBar_keeps {b : Nat} (h : Keeps a s) : Keeps a (releaseBar s b) := by
  unfold releaseBar
  dsimp only
  exact (keeps_foldl (fun s1 x h1 => finishJob_keeps h1) h).frame

theorem tryRelease_keeps {b : Nat} (h : Keeps a s) : Keeps a (tryRelease s b) := by
  unfold tryRelease
  dsimp only
  exact keeps_ite h (releaseBar_keeps (keeps_foldl (fun s1 x h1 => sendMsg_keeps h1) h))

theorem sendArrive_keeps {b : Nat} (h : Keeps a s) : Keeps a (sendArrive s b) := by
  unfold sendArrive
  dsimp only
  exact keeps_ite (tryRelease_keeps h.frame) (sendMsg_keeps h.frame)

theorem barrierFull_keeps {b : Nat} (h : Keeps a s) : Keeps a (barrierFull s b) := by
  unfold barrierFull
  dsimp only
  exact keeps_ite h (keeps_ite (sendArrive_keeps h) (releaseBar_keeps h))

theorem arriveBar_keeps {j : Job} (h : Keeps a s) : Keeps a (arriveBar s j) := by
  unfold arriveBar
  dsimp only
  exact keeps_ite h (keeps_ite (malform_keeps h) (barrierFull_keeps h.frame))

theorem barrierArrival_keeps {q : BitVec 6} {n : BitVec 16} (h : Keeps a s) : Keeps a (barrierArrival q n s) := by
  unfold barrierArrival
  exact Keeps.withJob h (fun s1 j h1 => keeps_ite (arriveBar_keeps h1) h1)

theorem barrierRow_keeps {q : BitVec 6} {n : BitVec 16} (h : Keeps a s) : Keeps a (barrierRow q n s) := by
  unfold barrierRow
  dsimp only
  exact Keeps.withJob h (fun s1 j h1 => keeps_ite h1 (keeps_ite (setJob_keeps h1) (arriveBar_keeps (setJob_keeps h1))))

/-- Writes one after the other keep the canonical form. -/
theorem foldWrite_wf {α : Type} {l : List α} {f : α → Nat} {g : α → List Byte} {m : Memory} (h : m.wf = true) :
    (l.foldl (fun (m : Memory) i => m.write (f i) (g i)) m).wf = true := by
  induction l generalizing m with
  | nil => exact h
  | cons x l ih => exact ih (write_wf _ _ h)

theorem reload_keeps {j : Job} (h : Keeps a s) : Keeps a (reload s j) := by
  unfold reload
  extract_lets sfu act items ok m t bad
  have ht : TablesOk s.tbl → TablesOk t := fun h => putBank_ok (foldWrite_wf (bankOf_ok h)) h
  clear_value bad
  split
  · exact malform_keeps (h.of (tbl := ht))
  · exact setJob_keeps (h.of (tbl := fun h => putPend_ok (ht h)))

theorem tryReload_keeps {q : Nat} {n : Nat} (h : Keeps a s) : Keeps a (tryReload s q n) := by
  unfold tryReload
  exact Keeps.withJob h (fun s1 j h1 => keeps_ite (reload_keeps h1) h1)

theorem tableRow_keeps {q : BitVec 6} {n : BitVec 16} (h : Keeps a s) : Keeps a (tableRow q n s) := by
  unfold tableRow
  exact Keeps.withJob h (fun s1 j h1 => keeps_ite h1 (keeps_ite (reject_keeps h1) (tryReload_keeps (setJob_keeps h1))))

theorem tableReloadStart_keeps {q : BitVec 6} {n : BitVec 16} (h : Keeps a s) : Keeps a (tableReloadStart q n s) := by
  unfold tableReloadStart
  exact keeps_ite (tryReload_keeps h) h

theorem epochSwitch_keeps {sfu : Bool} (h : Keeps a s) : Keeps a (epochSwitch sfu s) := by
  unfold epochSwitch
  split
  · exact h
  · refine keeps_ite h (finish_keeps (h.of (tbl := fun h => ?_)))
    have hp := putPend_ok (sfu := sfu) (v := false) h
    cases sfu <;> exact hp

theorem runPrep_keeps {j : Job} {x : Ctx} {p : Prep} (h : Keeps a s) : Keeps a (runPrep s j x p) := by
  unfold runPrep
  dsimp only
  exact withOperands_keeps h (fun s1 j1 h1 => runTiles_keeps h1)

theorem vecRow_keeps {q : BitVec 6} {n : BitVec 16} (h : Keeps a s) : Keeps a (vecRow q n s) := by
  unfold vecRow
  exact startRow_keeps h (fun s1 j x h1 => runPrep_keeps h1)

theorem runSeqCopy_keeps {j : Job} {p : Prep} (h : Keeps a s) : Keeps a (runSeqCopy s j p) := by
  unfold runSeqCopy
  dsimp only
  exact keeps_ite h (runPrep_keeps (setJob_keeps h))

theorem copyRow_keeps {q : BitVec 6} {n : BitVec 16} (h : Keeps a s) : Keeps a (copyRow q n s) := by
  unfold copyRow
  exact startRow_keeps h (fun s1 j x h1 => runSeqCopy_keeps h1)

theorem fillRow_keeps {q : BitVec 6} {n : BitVec 16} (h : Keeps a s) : Keeps a (fillRow q n s) := by
  unfold fillRow
  exact startRow_keeps h (fun s1 j x h1 => runSeqCopy_keeps h1)

theorem fillSlot_keeps {i : Nat} {x : Slot} {st : Nat} (h : Keeps a s) : Keeps a (fillSlot s i x st) := by
  unfold fillSlot
  dsimp only
  exact wr_keeps (setSlotState_keeps h)

theorem startPark_keeps {i : Nat} {x : Slot} (h : Keeps a s) : Keeps a (startPark s i x) := by
  unfold startPark
  exact setSlotState_keeps h

theorem finishPark_keeps {i : Nat} (h : Keeps a s) : Keeps a (finishPark s i) := by
  unfold finishPark
  split
  · exact h
  · extract_lets ps p u d v w
    have hu : Keeps a u := touchAll_keeps h
    have hw : ∀ t, w = some t → Keeps a t := fun t e => by
      by_cases hr : (‹Slot›.resid == 1) = true
      · exact writeSpace_keeps (noteCopy_keeps hu) ((if_pos hr).symm.trans e)
      · cases (if_neg hr).symm.trans e
        exact hu
    clear_value w
    refine keeps_ite h (keeps_ite hu ?_)
    split
    · exact hu
    · rename_i u
      exact setSlotState_keeps (wr_keeps (hw u rfl))

theorem parkComplete_keeps {i : BitVec 12} (h : Keeps a s) : Keeps a (parkComplete i s) := by
  unfold parkComplete
  exact keeps_ite (finishPark_keeps h) h

theorem startUnpark_keeps {sid : Nat} (h : Keeps a s) (e : startUnpark s sid = some t) : Keeps a t := by
  unfold startUnpark at e
  split at e
  · obtain ⟨p, -, rfl⟩ := Option.map_eq_some_iff.1 e
    exact fillSlot_keeps h
  · cases e

theorem finishUnpark_keeps {i : Nat} (h : Keeps a s) : Keeps a (finishUnpark s i) := by
  unfold finishUnpark
  dsimp only
  split
  · exact h
  · exact keeps_ite h
      (keeps_ite (touchAll_keeps h)
        (setSlotState_keeps (keeps_ite ((touchAll_keeps h).of (t0 := fun h => t0Store_wf _ _ _ h)) (touchAll_keeps h))))

theorem unparkComplete_keeps {i : BitVec 12} (h : Keeps a s) : Keeps a (unparkComplete i s) := by
  unfold unparkComplete
  exact keeps_ite (finishUnpark_keeps h) h

theorem waitSlot_keeps {j : Job} (h : Keeps a s) : Keeps a (waitSlot s j) := by
  unfold waitSlot
  exact setJob_keeps h

theorem slotsReady_keeps {j : Job} {need : Nat} {named : List Nat} (h : Keeps a s) : Keeps a (slotsReady s j need named).2 := by
  unfold slotsReady
  dsimp only
  split
  · exact h
  · split
    · exact waitSlot_keeps h
    · split
      · exact h
      · split
        · exact waitSlot_keeps h
        · exact setJob_keeps (keeps_foldl (fun s1 x h1 => startPark_keeps h1) h)

theorem unparkAll_keeps {j : Job} {sids named : List Nat} (h : Keeps a s) : Keeps a (unparkAll s j sids named).2 := by
  unfold unparkAll
  dsimp only
  split
  · exact keeps_ite (setJob_keeps h) h
  · have h1 := slotsReady_keeps (j := j) (need := (parkedOf s sids).length) (named := named) h
    split
    · exact h1
    · split
      · exact waitSlot_keeps h1
      · rename_i e
        have h2 := keeps_foldl_bind (fun _ _ _ h e => startUnpark_keeps h e) h1 e
        dsimp only
        exact h2.withJob fun _ _ h => setJob_keeps h

theorem bringIn_keeps {j : Job} {sids : List Nat} (h : Keeps a s) : Keeps a (bringIn s j sids).2 := by
  unfold bringIn
  dsimp only
  exact unparkAll_keeps h

theorem controlRow_keeps {α : Type} {op sub : Nat} {q : BitVec 6} {n : BitVec 16} {chk : State → Job → Except Bad α}
    {go : State → Job → α → State} (h : Keeps a s) (hgo : ∀ s j x, Keeps a s → Keeps a (go s j x)) :
    Keeps a (controlRow op sub q n s chk go) :=
  h.withJob fun _ _ h => keeps_ite h (startRow_keeps h hgo)

theorem parkOne_keeps {take sid : Nat} (h : Keeps a s) (e : parkOne s take sid = .started t) : Keeps a t := by
  unfold parkOne at e
  split at e
  · cases e
  · split at e
    · cases e
      exact startPark_keeps h
    · split at e
      · cases e
        exact h
      · cases e

theorem parkList_keeps {take : Nat} {l : List Nat} {i : Nat} {ps : List Nat} (h : Keeps a s) : Keeps a (parkList take s l i ps).1 := by
  induction l generalizing s i ps with
  | nil => exact h
  | cons x l ih =>
    unfold parkList
    split
    · exact ih h
    · rename_i e
      exact ih (parkOne_keeps h e)
    · exact h

theorem unparkList_keeps {j : Job} {named l : List Nat} {i : Nat} {ps : List Nat} (h : Keeps a s) :
    Keeps a (unparkList j named s l i ps).1 := by
  induction l generalizing s i ps with
  | nil => exact h
  | cons x l ih =>
    unfold unparkList
    split
    · split
      · exact h
      · exact ih h
    · exact ih h
    · dsimp only
      split
      · exact slotsReady_keeps h
      · split
        · exact waitSlot_keeps (slotsReady_keeps h)
        · rename_i e
          exact ih ((startUnpark_keeps (slotsReady_keeps h) e).withJob fun _ _ h => setJob_keeps h)

theorem listRow_keeps {j : Job} {sids : List Nat} {st : Nat} {go : State → List Nat → Nat → List Nat → State × Nat × List Nat} (h : Keeps a s)
    (hgo : ∀ s l i ps, Keeps a s → Keeps a (go s l i ps).1) : Keeps a (listRow s j sids st go) := by
  unfold listRow
  dsimp only
  refine (hgo _ _ _ _ h).withJob fun s j h => ?_
  split
  · exact finish_keeps h
  · exact setJob_keeps h

theorem parkRow_keeps {sub : Nat} {q : BitVec 6} {n : BitVec 16} (h : Keeps a s) : Keeps a (parkRow sub q n s) := by
  unfold parkRow
  refine controlRow_keeps h (fun s1 j x h1 => ?_)
  split
  · exact listRow_keeps h1 (fun s11 x2 x3 x4 h11 => parkList_keeps h11)
  · exact listRow_keeps h1 (fun s11 x2 x3 x4 h11 => unparkList_keeps h11)
  · refine finish_keeps (keeps_foldl (fun s11 x2 h11 => ?_) h1)
    split
    · exact putSeq_keeps h11
    · exact h11

theorem startMove_keeps {i : Nat} {x : Slot} {c : Nat} (h : Keeps a s) (e : startMove s i x c = some t) : Keeps a t := by
  unfold startMove at e
  split at e
  · obtain ⟨r, -, rfl⟩ := Option.map_eq_some_iff.1 e
    exact (setSlotState_keeps h).frame
  · split at e
    · cases e
      exact h.frame
    · cases e

theorem sequenceBalance_keeps (h : Keeps a s) : Keeps a (sequenceBalance s) := by
  unfold sequenceBalance
  dsimp only
  split
  · exact h
  · cases e : List.findSome? _ _ with
    | none => exact h
    | some u =>
      obtain ⟨p, -, hp⟩ := List.exists_of_findSome?_eq_some e
      obtain ⟨c, -, hc⟩ := List.exists_of_findSome?_eq_some hp
      exact startMove_keeps h hc

theorem migrationComplete_keeps {i : BitVec 12} (h : Keeps a s) : Keeps a (migrationComplete i s) := by
  unfold migrationComplete
  dsimp only
  split
  · exact keeps_ite h (setSlotState_keeps ((noteCopy_keeps h).of (t0 := fun h => t0Store_wf _ _ _ h)))
  · exact h

theorem pageInit_keeps (h : Keeps a s) : Keeps a (pageInit s) := by
  have hres : ∀ (l : List Nat) (f : Nat → Nat) (g : Nat → List Byte) (m : PMem), m.bytes.wf = true →
      (l.foldl (fun m c => m.put (f c) (g c)) m).bytes.wf = true := by
    intro l f g
    induction l with
    | nil => exact fun m h => h
    | cons c l ih => exact fun m h => ih _ (put_wf _ _ h)
  unfold pageInit
  dsimp only
  split
  · exact h
  · refine h.of (t1 := fun h => put_wf _ _ (put_wf _ _ (hres _ _ _ _ (put_wf _ _ (put_wf _ _ ?_)))))
    split
    · exact clear_wf _ _ (clear_wf _ _ (clear_wf _ _ h))
    · exact clear_wf _ _ (clear_wf _ _ h)

theorem joinFamily_keeps {f : Nat} {q : Nat} (h : Keeps a s) : Keeps a (joinFamily s f q) := by
  unfold joinFamily
  dsimp only
  exact h.frame

theorem freshParks_keeps {root fam n r0 : Nat} (h : Keeps a s) (e : freshParks s root fam n = some (r0, t)) : Keeps a t := by
  unfold freshParks at e
  generalize List.range n = l at e
  generalize hb : (2 : Nat) ^ 24 - n = b at e
  induction l generalizing s root with
  | nil =>
    cases e
    exact h
  | cons k l ih =>
    rw [List.foldl_cons, Option.bind_some] at e
    cases hk : ownPage s root fam (b + k) 2 true with
    | none =>
      rw [hk, Option.map_none] at e
      have hnone : ∀ l : List Nat, l.foldl (fun (o : Option (Nat × State)) k => o.bind fun a =>
          (ownPage a.2 a.1 fam (b + k) 2 true).map fun r => (r.1, r.2.2)) none = none := fun l => by
        induction l with
        | nil => rfl
        | cons y l ih => exact ih
      rw [hnone] at e
      cases e
    | some r =>
      rw [hk, Option.map_some] at e
      exact ih (ownPage_keeps h hk) e

theorem admitRoot_keeps {o : AdmitOp} {fam : Nat} {r0 : Nat} (h : Keeps a s) (e : admitRoot s o fam = some (r0, t)) : Keeps a t := by
  unfold admitRoot at e
  split at e
  · exact newNode_keeps h e
  · cases e
    exact putNodeCount_keeps h

theorem createSeq_keeps {j : Job} {o : AdmitOp} {slot : Nat} {sid : Nat} {fam : Nat} {p : Spot}
    (h : Keeps a s) (e : createSeq s j o slot sid fam p = some t) : Keeps a t := by
  unfold createSeq at e
  dsimp only at e
  split at e
  · cases e
  · rename_i e1
    split at e
    · cases e
    · rename_i e11
      exact writeCopy_keeps (joinFamily_keeps ((fillSlot_keeps (freshParks_keeps (admitRoot_keeps h e1) e11)).frame)) e

theorem reachAdopted_keeps {j : Job} {o : AdmitOp} {p : Spot} (h : Keeps a s) : Keeps a (reachAdopted s j o p).2 := by
  unfold reachAdopted
  split
  · exact h
  · exact keeps_foldl_snd (fun _ _ h => touchVpn_keeps h) h

theorem admitNow_keeps {j : Job} {o : AdmitOp} (h : Keeps a s) : Keeps a (admitNow s j o) := by
  unfold admitNow
  dsimp only
  split
  · exact slotsReady_keeps h
  · split
    · rename_i fam sid slot p _ _ _ _
      split
      · exact reachAdopted_keeps (slotsReady_keeps h)
      · refine (reachAdopted_keeps (slotsReady_keeps h)).withJob fun s j h => ?_
        have hact := keeps_act (a := a) (g := fun s => createSeq s j o slot sid fam p) fun _ _ h e => createSeq_keeps h e
        split
        · rename_i e
          exact (keeps_snd (takePages_keeps h hact) e).withJob fun _ _ h => setJob_keeps h
        · rename_i e
          exact (keeps_snd (takePages_keeps h hact) e).withJob fun _ _ h => finish_keeps h
    · exact waitSlot_keeps (slotsReady_keeps h)

theorem runAdmit_keeps {j : Job} {o : AdmitOp} (h : Keeps a s) : Keeps a (runAdmit s j o) := by
  unfold runAdmit
  exact withOperands_keeps (pageInit_keeps h) (fun s1 j1 h1 => admitNow_keeps h1)

theorem admitRow_keeps {q : BitVec 6} {n : BitVec 16} (h : Keeps a s) : Keeps a (admitRow q n s) := by
  unfold admitRow
  exact controlRow_keeps h (fun s1 j x h1 => runAdmit_keeps h1)

theorem copyRoot_keeps {fam : Nat} {root : Nat} {r0 : Nat} (h : Keeps a s) (e : copyRoot s fam root = some (r0, t)) : Keeps a t := by
  unfold copyRoot at e
  dsimp only at e
  obtain ⟨r, hr, e⟩ := Option.map_eq_some_iff.1 e
  cases e
  refine keeps_foldl (fun s1 x h1 => ?_) (wr_keeps (newNode_keeps h hr))
  split
  · exact putNodeCount_keeps h1
  · exact h1

theorem forkChild_keeps {j : Job} {x : Slot} {i sid sib : Nat} {p : Spot} (h : Keeps a s) (e : forkChild s j x i sid sib p = some t) :
    Keeps a t := by
  unfold forkChild at e
  dsimp only at e
  split at e
  · rename_i hroot _
    obtain ⟨r, hr, rfl⟩ := Option.map_eq_some_iff.1 e
    have h1 := freshParks_keeps (copyRoot_keeps h hroot) hr
    split
    · exact (noteCopy_keeps (joinFamily_keeps (fillSlot_keeps h1.frame))).of (t0 := t0Store_wf _ _ _)
    · exact joinFamily_keeps (fillSlot_keeps h1.frame)
  · cases e

theorem makeKids_keeps {j : Job} {x : Slot} {sids : List Nat} {spots : List Spot} (h : Keeps a s) (e : makeKids s j x sids spots = some t) :
    Keeps a t := keeps_foldl_bind (fun _ _ _ h e => forkChild_keeps h e) h e

theorem forkKids_keeps {j : Job} {i : Nat} {x : Slot} (h : Keeps a s) : Keeps a (forkKids s j i x) := by
  unfold forkKids
  dsimp only
  split
  · rename_i spots _ _ _
    split
    · exact waitSlot_keeps h
    · have hact := keeps_act (a := a) (g := fun s' => makeKids s' j x (freeSids j.forkKids s.slots.sids) spots) fun _ _ h e => makeKids_keeps h e
      split
      · rename_i e
        exact (keeps_snd (takePages_keeps h hact) e).withJob fun _ _ h => setJob_keeps h
      · rename_i e
        have h1 := keeps_snd (takePages_keeps h hact) e
        refine pumpWrites_keeps (Keeps.withJob ?_ fun _ _ h => finish_keeps h)
        cases hw : writeRuns _ _ _ _ _ _ _ with
        | none => exact setSlotState_keeps h1
        | some u => exact writeRuns_keeps (setSlotState_keeps h1) hw
  · exact waitSlot_keeps h

theorem runFork_keeps {j : Job} {x : Slot} (h : Keeps a s) : Keeps a (runFork s j x) := by
  unfold runFork
  dsimp only
  refine keeps_ite h ?_
  split
  · exact bringIn_keeps h
  · exact keeps_ite (keeps_ite (forkKids_keeps (slotsReady_keeps h)) (slotsReady_keeps h))
      (keeps_ite
        (keeps_ite (forkKids_keeps (slotsReady_keeps (setJob_keeps (setSlotState_keeps h))))
          (slotsReady_keeps (setJob_keeps (setSlotState_keeps h)))) h)

theorem forkRow_keeps {q : BitVec 6} {n : BitVec 16} (h : Keeps a s) : Keeps a (forkRow q n s) := by
  unfold forkRow
  exact controlRow_keeps h (fun s1 j x h1 => runFork_keeps h1)

theorem unlink_keeps {x : Slot} (h : Keeps a s) : Keeps a (unlink s x) := by
  unfold unlink
  dsimp only
  split
  · exact h
  · refine keeps_ite (putSeq_keeps h) ?_
    split
    · exact putSeq_keeps h
    · split
      · exact putSeq_keeps h
      · exact putSeq_keeps (putSeq_keeps h)

theorem leaveFamily_keeps {f : Nat} (h : Keeps a s) : Keeps a (leaveFamily s f) := by
  unfold leaveFamily
  dsimp only
  split
  · exact h
  · exact h.frame

theorem cancelMembers_keeps {sid : Nat} (h : Keeps a s) : Keeps a (cancelMembers s sid) := by
  unfold cancelMembers
  refine keeps_foldl (fun s1 x h1 => keeps_ite h1 ?_) h
  split
  · exact settle_keeps (endMember_keeps h1)
  · exact h1

theorem retireSeq_keeps {sid : Nat} (h : Keeps a s) : Keeps a (retireSeq s sid).2 := by
  have hslot : ∀ (s : State) (st : Nat), Keeps a s →
      Keeps a (match slotOf s sid with | some (i, y) => setSlotState s i y st | none => s) := fun s st h => by
    split
    · exact setSlotState_keeps h
    · exact h
  have hkid : ∀ (s : State) (k : Nat), Keeps a s →
      Keeps a (match seqRec s k with | some y => putSeq s k { y with parent := noSid, sibling := noSid } | none => s) := fun s k h => by
    split
    · exact putSeq_keeps h
    · exact h
  unfold retireSeq
  extract_lets s1 s2
  have h1 : Keeps a s1 := cancelMembers_keeps h
  split
  · exact h1
  · rename_i x _
    extract_lets fam s3 s4 r s5 s6 slots
    have h2 : Keeps a s2 := hslot _ _ h1
    have h3 : Keeps a s3 := unlink_keeps h2
    have h4 : Keeps a s4 := keeps_foldl hkid h3
    have h5 : Keeps a s5 := leaveFamily_keeps (releaseRoot_keeps h4)
    have h6 : Keeps a s6 := hslot _ _ h5
    clear_value s6
    exact h6.of (t1 := clear_wf _ _)

theorem cancelSeq_keeps {sid : Nat} (h : Keeps a s) : Keeps a (cancelSeq s sid) := by
  unfold cancelSeq
  dsimp only
  split
  · exact dropFork_keeps (malform_keeps (dropHold_keeps (cancelMembers_keeps h)))
  · exact cancelMembers_keeps h

theorem retireList_keeps {cancel : Bool} {take : Nat} {l : List Nat} (h : Keeps a s) : Keeps a (retireList cancel take l s).2.2.2 := by
  induction l generalizing s with
  | nil => exact h
  | cons x l ih =>
    unfold retireList
    split
    · exact ih h
    · have h1 : Keeps a (if cancel then cancelSeq s x else s) := keeps_ite (cancelSeq_keeps h) h
      generalize (if cancel then cancelSeq s x else s) = s at h1
      dsimp only
      split
      · exact h1
      · exact ih (retireSeq_keeps h1)

theorem retireNamed_keeps {cancel sub : Bool} {take : Nat} {l : List Nat} {i : Nat} {c : Nat × Nat} (h : Keeps a s) :
    Keeps a (retireNamed cancel sub take l i c s).2.2 := by
  induction l generalizing s i c with
  | nil => exact h
  | cons x l ih =>
    unfold retireNamed
    extract_lets r c
    have hr : Keeps a r.2.2.2 := retireList_keeps h
    split
    · exact ih hr
    · exact hr

theorem runRetire_keeps {j : Job} {l : List Nat} (h : Keeps a s) : Keeps a (runRetire s j l) := by
  unfold runRetire
  refine (retireNamed_keeps h).withJob fun s j h => ?_
  dsimp only
  split
  · exact finish_keeps h
  · exact setJob_keeps h

theorem retireRow_keeps {q : BitVec 6} {n : BitVec 16} (h : Keeps a s) : Keeps a (retireRow q n s) := by
  unfold retireRow
  exact controlRow_keeps h (fun s1 j x h1 => runRetire_keeps h1)

theorem slotWaitEnd_keeps {q : BitVec 6} {n : BitVec 16} (h : Keeps a s) : Keeps a (slotWaitEnd q n s) := by
  unfold slotWaitEnd
  exact Keeps.withJob h (fun s1 j h1 => keeps_ite (setJob_keeps h1) h1)

theorem sfnRow_keeps {q : BitVec 6} {n : BitVec 16} (h : Keeps a s) : Keeps a (sfnRow q n s) := by
  unfold sfnRow
  exact startRow_keeps h (fun s1 j x h1 => runPrep_keeps h1)

theorem normRow_keeps {q : BitVec 6} {n : BitVec 16} (h : Keeps a s) : Keeps a (normRow q n s) := by
  unfold normRow
  exact startRow_keeps h (fun s1 j x h1 => runPrep_keeps h1)

theorem smaxRow_keeps {q : BitVec 6} {n : BitVec 16} (h : Keeps a s) : Keeps a (smaxRow q n s) := by
  unfold smaxRow
  exact startRow_keeps h (fun s1 j x h1 => runPrep_keeps h1)

theorem topkRow_keeps {q : BitVec 6} {n : BitVec 16} (h : Keeps a s) : Keeps a (topkRow q n s) := by
  unfold topkRow
  exact startRow_keeps h (fun s1 j x h1 => runPrep_keeps h1)

theorem fallSummary_keeps {d : Nat} {x : Desc} (h : Keeps a s) : Keeps a (fallSummary s d x).2 := by
  unfold fallSummary
  split
  · split
    · exact h.frame
    · rename_i e
      exact popNeap_keeps h e
  · exact h

theorem startFall_keeps {d cls : Nat} {job : Option (Nat × Nat)} (h : Keeps a s) (e : startFall s d cls job = some t) : Keeps a t := by
  unfold startFall at e
  split at e
  · cases e
  · rename_i hpop
    cases e
    exact issueFall_keeps (putDesc_keeps (fallSummary_keeps (popShelf_keeps h hpop))).frame

theorem clockScan_keeps {n d : Nat} (h : Keeps a s) : Keeps a (clockScan n d s).2 := by
  induction n generalizing s d with
  | zero => exact h
  | succ n ih =>
    unfold clockScan
    dsimp only
    split
    · exact ih h
    · split
      · exact ih (putDesc_keeps h)
      · exact h

theorem evictor_keeps (h : Keeps a s) : Keeps a (evictor s) := by
  have h1 : Keeps a { s with tier := { s.tier with reclaim := levels s } } := h.frame
  unfold evictor
  dsimp only
  split
  · exact h1
  · split
    · rename_i e
      exact keeps_snd (clockScan_keeps h1) e
    · rename_i e
      have h2 := keeps_snd (clockScan_keeps h1) e
      split
      · exact h2
      · rename_i e
        exact (startFall_keeps h2 e).frame

theorem commitFall_keeps {f : Fall} (h : Keeps a s) : Keeps a (commitFall s f) := by
  unfold commitFall
  dsimp only
  refine keeps_ite h (putDesc_keeps ?_)
  split
  · exact putSide_keeps (wr_keeps h)
  · exact wr_keeps h

theorem commitFalls_keeps (h : Keeps a s) : Keeps a (commitFalls s) := by
  unfold commitFalls
  exact keeps_foldl (fun s1 x h1 => commitFall_keeps h1) h

theorem fallCommit_keeps {d : BitVec 28} (h : Keeps a s) : Keeps a (fallCommit d s) := by
  unfold fallCommit
  dsimp only
  split
  · exact h
  · exact keeps_ite h (keeps_ite (putDesc_keeps (stopFall_keeps h)) (pushFrame_keeps (putDesc_keeps (dropFall_keeps (commitFall_keeps h)))))

theorem riseComplete_keeps {d : BitVec 28} (h : Keeps a s) : Keeps a (riseComplete d s) := by
  unfold riseComplete
  dsimp only
  split
  · exact h
  · refine keeps_ite h ?_
    split
    · exact putDesc_keeps
        (keeps_ite (putSide_keeps ((dropShelf_keeps h.frame).of (t1 := fun h => store_wf _ _ _ h)))
          ((dropShelf_keeps h.frame).of (t1 := fun h => store_wf _ _ _ h)))
    · exact fault_keeps (putDesc_keeps ((dropShelf_keeps h.frame).of (t1 := fun h => clear_wf _ _ h)))

/-- What a requested move of a page keeps, whether the page moves or waits. -/
def MoveKeeps (a : State) : PageAct → Prop
  | .skip => True
  | .moves _ t => Keeps a t
  | .wait t => Keeps a t

theorem askPages_keeps {act : State → Nat → PageAct} (hact : ∀ s i, Keeps a s → MoveKeeps a (act s i)) {f i sk : Nat} {ds : List Nat}
    (h : Keeps a s) : Keeps a (askPages act f i sk ds s).2.2.2 := by
  induction f generalizing s i sk ds with
  | zero => exact h
  | succ f ih =>
    have hs := hact s i h
    unfold askPages
    split
    · exact ih h
    · rename_i e
      rw [e] at hs
      exact ih hs
    · rename_i e
      rw [e] at hs
      exact hs

theorem askRise_keeps {j : Job} {sid vpn : Nat} (h : Keeps a s) : MoveKeeps a (askRise s j sid vpn) := by
  unfold askRise
  dsimp only
  split
  · trivial
  · split
    · split
      · rename_i e
        exact startRise_keeps h e
      · exact keeps_ite (noteDry_keeps h) h
    · split
      · exact h
      · trivial

theorem askFall_keeps {j : Job} {sid vpn : Nat} (h : Keeps a s) : MoveKeeps a (askFall s j sid vpn) := by
  unfold askFall
  split
  · trivial
  · split
    · trivial
    · split
      · exact h
      · split
        · rename_i e
          exact startFall_keeps h e
        · exact h

theorem runPage_keeps {j : Job} {p : Nat × Nat × Nat} (h : Keeps a s) : Keeps a (runPage s j p) := by
  unfold runPage
  extract_lets fall act
  have hact : ∀ s i, Keeps a s → MoveKeeps a (act s i) := fun s i h => by
    unfold act
    split
    · exact askFall_keeps h
    · exact askRise_keeps h
  exact (askPages_keeps hact h).withJob fun s j h => keeps_ite (finish_keeps h) (setJob_keeps h)

theorem pageRow_keeps {fall : Bool} {q : BitVec 6} {n : BitVec 16} (h : Keeps a s) : Keeps a (pageRow fall q n s) := by
  unfold pageRow
  exact Keeps.withJob h (fun s1 j h1 => keeps_ite h1 (startRow_keeps h1 (fun s11 j1 x h11 => runPage_keeps h11)))

theorem takeNeap_keeps {j : Job} {sid : Nat} {d : Nat} (h : Keeps a s) : Keeps a (takeNeap s j sid d) := by
  unfold takeNeap
  exact Keeps.withJob h (fun s1 j1 h1 => setJob_keeps h1)

theorem touchKv_keeps {j : Job} {core sid d : Nat} {sd : Option Int} (h : Keeps a s) : Keeps a (touchKv s j core sid d sd).2 := by
  unfold touchKv
  dsimp only
  split
  · exact h
  · split
    · split
      · exact takeNeap_keeps h
      · dsimp only
        exact (touchPage_keeps h).withJob fun _ _ h => setJob_keeps h
    · exact touchPage_keeps h

theorem reachKv_keeps {j : Job} {core : Nat} {sid : Nat} {sd : Option Int} {reads : List Nat} {writes : List Nat}
    (h : Keeps a s) : Keeps a (reachKv s j core sid sd reads writes).2 := by
  unfold reachKv
  dsimp only
  refine keeps_foldl_snd (fun p x h1 => ?_) (touchAll_keeps h)
  split
  · exact touchKv_keeps h1
  · exact h1

theorem neapStreamDeadline_keeps {d : BitVec 28} {lt : Dword} (h : Keeps a s) : Keeps a (neapStreamDeadline d lt s) := by
  unfold neapStreamDeadline
  dsimp only
  exact keeps_ite (advance_keeps h) ((advance_keeps h).frame)

theorem attnMembers_keeps {j : Job} {o : AttnOp} {l : List (Member × Nat)} {r : State × List Tile × Option (Nat × Nat × Nat)} (h : Keeps a s)
    (e : attnMembers s j o l = some r) : Keeps a r.1 := by
  induction l generalizing s r with
  | nil =>
    cases e
    exact h
  | cons m l ih =>
    unfold attnMembers at e
    dsimp only at e
    split at e
    · exact ih h e
    · split at e
      · cases e
      · rename_i hw
        have h1 : ∀ k, Keeps a (countNeaps (logUnmapped _ j.loc ((o.pages m.1.pos).map fun v => (m.1.sid, v))) j.q j.n k) := fun k =>
          countNeaps_keeps (logUnmapped_keeps (writeRuns_keeps h hw))
        split at e
        · cases e
          exact h1 _
        · obtain ⟨u, hu, rfl⟩ := Option.map_eq_some_iff.1 e
          exact ih (r := u) (h1 _) hu

theorem attnReach_keeps {j : Job} {o : AttnOp} {ms : List Member} (h : Keeps a s) : Keeps a (attnReach s j o ms).2 := by
  unfold attnReach
  dsimp only
  refine keeps_foldl_snd (fun p x h1 => ?_) h
  split
  · exact h1
  · split
    · exact h1
    · exact reachKv_keeps h1

theorem attnGo_keeps {j : Job} {o : AttnOp} (h : Keeps a s) : Keeps a (attnGo s j o) := by
  unfold attnGo
  dsimp only
  split
  · exact reject_keeps h
  · split
    · exact attnReach_keeps h
    · refine (attnReach_keeps h).withJob fun s j h => withOperands_keeps h fun s j h => ?_
      have hact : ∀ ms s r, Keeps a s → (attnMembers s j o ms).map (fun r => (r.1, r.2)) = some r → Keeps a r.1 := by
        intro ms s r h e
        obtain ⟨u, hu, rfl⟩ := Option.map_eq_some_iff.1 e
        exact attnMembers_keeps h hu
      split
      · rename_i e
        exact keeps_snd (takePages_keeps h (hact _)) e
      · rename_i e
        exact (takePages_found h (hact _) e).withJob fun _ _ h => pumpWrites_keeps (settle_keeps (endRows_keeps (runTiles_keeps h)))

theorem withMembers_keeps {j : Job} {sids : List Nat} (h : Keeps a s) : Keeps a (withMembers s j sids) := by
  unfold withMembers
  exact keeps_ite (setJob_keeps h) h

theorem runAttn_keeps {j : Job} {o : AttnOp} (h : Keeps a s) : Keeps a (runAttn s j o) := by
  unfold runAttn
  dsimp only
  exact Keeps.withJob (withMembers_keeps h)
    (fun s1 j1 h1 => keeps_ite (bringIn_keeps h1) (Keeps.withJob (bringIn_keeps h1) (fun s11 j2 h11 => attnGo_keeps h11)))

theorem attnCmd_keeps {q : BitVec 6} {n : BitVec 16} (h : Keeps a s) : Keeps a (attnCmd q n s) := by
  unfold attnCmd
  exact startRow_keeps h (fun s1 j x h1 => runAttn_keeps h1)

theorem openSpan_keeps {q : Nat} {n : Nat} {o : ScanOp} {seq : Nat} {k : Nat} (h : Keeps a s) : Keeps a (openSpan s q n o seq k) := by
  unfold openSpan
  dsimp only
  refine Keeps.withJob h (fun s1 j h1 => ?_)
  split
  · exact h1
  · split
    · exact placeTiles_keeps (setJob_keeps h1)
    · exact pumpWrites_keeps (queueWr_keeps (placeTiles_keeps (setJob_keeps h1)))

theorem startChunks_keeps {j : Job} {o : ScanOp} (h : Keeps a s) : Keeps a (startChunks s j o) := by
  unfold startChunks
  dsimp only
  exact settle_keeps (keeps_foldl (fun s1 x h1 => openSpan_keeps h1) (trace_keeps (setJob_keeps h)))

theorem runScan_keeps {j : Job} {o : ScanOp} (h : Keeps a s) : Keeps a (runScan s j o) := by
  unfold runScan
  dsimp only
  refine keeps_ite ?_
    (Keeps.withJob ?_
      (fun s1 j1 h1 => withOperands_keeps (setJob_keeps h1) (fun s11 j2 h11 => keeps_ite (startChunks_keeps h11) (runTiles_keeps h11))))
  · split
    · exact bringIn_keeps h
    · exact h
  · split
    · exact bringIn_keeps h
    · exact h

theorem scanRow_keeps {q : BitVec 6} {n : BitVec 16} (h : Keeps a s) : Keeps a (scanRow q n s) := by
  unfold scanRow
  exact startRow_keeps h (fun s1 j x h1 => runScan_keeps h1)

theorem askCarry_keeps {j : Job} {o : ScanOp} {seq : Nat} {c : Nat} (h : Keeps a s) : Keeps a (askCarry s j o seq c) := by
  unfold askCarry
  dsimp only
  exact keeps_ite h (issueReads_keeps (setJob_keeps h))

theorem carryOn_keeps {j : Job} {o : ScanOp} {seq : Nat} {c : Nat} {k : Nat} (h : Keeps a s) : Keeps a (carryOn s j o seq c k) := by
  unfold carryOn
  dsimp only
  exact Keeps.withJob (askCarry_keeps h)
    (fun s1 j1 h1 =>
      keeps_ite (touchAll_keeps h1)
        (Keeps.withJob (openSpan_keeps (touchAll_keeps h1)) (fun s11 j2 h11 => settle_keeps (setJob_keeps h11))))

theorem seamCarryReady_keeps {q : BitVec 6} {n : BitVec 16} {seq : BitVec 12} {chunk : BitVec 24}
    (h : Keeps a s) : Keeps a (seamCarryReady q n seq chunk s) := by
  unfold seamCarryReady
  refine Keeps.withJob h (fun s1 j h1 => keeps_ite h1 ?_)
  split
  · exact keeps_ite h1 (carryOn_keeps h1)
  · exact malform_keeps h1
  · exact h1

theorem runArray_keeps {j : Job} {o : ArrOp} (h : Keeps a s) : Keeps a (runArray s j o) := by
  unfold runArray
  dsimp only
  exact keeps_ite (setJob_keeps h)
    (withOperands_keeps h
      (fun s1 j1 h1 =>
        settle_keeps (keeps_foldl (fun s11 x h11 => placeItem_keeps h11) (trace_keeps (setJob_keeps (keeps_ite (openBucket_keeps h1) h1))))))

theorem arrayRow_keeps {op : Nat} {q : BitVec 6} {n : BitVec 16} (h : Keeps a s) : Keeps a (arrayRow op q n s) := by
  unfold arrayRow
  exact startRow_keeps h (fun s1 j x h1 => runArray_keeps h1)

theorem withOp_keeps {q n : Nat} {f : State → Job → ArrOp → State} (h : Keeps a s) (hf : ∀ s j o, Keeps a s → Keeps a (f s j o)) :
    Keeps a (withOp s q n f) := by
  refine h.withJob fun s j h => ?_
  split
  · exact malform_keeps (dropItems_keeps h)
  · exact hf _ _ _ h

theorem loadItem_keeps {c : Nat} (h : Keeps a s) : Keeps a (loadItem s c) := by
  unfold loadItem
  dsimp only
  split
  · exact withOp_keeps h (fun s1 j x3 h1 => keeps_ite (setCore_keeps h1) h1)
  · exact h

theorem runCore_keeps {c : Nat} (h : Keeps a s) : Keeps a (runCore s c) := by
  unfold runCore
  dsimp only
  split
  · exact h
  · exact keeps_ite h (withOp_keeps h (fun s1 j x2 h1 => keeps_ite (touchAll_keeps h1) (setCore_keeps (touchAll_keeps h1))))

theorem swapRow_keeps {c : BitVec 8} (h : Keeps a s) : Keeps a (swapRow c s) := by
  unfold swapRow
  dsimp only
  exact keeps_ite h (runCore_keeps (loadItem_keeps h))

theorem resolveCore_keeps {c : Nat} (h : Keeps a s) : Keeps a (resolveCore s c) := by
  unfold resolveCore
  dsimp only
  split
  · exact h
  · exact keeps_ite h (withOp_keeps h (fun s1 j x2 h1 => count_keeps (count_keeps (setCore_keeps h1))))

theorem saturationRow_keeps {c : BitVec 8} (h : Keeps a s) : Keeps a (saturationRow c s) := by
  unfold saturationRow
  exact keeps_ite (resolveCore_keeps h) h

theorem drainSet_keeps {c : Nat} {j : Job} {o : ArrOp} {st : OpenSet} (h : Keeps a s) : Keeps a (drainSet c s j o st) := by
  unfold drainSet
  dsimp only
  exact Keeps.withJob h (fun s1 j1 h1 => setJob_keeps h1)

theorem drainCore_keeps {c : Nat} (h : Keeps a s) : Keeps a (drainCore s c) := by
  unfold drainCore
  split
  · exact h
  · exact withOp_keeps h (fun s1 j x3 h1 => keeps_foldl (fun s11 x4 h11 => drainSet_keeps h11) (setCore_keeps h1))

theorem drainRow_keeps {c : BitVec 8} (h : Keeps a s) : Keeps a (drainRow c s) := by
  unfold drainRow
  exact keeps_ite (drainCore_keeps h) h

theorem fetchStolen_keeps {c : Nat} {it : Item} (h : Keeps a s) : Keeps a (fetchStolen s c it) := by
  unfold fetchStolen
  dsimp only
  exact Keeps.withJob h (fun s1 j h1 => issueReads_keeps (setJob_keeps h1))

theorem robCore_keeps {c : Nat} {v : Nat} (h : Keeps a s) : Keeps a (robCore s c v) := by
  unfold robCore
  dsimp only
  split
  · exact h
  · exact trace_keeps (fetchStolen_keeps (setCore_keeps (setCore_keeps h)))

theorem stealRow_keeps {c : BitVec 8} (h : Keeps a s) : Keeps a (stealRow c s) := by
  unfold stealRow
  dsimp only
  refine keeps_ite h ?_
  split
  · exact robCore_keeps h
  · exact setCore_keeps h

theorem clusterPoll_keeps {c : BitVec 8} {lt : Dword} (h : Keeps a s) : Keeps a (clusterPoll c lt s) := by
  unfold clusterPoll
  dsimp only
  refine keeps_ite (advance_keeps h) ?_
  split
  · exact advance_keeps h
  · exact robCore_keeps (advance_keeps h)

theorem saveCore_keeps {c : Nat} (h : Keeps a s) : Keeps a (saveCore s c) := by
  unfold saveCore
  dsimp only
  split
  · exact resolveCore_keeps h
  · exact withOp_keeps (resolveCore_keeps h) (fun s1 j x2 h1 => trace_keeps (setCore_keeps (wr_keeps h1)))

theorem saveLanes_keeps {c : Nat} {it : Item} (h : Keeps a s) : Keeps a (saveLanes s c it) := by
  unfold saveLanes
  dsimp only
  split
  · exact h
  · refine keeps_ite h ?_
    split
    · exact h
    · exact wr_keeps (freeNat_keeps h)

theorem saveRow_keeps {c : Nat} {it : Item} (h : Keeps a s) : Keeps a (saveRow s c it) := by
  unfold saveRow
  dsimp only
  split
  · exact h
  · split
    · exact h
    · exact keeps_ite h (wr_keeps h)

theorem saveBlocks_keeps {c : Nat} {it : Item} (h : Keeps a s) : Keeps a (saveBlocks s c it) := by
  unfold saveBlocks
  dsimp only
  exact trace_keeps (setCore_keeps h)

theorem saveRunning_keeps {c : Nat} (h : Keeps a s) : Keeps a (saveRunning s c) := by
  unfold saveRunning
  split
  · exact saveCore_keeps h
  · exact saveBlocks_keeps (saveRow_keeps (saveLanes_keeps h))
  · exact h

theorem preemptRow_keeps {c : BitVec 8} {q : BitVec 6} {n : BitVec 16} (h : Keeps a s) : Keeps a (preemptRow c q n s) := by
  unfold preemptRow
  dsimp only
  split
  · exact h
  · split
    · exact h
    · exact keeps_ite h
        (keeps_ite (withOp_keeps (setCore_keeps (saveRunning_keeps h)) (fun s1 j x5 h1 => setCore_keeps h1))
          (setCore_keeps (setCore_keeps (saveRunning_keeps h))))

theorem restoreBlocks_keeps {c : Nat} {owner : Nat} {it : Item × Bool} (h : Keeps a s) : Keeps a (restoreBlocks s c owner it) := by
  unfold restoreBlocks
  dsimp only
  exact trace_keeps (setCore_keeps (setCore_keeps h))

theorem restoreItem_keeps {c : Nat} {owner : Nat} {it : Item × Bool} (h : Keeps a s) : Keeps a (restoreItem s c owner it) := by
  unfold restoreItem
  dsimp only
  refine keeps_ite (restoreBlocks_keeps h) (withOp_keeps h (fun s1 j x h1 => ?_))
  split
  · exact malform_keeps (dropItems_keeps (setCore_keeps h1))
  · exact trace_keeps (setCore_keeps (setCore_keeps h1))

theorem resumeRow_keeps {c : BitVec 8} (h : Keeps a s) : Keeps a (resumeRow c s) := by
  unfold resumeRow
  dsimp only
  refine keeps_ite h ?_
  split
  · exact keeps_ite h (restoreItem_keeps h)
  · refine keeps_ite h ?_
    split
    · exact h
    · exact restoreItem_keeps h

theorem retarget_keeps (h : Keeps a s) : Keeps a (retarget s) := by
  unfold retarget
  dsimp only
  exact keeps_ite h.frame h

theorem startWake_keeps {st : Nat} (h : Keeps a s) : Keeps a (startWake s st) := by
  unfold startWake
  dsimp only
  split
  · exact h
  · exact keeps_ite h h.frame

theorem wakeEvent_keeps (h : Keeps a s) : Keeps a (wakeEvent s) := by
  unfold wakeEvent
  dsimp only
  exact keeps_ite h (startWake_keeps h.frame)

theorem runReduce_keeps {j : Job} {p : Tensor × Tensor} (h : Keeps a s) : Keeps a (runReduce s j p) := by
  unfold runReduce
  dsimp only
  refine keeps_ite (setJob_keeps h) (withOperands_keeps h (fun s1 j1 h1 => ?_))
  split
  · exact malform_keeps ((openBucket_keeps h1).frame)
  · exact runTiles_keeps (openBucket_keeps h1)

theorem reduceRow_keeps {q : BitVec 6} {n : BitVec 16} (h : Keeps a s) : Keeps a (reduceRow q n s) := by
  unfold reduceRow
  exact startRow_keeps h (fun s1 j x h1 => runReduce_keeps h1)

theorem casViolOf_keeps {cmd : Nat} {reason : Nat} {rank : Nat} {tag : Nat} {num : Nat}
    (h : Keeps a s) : Keeps a (casViolOf s cmd reason rank tag num) := by
  unfold casViolOf
  exact viol_keeps h

theorem casViol_keeps {reason : Nat} {rank : Nat} {tag : Nat} {num : Nat} (h : Keeps a s) : Keeps a (casViol s reason rank tag num) := by
  unfold casViol
  exact casViolOf_keeps h

theorem sendNak_keeps {m : Msg} {reason : Nat} (h : Keeps a s) : Keeps a (sendNak s m reason) := by
  unfold sendNak
  dsimp only
  exact sendMsg_keeps h

theorem stale_keeps (h : Keeps a s) : Keeps a (stale s) := by
  unfold stale
  dsimp only
  exact h.frame

theorem toAll_keeps {type : Nat} {arg0 : Nat} (h : Keeps a s) : Keeps a (toAll s type arg0) := by
  unfold toAll
  exact keeps_foldl (fun s1 x h1 => sendMsg_keeps h1) h

theorem clearAttempt_keeps (h : Keeps a s) : Keeps a (clearAttempt s) := by
  unfold clearAttempt
  dsimp only
  exact h.frame

theorem becomeReady_keeps (h : Keeps a s) : Keeps a (becomeReady s) := by
  unfold becomeReady
  dsimp only
  exact (clearAttempt_keeps h).frame

theorem sendJoin_keeps (h : Keeps a s) : Keeps a (sendJoin s) := by
  unfold sendJoin
  dsimp only
  exact sendMsg_keeps h.frame

theorem casEnable_keeps {v : Nat} (h : Keeps a s) : Keeps a (casEnable s v) := by
  unfold casEnable
  dsimp only
  exact keeps_ite (keeps_ite h (viol_keeps h))
    (keeps_ite h.frame (keeps_ite (viol_keeps h.frame) (keeps_ite (becomeReady_keeps h.frame) (keeps_ite h.frame (sendJoin_keeps h.frame)))))

theorem joinRetry_keeps {lt : Dword} (h : Keeps a s) : Keeps a (joinRetry lt s) := by
  unfold joinRetry
  dsimp only
  exact keeps_ite (sendJoin_keeps (advance_keeps h)) (advance_keeps h)

theorem onJoin_keeps {m : Msg} (h : Keeps a s) : Keeps a (onJoin s m) := by
  unfold onJoin
  dsimp only
  exact keeps_ite (sendNak_keeps h)
    (keeps_ite (casViol_keeps (sendMsg_keeps h))
      (keeps_ite (casViol_keeps (sendMsg_keeps h))
        (keeps_ite (casViol_keeps (sendMsg_keeps h))
          (keeps_ite (sendMsg_keeps h) (keeps_ite (becomeReady_keeps (toAll_keeps ((sendMsg_keeps h).frame))) ((sendMsg_keeps h).frame))))))

theorem onWelcome_keeps (h : Keeps a s) : Keeps a (onWelcome s) := by
  unfold onWelcome
  dsimp only
  exact keeps_ite h.frame h

theorem onStart_keeps (h : Keeps a s) : Keeps a (onStart s) := by
  unfold onStart
  exact keeps_ite (becomeReady_keeps h) h

theorem onRefuse_keeps {m : Msg} (h : Keeps a s) : Keeps a (onRefuse s m) := by
  unfold onRefuse
  dsimp only
  exact keeps_ite h (fault_keeps (casViol_keeps h.frame))

theorem onArrive_keeps {m : Msg} (h : Keeps a s) : Keeps a (onArrive s m) := by
  unfold onArrive
  dsimp only
  exact keeps_ite (sendNak_keeps h) (keeps_ite (stale_keeps h) (keeps_ite h (tryRelease_keeps h.frame)))

theorem onRelease_keeps {m : Msg} (h : Keeps a s) : Keeps a (onRelease s m) := by
  unfold onRelease
  dsimp only
  exact keeps_ite (sendNak_keeps h) (keeps_ite (releaseBar_keeps h) (stale_keeps h))

theorem onContrib_keeps {m : Msg} (h : Keeps a s) : Keeps a (onContrib s m) := by
  unfold onContrib
  dsimp only
  exact keeps_ite (sendNak_keeps h) (keeps_ite (sendNak_keeps h) (keeps_ite (sendNak_keeps h) (keeps_ite (casViol_keeps h.frame) (addTerm_keeps h))))

theorem onResult_keeps {m : Msg} (h : Keeps a s) : Keeps a (onResult s m) := by
  unfold onResult
  dsimp only
  refine keeps_ite (sendNak_keeps h) ?_
  split
  · exact sendNak_keeps h
  · exact keeps_ite (sendNak_keeps h) (keeps_ite h (deliver_keeps (putChunk_keeps h)))

theorem onCredit_keeps {m : Msg} (h : Keeps a s) : Keeps a (onCredit s m) := by
  unfold onCredit
  dsimp only
  exact keeps_ite (sendNak_keeps h) (pumpUp_keeps h.frame)

theorem nakAper_keeps {m : Msg} {write : Bool} (h : Keeps a s) : Keeps a (nakAper s m write) := by
  unfold nakAper
  split
  · exact h
  · exact keeps_ite (dropTag_keeps (loseWrite_keeps h)) (endRead_keeps h)

theorem onNak_keeps {m : Msg} (h : Keeps a s) : Keeps a (onNak s m) := by
  unfold onNak
  dsimp only
  refine keeps_ite (nakAper_keeps (keeps_ite h (casViolOf_keeps h)))
    (keeps_ite (nakAper_keeps (keeps_ite h (casViolOf_keeps h))) (keeps_ite ?_ (keeps_ite h (casViolOf_keeps h))))
  split
  · exact keeps_ite h (casViolOf_keeps h)
  · refine endJob_keeps ?_
    split
    · exact h.frame
    · exact (casViolOf_keeps h).frame

theorem applyCommit_keeps (h : Keeps a s) : Keeps a (applyCommit s) := by
  unfold applyCommit
  dsimp only
  exact keeps_ite (releaseBar_keeps (trace_keeps (pulse_keeps ((clearAttempt_keeps h).frame))))
    (trace_keeps (pulse_keeps ((clearAttempt_keeps h).frame)))

theorem stepCommit_keeps (h : Keeps a s) : Keeps a (stepCommit s) := by
  unfold stepCommit
  dsimp only
  exact keeps_ite (applyCommit_keeps (toAll_keeps h)) h

theorem rollBack_keeps {st : Nat} (h : Keeps a s) : Keeps a (rollBack s st) := by
  unfold rollBack
  dsimp only
  exact trace_keeps
    (pulse_keeps
      (keeps_foldl (fun s1 x h1 => setSem_keeps h1)
        ((clearAttempt_keeps (keeps_foldl (fun s1 x h1 => setQueue_keeps h1) (keeps_foldl (fun s1 x h1 => endJob_keeps h1) h.frame))).frame)))

theorem resume_keeps (h : Keeps a s) : Keeps a (resume s) := by
  unfold resume
  dsimp only
  exact pumpUp_keeps (keeps_foldl (fun s1 x h1 => keeps_ite (barrierFull_keeps h1) h1) h.frame)

theorem haltGroup_keeps (h : Keeps a s) : Keeps a (haltGroup s) := by
  unfold haltGroup
  dsimp only
  exact fault_keeps ((rollBack_keeps h).frame)

theorem tryResume_keeps (h : Keeps a s) : Keeps a (tryResume s) := by
  unfold tryResume
  exact keeps_ite (resume_keeps (toAll_keeps h)) h

theorem declareRepeat_keeps (h : Keeps a s) : Keeps a (declareRepeat s) := by
  unfold declareRepeat
  dsimp only
  exact keeps_ite (haltGroup_keeps (toAll_keeps h)) (tryResume_keeps (rollBack_keeps (toAll_keeps (fault_keeps h.frame))))

theorem stepRepeat_keeps {lt : Dword} (h : Keeps a s) : Keeps a (stepRepeat lt s) := by
  unfold stepRepeat
  dsimp only
  exact keeps_ite (declareRepeat_keeps (advance_keeps h)) (advance_keeps h)

theorem onAbandon_keeps {m : Msg} (h : Keeps a s) : Keeps a (onAbandon s m) := by
  unfold onAbandon
  exact keeps_ite (sendNak_keeps h) (keeps_ite (declareRepeat_keeps h) h)

theorem onCommit_keeps {m : Msg} (h : Keeps a s) : Keeps a (onCommit s m) := by
  unfold onCommit
  exact keeps_ite (applyCommit_keeps h) (sendNak_keeps h)

theorem onRepeat_keeps {m : Msg} (h : Keeps a s) : Keeps a (onRepeat s m) := by
  unfold onRepeat
  dsimp only
  exact keeps_ite (sendNak_keeps h) (keeps_ite (stale_keeps h) (sendMsg_keeps (rollBack_keeps (fault_keeps h.frame))))

theorem onAck_keeps {m : Msg} (h : Keeps a s) : Keeps a (onAck s m) := by
  unfold onAck
  dsimp only
  exact keeps_ite (tryResume_keeps h.frame) (stale_keeps h)

theorem onResume_keeps (h : Keeps a s) : Keeps a (onResume s) := by
  unfold onResume
  exact keeps_ite (resume_keeps h) (stale_keeps h)

theorem onHalt_keeps (h : Keeps a s) : Keeps a (onHalt s) := by
  unfold onHalt
  exact keeps_ite (haltGroup_keeps h) (stale_keeps h)

theorem casDisable_keeps (h : Keeps a s) : Keeps a (casDisable s) := by
  unfold casDisable
  dsimp only
  exact keeps_ite h ((rollBack_keeps h).frame)

theorem aperReply_keeps {m : Msg} {type : Nat} {mfl : Nat} {p : List Byte} (h : Keeps a s) : Keeps a (aperReply s m type mfl p) := by
  unfold aperReply
  exact sendMsg_keeps h

theorem onAperWr_keeps {m : Msg} (h : Keeps a s) : Keeps a (onAperWr s m) := by
  unfold onAperWr
  dsimp only
  split
  · exact sendNak_keeps h
  · exact aperReply_keeps (h.of (t1 := fun h => store_wf _ _ _ h))

theorem onAperRd_keeps {m : Msg} (h : Keeps a s) : Keeps a (onAperRd s m) := by
  unfold onAperRd
  dsimp only
  split
  · exact sendNak_keeps h
  · exact aperReply_keeps h

theorem onAperData_keeps {m : Msg} (h : Keeps a s) : Keeps a (onAperData s m) := by
  unfold onAperData
  dsimp only
  refine keeps_ite (portViol_keeps h) ?_
  split
  · exact portViol_keeps h
  · exact keeps_ite (portViol_keeps h)
      (keeps_ite (portViol_keeps h)
        (keeps_ite h (keeps_ite ((fireInj_keeps h).frame) (keeps_ite (portViol_keeps h.frame) (endRead_keeps (fireInj_keeps h))))))

theorem onAperAck_keeps {m : Msg} (h : Keeps a s) : Keeps a (onAperAck s m) := by
  unfold onAperAck
  exact writeAck_keeps h

theorem handleMsg_keeps {m : Msg} (h : Keeps a s) : Keeps a (handleMsg s m) := by
  unfold handleMsg
  refine keeps_ite (casViol_keeps h) (keeps_ite (stale_keeps h) ?_)
  split
  · exact onJoin_keeps h
  · exact onWelcome_keeps h
  · exact onStart_keeps h
  · exact onRefuse_keeps h
  · exact onArrive_keeps h
  · exact onRelease_keeps h
  · exact onContrib_keeps h
  · exact onResult_keeps h
  · exact onCredit_keeps h
  · exact onNak_keeps h
  · exact onAbandon_keeps h
  · exact onCommit_keeps h
  · exact onRepeat_keeps h
  · exact onAck_keeps h
  · exact onResume_keeps h
  · exact onHalt_keeps h
  · exact onAperWr_keeps h
  · exact onAperRd_keeps h
  · exact onAperData_keeps h
  · exact onAperAck_keeps h
  · exact h

theorem recvMsg_keeps {type : Nat} {m : Msg} (h : Keeps a s) : Keeps a (recvMsg type m s) := by
  unfold recvMsg
  dsimp only
  exact keeps_ite h (keeps_ite (portViol_keeps h) (keeps_ite (handleMsg_keeps h) (wakeEvent_keeps h.frame)))

theorem drainInbox_keeps (h : Keeps a s) : Keeps a (drainInbox s) := by
  unfold drainInbox
  dsimp only
  exact keeps_ite h (keeps_foldl (fun s1 x h1 => handleMsg_keeps h1) h.frame)

theorem aheadOne_keeps {j : Job} (h : Keeps a s) : Keeps a (aheadOne s j) := by
  unfold aheadOne
  dsimp only
  exact keeps_ite h
    (keeps_ite h
      (keeps_ite (touchParts_keeps h)
        (Keeps.withJob (touchParts_keeps h) (fun s1 j1 h1 => Keeps.withJob (fetchAll_keeps h1) (fun s11 j2 h11 => setJob_keeps h11)))))

theorem fetchAhead_keeps {q : Nat} (h : Keeps a s) : Keeps a (fetchAhead s q) := by
  unfold fetchAhead
  exact keeps_ite h (keeps_foldl (fun s1 x h1 => Keeps.withJob h1 (fun s11 j h11 => aheadOne_keeps h11)) h)

theorem locked_keeps {a' : Nat} (h : Keeps a s) : Keeps a (locked s a') := by
  unfold locked
  exact viol_keeps h

theorem packStack_keeps {i : Nat} {l : List Nat} (h : Keeps a s) : Keeps a (packStack s i l) := by
  unfold packStack
  exact wr_keeps h

theorem rebuildStacks_keeps (h : Keeps a s) : Keeps a (rebuildStacks s) := by
  unfold rebuildStacks
  dsimp only
  exact keeps_ite h ((packStack_keeps (packStack_keeps (packStack_keeps (packStack_keeps h)))).frame)

theorem writeEngCtrl_keeps {v : Nat} (h : Keeps a s) : Keeps a (writeEngCtrl s v) := by
  unfold writeEngCtrl
  dsimp only
  exact keeps_ite (keeps_ite (locked_keeps h) h) (keeps_ite h.of (keeps_ite (rebuildStacks_keeps h.of) h))

theorem writeFlags_keeps {v : Nat} (h : Keeps a s) : Keeps a (writeFlags s v) := by
  unfold writeFlags
  dsimp only
  exact h.frame

theorem writeGlobal_keeps {a' : Nat} {v : Nat} (h : Keeps a s) : Keeps a (writeGlobal s a' v) := by
  unfold writeGlobal
  split
  · exact setSem_keeps h
  · exact keeps_ite (writeFlags_keeps h) (keeps_ite (writeEngCtrl_keeps h) h)

theorem writeFault_keeps {a' : Nat} {v : Nat} (h : Keeps a s) : Keeps a (writeFault s a' v) := by
  unfold writeFault
  dsimp only
  exact keeps_ite h.frame (keeps_ite h.frame (keeps_ite h.frame h))

theorem writePower_keeps {a' : Nat} {v : Nat} (h : Keeps a s) : Keeps a (writePower s a' v) := by
  unfold writePower
  dsimp only
  split
  · exact retarget_keeps h.frame
  · exact retarget_keeps h.frame
  · exact h.frame
  · exact h.frame
  · exact h

theorem haltRelease_keeps (h : Keeps a s) : Keeps a (haltRelease s) := by
  unfold haltRelease
  dsimp only
  exact keeps_ite h.frame h

theorem thermRestart_keeps (h : Keeps a s) : Keeps a (thermRestart s) := by
  unfold thermRestart
  dsimp only
  exact keeps_ite (pumpWrites_keeps h.frame) h

theorem writeRearm_keeps {v : Nat} (h : Keeps a s) : Keeps a (writeRearm s v) := by
  unfold writeRearm
  dsimp only
  refine keeps_ite ?_
    (keeps_ite (thermRestart_keeps (keeps_ite ?_ (keeps_ite (haltRelease_keeps h) h))) (keeps_ite ?_ (keeps_ite (haltRelease_keeps h) h)))
  · split
    · split
      · split
        · exact (thermRestart_keeps ((haltRelease_keeps h).frame)).frame
        · exact (thermRestart_keeps h.frame).frame
      · split
        · exact (thermRestart_keeps (haltRelease_keeps h)).frame
        · exact (thermRestart_keeps h).frame
    · split
      · split
        · exact ((haltRelease_keeps h).frame).frame
        · exact h.frame.frame
      · split
        · exact (haltRelease_keeps h).frame
        · exact h.frame
  · split
    · exact (haltRelease_keeps h).frame
    · exact h.frame
  · split
    · exact (haltRelease_keeps h).frame
    · exact h.frame

theorem writeInput_keeps {a' : Nat} {v : Nat} (h : Keeps a s) : Keeps a (writeInput s a' v) := by
  unfold writeInput
  dsimp only
  split
  · exact h.frame
  · exact keeps_ite (writeRearm_keeps h) h

theorem ringBell_keeps {q : Nat} {v : Nat} (h : Keeps a s) : Keeps a (ringBell s q v) := by
  unfold ringBell
  dsimp only
  exact keeps_ite (wakeEvent_keeps (setQueue_keeps h)) (viol_keeps h)

theorem cancelThrough_keeps {q : Nat} {v : Nat} (h : Keeps a s) : Keeps a (cancelThrough s q v) := by
  unfold cancelThrough
  dsimp only
  exact keeps_foldl (fun s1 x h1 => endJob_keeps h1) (setQueue_keeps h)

theorem writeQCtrl_keeps {q : Nat} {v : Nat} (h : Keeps a s) : Keeps a (writeQCtrl s q v) := by
  unfold writeQCtrl
  dsimp only
  exact setQueue_keeps (keeps_ite (locked_keeps h) h)

theorem writeQueue_keeps {q : Nat} {o : Nat} {v : Nat} (h : Keeps a s) : Keeps a (writeQueue s q o v) := by
  unfold writeQueue
  dsimp only
  split
  · exact writeQCtrl_keeps h
  · exact ringBell_keeps h
  · exact setQueue_keeps h
  · exact cancelThrough_keeps h
  · exact h

theorem pageWrite_keeps {x : Nat} {f : State → State} (h : Keeps a s) (hf : ∀ s, Keeps a s → Keeps a (f s)) : Keeps a (pageWrite s x f) := by
  unfold pageWrite
  split
  · exact locked_keeps h
  · exact hf _ h.frame

theorem findSid_keeps {v : Nat} (h : Keeps a s) : Keeps a (findSid s v) := by
  unfold findSid
  dsimp only
  exact h.frame

theorem writeSlots_keeps {a' : Nat} {v : Nat} (h : Keeps a s) : Keeps a (writeSlots s a' v) := by
  unfold writeSlots
  dsimp only
  split
  · exact h.frame
  · exact findSid_keeps h
  · exact pageWrite_keeps h (fun s1 h1 => h1.frame)
  · exact pageWrite_keeps h (fun s1 h1 => h1.frame)
  · exact pageWrite_keeps h (fun s1 h1 => h1.frame)
  · exact h

theorem writeTiers_keeps {a' : Nat} {v : Nat} (h : Keeps a s) : Keeps a (writeTiers s a' v) := by
  unfold writeTiers
  dsimp only
  split
  · exact h.frame
  · exact h.frame
  · exact h.frame
  · exact pageWrite_keeps h (fun s1 h1 => h1.frame)
  · exact pageWrite_keeps h (fun s1 h1 => h1.frame)
  · exact pageWrite_keeps h (fun s1 h1 => h1.frame)
  · exact h.frame
  · exact h.frame
  · exact h.frame
  · exact h.frame
  · exact h.frame
  · exact h

theorem casWrite_keeps {a' : Nat} {f : Cascade → Cascade} (h : Keeps a s) : Keeps a (casWrite s a' f) := by
  unfold casWrite
  exact keeps_ite (locked_keeps h) h.frame

theorem writeCasCtrl_keeps {v : Nat} (h : Keeps a s) : Keeps a (writeCasCtrl s v) := by
  unfold writeCasCtrl
  dsimp only
  exact keeps_ite (casEnable_keeps h) (casDisable_keeps (casEnable_keeps h))

theorem writeCas_keeps {a' : Nat} {v : Nat} (h : Keeps a s) : Keeps a (writeCas s a' v) := by
  unfold writeCas
  dsimp only
  split
  · exact casWrite_keeps h
  · exact casWrite_keeps h
  · split
    · exact writeCasCtrl_keeps h
    · exact casWrite_keeps h
    · exact h.frame
    · exact h.frame
    · exact h

theorem tblNext_keeps (h : Keeps a s) : Keeps a (tblNext s) := by
  unfold tblNext
  dsimp only
  exact h.of

theorem writeTblData_keeps {v : Nat} (h : Keeps a s) : Keeps a (writeTblData s v) := by
  unfold writeTblData
  exact tblNext_keeps (keeps_ite (h.of (tbl := fun h => putBank_ok (write_wf _ _ (bankOf_ok h)) h)) (viol_keeps h))

theorem writeTable_keeps {a' : Nat} {v : Nat} (h : Keeps a s) : Keeps a (writeTable s a' v) := by
  unfold writeTable
  dsimp only
  split
  · exact h.of
  · exact h.of
  · exact writeTblData_keeps h
  · exact h

theorem setDiv_keeps {v : Nat} (h : Keeps a s) : Keeps a (setDiv s v) := by
  unfold setDiv
  dsimp only
  exact keeps_ite h.frame h.frame

theorem clearCounts_keeps (h : Keeps a s) : Keeps a (clearCounts s) := by
  unfold clearCounts
  dsimp only
  exact h.frame

theorem writeCntCtrl_keeps {v : Nat} (h : Keeps a s) : Keeps a (writeCntCtrl s v) := by
  unfold writeCntCtrl
  dsimp only
  split
  · exact (clearCounts_keeps h).frame
  · exact h.frame

theorem cwNext_keeps {c : Nat} (h : Keeps a s) : Keeps a (cwNext s c) := by
  unfold cwNext
  dsimp only
  exact setCore_keeps h

theorem readCwData_keeps {c : Nat} (h : Keeps a s) : Keeps a (readCwData s c).2 := by
  unfold readCwData
  dsimp only
  exact cwNext_keeps (keeps_ite (ueFault_keeps (setCore_keeps h)) (setCore_keeps h))

theorem writeCwData_keeps {c : Nat} {v : Nat} (h : Keeps a s) : Keeps a (writeCwData s c v) := by
  unfold writeCwData
  dsimp only
  refine keeps_ite (cwNext_keeps (locked_keeps h)) (cwNext_keeps (setCore_keeps ?_))
  split
  · exact h.of (t0 := fun h => write_wf _ _ (zero_wf _ _ h))
  · exact h.of (t0 := fun h => write_wf _ _ h)

theorem writeCore_keeps {c : Nat} {o : Nat} {v : Nat} (h : Keeps a s) : Keeps a (writeCore s c o v) := by
  unfold writeCore
  dsimp only
  split
  · exact setCore_keeps h
  · exact setCore_keeps h
  · exact writeCwData_keeps h
  · exact h

theorem write32_keeps {a' : Nat} {v : Nat} (h : Keeps a s) : Keeps a (write32 s a' v) := by
  unfold write32
  split
  · exact writeGlobal_keeps h
  · exact writeFault_keeps h
  · exact writePower_keeps h
  · exact writeInput_keeps h
  · exact writeQueue_keeps h
  · exact writeQueue_keeps h
  · exact writeQueue_keeps h
  · exact writeQueue_keeps h
  · exact writeSlots_keeps h
  · exact writeTiers_keeps h
  · exact writeCas_keeps h
  · exact writeTable_keeps h
  · exact keeps_ite (setDiv_keeps h) h
  · exact keeps_ite (writeCntCtrl_keeps h) h
  · exact keeps_ite (writeCore_keeps h) h

theorem writeQBase_keeps {a' : Nat} {v : Nat} (h : Keeps a s) : Keeps a (writeQBase s a' v) := by
  unfold writeQBase
  dsimp only
  refine keeps_ite (locked_keeps h) ?_
  split
  · exact setQueue_keeps h
  · exact setQueue_keeps h
  · exact setQueue_keeps h

theorem write64_keeps {a' : Nat} {v : Nat} (h : Keeps a s) : Keeps a (write64 s a' v) := by
  unfold write64
  dsimp only
  split
  · exact setQueue_keeps h
  · exact casWrite_keeps h
  · refine keeps_ite (writeQBase_keeps h) ?_
    split
    · exact h.frame
    · exact h.frame
    · exact keeps_ite (locked_keeps h) h.frame
    · exact pageWrite_keeps h (fun s1 h1 => h1.frame)
    · exact pageWrite_keeps h (fun s1 h1 => h1.frame)
    · exact pageWrite_keeps h (fun s1 h1 => h1.frame)
    · exact pageWrite_keeps h (fun s1 h1 => h1.frame)
    · exact pageWrite_keeps h (fun s1 h1 => h1.frame)
    · exact pageWrite_keeps h (fun s1 h1 => h1.frame)
    · exact pageWrite_keeps h (fun s1 h1 => h1.frame)
    · exact h.frame
    · exact h.frame
    · exact casWrite_keeps h
    · exact casWrite_keeps h
    · exact casWrite_keeps h
    · exact casWrite_keeps h
    · exact casWrite_keeps h
    · exact casWrite_keeps h
    · exact h

theorem ctrlWrite_keeps {a' : Nat} {v : Nat} (h : Keeps a s) : Keeps a (ctrlWrite s a' v) := by
  unfold ctrlWrite
  dsimp only
  exact keeps_ite (portViol_keeps h) (keeps_ite h.frame (keeps_ite (write64_keeps h.frame) (write32_keeps h)))

theorem ctrlRead_keeps {a' : Nat} (h : Keeps a s) : Keeps a (ctrlRead s a').2 := by
  unfold ctrlRead
  dsimp only
  split
  · exact portViol_keeps h
  · split
    · exact h.frame
    · split
      · exact tblNext_keeps h
      · split
        · exact readCwData_keeps h
        · split
          · exact h.frame
          · split
            · exact h.frame
            · exact h

theorem portNow_keeps {w : Bool} {a' : Nat} {v : Nat} (h : Keeps a s) : Keeps a (portNow s w a' v) := by
  unfold portNow
  dsimp only
  exact keeps_ite (keeps_ite h h.frame) (keeps_ite (ctrlWrite_keeps h) ((ctrlRead_keeps h).frame))

theorem portAccess_keeps {w : Bool} {a' : Nat} {v : Nat} (h : Keeps a s) : Keeps a (portAccess s w a' v) := by
  unfold portAccess
  dsimp only
  exact keeps_ite h (keeps_ite (wakeEvent_keeps h.frame) (portNow_keeps h))

theorem answerHeld_keeps (h : Keeps a s) : Keeps a (answerHeld s) := by
  unfold answerHeld
  dsimp only
  exact keeps_foldl (fun s1 x h1 => portNow_keeps h1) h.frame

theorem portWrite_keeps {a' : Nat} {v : Nat} (h : Keeps a s) : Keeps a (portWrite a' v s) := by
  unfold portWrite
  exact portAccess_keeps h

theorem portRead_keeps {a' : Nat} (h : Keeps a s) : Keeps a (portRead a' s) := by
  unfold portRead
  exact portAccess_keeps h

theorem driveRail_keeps {sel : Nat} {code : Nat} {op : Option Nat} (h : Keeps a s) : Keeps a (driveRail s sel code op) := by
  unfold driveRail
  dsimp only
  exact h.frame

theorem setpointChange_keeps (h : Keeps a s) : Keeps a (setpointChange s) := by
  unfold setpointChange
  dsimp only
  refine keeps_ite h ?_
  split
  · exact driveRail_keeps h.frame
  · exact keeps_ite (driveRail_keeps (retarget_keeps h)) (retarget_keeps h)

theorem tracePower_keeps (h : Keeps a s) : Keeps a (tracePower s) := by
  unfold tracePower
  exact trace_keeps h

theorem lateAck_keeps (h : Keeps a s) : Keeps a (lateAck s) := by
  unfold lateAck
  dsimp only
  split
  · exact h
  · exact keeps_ite h.frame h

theorem ackRise_keeps (h : Keeps a s) : Keeps a (ackRise s) := by
  unfold ackRise
  dsimp only
  exact keeps_ite h (keeps_ite (portViol_keeps h) (keeps_ite ((fireInj_keeps h).frame) (tracePower_keeps ((lateAck_keeps h).frame))))

theorem ackFall_keeps (h : Keeps a s) : Keeps a (ackFall s) := by
  unfold ackFall
  dsimp only
  exact keeps_ite h.frame h

theorem vackRise_keeps (h : Keeps a s) : Keeps a (vackRise s) := by
  unfold vackRise
  dsimp only
  exact keeps_ite h (keeps_ite h.frame (ackRise_keeps h.frame))

theorem vackFall_keeps (h : Keeps a s) : Keeps a (vackFall s) := by
  unfold vackFall
  dsimp only
  exact keeps_ite h (keeps_ite h.frame (ackFall_keeps h.frame))

theorem vackLate_keeps {lt : Dword} (h : Keeps a s) : Keeps a (vackLate lt s) := by
  unfold vackLate
  dsimp only
  exact keeps_ite ((fault_keeps (portViol_keeps (advance_keeps h))).frame) (advance_keeps h)

theorem thermalStepdown_keeps {lt : Dword} (h : Keeps a s) : Keeps a (thermalStepdown lt s) := by
  unfold thermalStepdown
  dsimp only
  exact keeps_ite (retarget_keeps ((advance_keeps h).frame)) (advance_keeps h)

theorem thermalStepup_keeps {lt : Dword} (h : Keeps a s) : Keeps a (thermalStepup lt s) := by
  unfold thermalStepup
  dsimp only
  split
  · exact advance_keeps h
  · exact keeps_ite (retarget_keeps ((advance_keeps h).frame)) (advance_keeps h)

theorem telemetryUpdate_keeps {lt : Dword} {temps : List (BitVec 16)} {power : BitVec 16}
    (h : Keeps a s) : Keeps a (telemetryUpdate lt temps power s) := by
  unfold telemetryUpdate
  dsimp only
  exact keeps_ite (advance_keeps h) ((advance_keeps h).frame)

theorem beatRateWindow_keeps {lt : Dword} {rates : List (BitVec 16)} (h : Keeps a s) : Keeps a (beatRateWindow lt rates s) := by
  unfold beatRateWindow
  dsimp only
  exact keeps_ite (advance_keeps h) ((advance_keeps h).frame)

theorem calibration_keeps {lt : Dword} (h : Keeps a s) : Keeps a (calibration lt s) := by
  unfold calibration
  exact advance_keeps h

theorem scrubWord_keeps {c aux w : Nat} (h : Keeps a s) : Keeps a (scrubWord c aux s w) := by
  have h1 : Keeps a (if s.t0.corrected w then
      { s with
        t0 := { s.t0 with ce := s.t0.ce.filter fun k => k / 128 != w }
        pwr := { s.pwr with scrubCe := add64 s.pwr.scrubCe 1 } }
    else s) := keeps_ite h.of h
  unfold scrubWord
  dsimp only
  exact keeps_ite (ueFault_keeps h1.frame) h1

theorem scrub_keeps {c : BitVec 8} {lt : Dword} (h : Keeps a s) : Keeps a (scrub c lt s) := by
  unfold scrub
  dsimp only
  exact keeps_ite (advance_keeps h)
    (keeps_ite ((setCore_keeps (keeps_foldl (fun s1 x h1 => scrubWord_keeps h1) (advance_keeps h))).frame)
      (setCore_keeps (keeps_foldl (fun s1 x h1 => scrubWord_keeps h1) (advance_keeps h))))

theorem freeBytes_keeps {n : Nat} (h : Keeps a s) : Keeps a (freeBytes s n).2 := by
  unfold freeBytes
  dsimp only
  exact h.frame

theorem saveStore_keeps {c : Nat} (h : Keeps a s) : Keeps a (saveStore s c) := by
  unfold saveStore
  dsimp only
  exact wr_keeps (freeBytes_keeps (h.of (t1 := fun h => store_wf _ _ _ h)))

theorem saveAll_keeps (h : Keeps a s) : Keeps a (saveAll s) := by
  unfold saveAll
  dsimp only
  exact keeps_foldl (fun s1 x h1 => saveStore_keeps h1) (wr_keeps (freeBytes_keeps h))

theorem restoreStore_keeps {c : Nat} (h : Keeps a s) : Keeps a (restoreStore s c) := by
  unfold restoreStore
  dsimp only
  exact keeps_foldl (fun s1 x h1 => ueFault_keeps h1) (h.of (t0 := fun h => t0Store_wf _ _ _ h))

theorem wakeStores_keeps (h : Keeps a s) : Keeps a (wakeStores s) := by
  unfold wakeStores
  exact keeps_ite (keeps_foldl (fun s1 x h1 => keeps_foldl (fun s11 x1 h11 => scrubWord_keeps h11) h1) h)
    (keeps_ite (keeps_foldl (fun s1 x h1 => restoreStore_keeps h1) h) h)

theorem flipT0_keeps {i : Inject} (h : Keeps a s) : Keeps a (flipT0 s i) := by
  unfold flipT0
  dsimp only
  split
  · exact h
  · split
    · exact h.of (t0 := fun h => h)
    · split
      · exact h.of (t0 := fun h => h)
      · exact h.of (t0 := fun h => h)

theorem flushFlips_keeps (h : Keeps a s) : Keeps a (flushFlips s) := by
  unfold flushFlips
  dsimp only
  exact keeps_foldl (fun s1 x h1 => flipT0_keeps h1) h.frame

theorem enterState_keeps {st : Nat} (h : Keeps a s) : Keeps a (enterState s st) := by
  unfold enterState
  dsimp only
  split
  · exact (saveAll_keeps h).frame
  · exact h.frame

theorem shortWake_keeps (h : Keeps a s) : Keeps a (shortWake s) := by
  unfold shortWake
  dsimp only
  split
  · exact h
  · exact keeps_ite h.frame h

theorem chooseRow_keeps (h : Keeps a s) : Keeps a (chooseRow s) := by
  unfold chooseRow
  dsimp only
  exact keeps_ite h (keeps_ite (enterState_keeps h) (keeps_ite h (keeps_ite (startWake_keeps (shortWake_keeps h)) (startWake_keeps h))))

theorem timedWake_keeps {lt : Dword} (h : Keeps a s) : Keeps a (timedWake lt s) := by
  unfold timedWake
  dsimp only
  split
  · exact advance_keeps h
  · exact keeps_ite (startWake_keeps (advance_keeps h)) (advance_keeps h)

theorem wakeAtReached_keeps {lt : Dword} (h : Keeps a s) : Keeps a (wakeAtReached lt s) := by
  unfold wakeAtReached
  dsimp only
  exact keeps_ite ((advance_keeps h).frame) (advance_keeps h)

theorem afterMove_keeps (h : Keeps a s) : Keeps a (afterMove s) := by
  unfold afterMove
  dsimp only
  exact keeps_ite (answerHeld_keeps (drainInbox_keeps (retarget_keeps h.frame))) (keeps_ite (startWake_keeps h) h)

/-- What S3 and S4 drop of T0 leaves it in canonical form. -/
theorem dropScratch_wf {m : T0Mem} (h : m.bytes.wf = true) : (dropScratch m).bytes.wf = true := filter_wf h

theorem moveDone_keeps {lt : Dword} (h : Keeps a s) : Keeps a (moveDone lt s) := by
  unfold moveDone
  extract_lets s1
  have h1 : Keeps a s1 := advance_keeps h
  split
  · exact h1
  · rename_i m _
    extract_lets s2 s3 pwr s4
    have h2 : Keeps a s2 := keeps_ite (wakeStores_keeps h1) h1
    have h3 : Keeps a s3 := keeps_ite (h2.of (t0 := dropScratch_wf)) h2
    have h4 : Keeps a s4 := tracePower_keeps h3.frame
    exact keeps_ite h1 (afterMove_keeps (keeps_ite (flushFlips_keeps h4) h4))

theorem setPin_keeps {i : Nat} {v : Bool} (h : Keeps a s) : Keeps a (setPin s i v) := by
  unfold setPin
  dsimp only
  exact h.frame

theorem setLevel_keeps {i : Nat} {v : Bool} (h : Keeps a s) : Keeps a (setLevel s i v) := by
  unfold setLevel
  dsimp only
  exact h.frame

theorem seeWake_keeps (h : Keeps a s) : Keeps a (seeWake s) := by
  unfold seeWake
  dsimp only
  exact keeps_ite (setLevel_keeps h) (keeps_ite (wakeEvent_keeps ((setLevel_keeps h).frame)) ((setLevel_keeps h).frame))

theorem seeHalt_keeps (h : Keeps a s) : Keeps a (seeHalt s) := by
  unfold seeHalt
  exact keeps_ite (setLevel_keeps h) (haltEngine_keeps (setLevel_keeps h))

theorem dropHalt_keeps (h : Keeps a s) : Keeps a (dropHalt s) := by
  unfold dropHalt
  dsimp only
  exact (setLevel_keeps h).frame

theorem seeTrip_keeps (h : Keeps a s) : Keeps a (seeTrip s) := by
  unfold seeTrip
  dsimp only
  exact fault_keeps (keeps_ite (setLevel_keeps h) (levelRise_keeps ((setLevel_keeps h).frame)))

theorem seeDroop_keeps (h : Keeps a s) : Keeps a (seeDroop s) := by
  unfold seeDroop
  dsimp only
  exact keeps_ite ((setLevel_keeps h).frame) (levelRise_keeps ((setLevel_keeps h).frame))

theorem dropDroop_keeps (h : Keeps a s) : Keeps a (dropDroop s) := by
  unfold dropDroop
  dsimp only
  exact (setLevel_keeps h).frame

theorem seeInput_keeps {i : Nat} {v : Bool} (h : Keeps a s) : Keeps a (seeInput s i v) := by
  unfold seeInput
  refine keeps_ite h ?_
  split
  · exact seeHalt_keeps h
  · exact dropHalt_keeps h
  · exact seeWake_keeps h
  · exact seeTrip_keeps h
  · exact seeDroop_keeps h
  · exact dropDroop_keeps h
  · exact setLevel_keeps h

theorem pinChange_keeps {i : Nat} {v : Bool} (h : Keeps a s) : Keeps a (pinChange s i v) := by
  unfold pinChange
  dsimp only
  exact keeps_ite (setPin_keeps h) (seeInput_keeps (setPin_keeps h))

theorem throttleEnd_keeps {lt : Dword} (h : Keeps a s) : Keeps a (throttleEnd lt s) := by
  unfold throttleEnd
  dsimp only
  exact keeps_ite ((advance_keeps h).frame) (advance_keeps h)

theorem inputStuck_keeps {input : BitVec 2} {lt : Dword} (h : Keeps a s) : Keeps a (inputStuck input lt s) := by
  unfold inputStuck
  dsimp only
  split
  · exact advance_keeps h
  · exact keeps_ite (advance_keeps h) ((pulse_keeps (fault_keeps (viol_keeps (freeNat_keeps (advance_keeps h))))).frame)

theorem refLoss_keeps (h : Keeps a s) : Keeps a (refLoss s) := by
  unfold refLoss
  dsimp only
  exact keeps_ite h (pulse_keeps (fault_keeps h.of))

theorem refResume_keeps (h : Keeps a s) : Keeps a (refResume s) := by
  unfold refResume
  dsimp only
  exact h.of

theorem evtPulseEnd_keeps {line : BitVec 3} {lt : Dword} (h : Keeps a s) : Keeps a (evtPulseEnd line lt s) := by
  unfold evtPulseEnd
  dsimp only
  exact keeps_ite ((advance_keeps h).frame) (advance_keeps h)

theorem rstRelease_keeps (h : Keeps a s) : Keeps a (rstRelease s) := by
  unfold rstRelease
  dsimp only
  exact keeps_ite h (keeps_ite h.of (keeps_foldl (fun s1 x h1 => seeInput_keeps h1) (keeps_ite (setLevel_keeps h.of) h.of)))

theorem stageImage_wf {img : List Byte} {m : T0Mem} (h : m.bytes.wf = true) : (stageImage img m).bytes.wf = true := by
  unfold stageImage
  generalize List.range Config.cores = l
  induction l generalizing m with
  | nil => exact h
  | cons c l ih =>
    refine ih ?_
    unfold stageCore
    dsimp only
    split
    · exact h
    · exact t0Store_wf _ _ _ h

/-- A staged image. -/
theorem staged_keeps {b : Boot} {img : List Byte} (h : Keeps a s) : Keeps a { s with boot := b, t0 := stageImage img s.t0 } :=
  h.of (t0 := by dsimp only; exact stageImage_wf)

theorem readFlash_keeps {f : List Byte} (h : Keeps a s) : Keeps a (readFlash s f) := by
  unfold readFlash
  dsimp only
  split
  · exact h.frame
  · exact staged_keeps h

theorem bootRead_keeps {sfdp : List Byte} {image : List Byte} {lt : Dword} (h : Keeps a s) : Keeps a (bootRead sfdp image lt s) := by
  unfold bootRead
  dsimp only
  exact keeps_ite (advance_keeps h) (readFlash_keeps ((advance_keeps h).frame))

theorem applySection_keeps {img : List Byte} {x : Section} (h : Keeps a s) : Keeps a (applySection img s x) := by
  have hload : ∀ (sfu : Bool) (l : List (Nat × List Byte)), Keeps a (l.foldl (fun s (i : Nat × List Byte) =>
      { s with tbl := putBank s.tbl sfu false ((bankOf s.tbl sfu false).write i.1 i.2) }) s) := fun sfu l =>
    keeps_foldl (fun _ _ h => h.of (tbl := fun h => putBank_ok (write_wf _ _ (bankOf_ok h)) h)) h
  unfold applySection
  dsimp only
  split
  · exact h.frame
  · exact hload _ _
  · exact hload _ _
  · exact keeps_foldl (fun _ _ h => ctrlWrite_keeps h) h

theorem applyImage_keeps {img : List Byte} (h : Keeps a s) : Keeps a (applyImage img s) := by
  unfold applyImage
  dsimp only
  exact (keeps_foldl (fun s1 x h1 => keeps_foldl (fun s11 x1 h11 => applySection_keeps h11) h1) h.frame).frame

theorem selfTestFailed_keeps {f : SelfTestFail} (h : Keeps a s) : Keeps a (selfTestFailed s f) := by
  unfold selfTestFailed
  dsimp only
  exact fault_keeps h.of

theorem equalBanks_ok {b : Tables} (h : TablesOk b) : TablesOk (equalBanks b) :=
  putBank_ok (bankOf_ok (putBank_ok (bankOf_ok h) h)) (putBank_ok (bankOf_ok h) h)

theorem goReady_keeps (h : Keeps a s) : Keeps a (goReady s) := by
  have h1 : Keeps a { s with
      life := { s.life with ready := true, maint := s.life.recovery, selftestFail := false }
      t0 := {}
      tbl := equalBanks s.tbl } := h.of (t0 := fun _ => rfl) (tbl := equalBanks_ok)
  exact keeps_ite h1 (levelRise_keeps h1)

theorem rereadImage_keeps {f : List Byte} (h : Keeps a s) : Keeps a (rereadImage s f) := by
  unfold rereadImage
  dsimp only
  exact keeps_ite h (readFlash_keeps h.frame)

theorem bootComplete_keeps {reread : List Byte} {test : Option SelfTestFail} {lt : Dword}
    (h : Keeps a s) : Keeps a (bootComplete reread test lt s) := by
  unfold bootComplete
  dsimp only
  refine keeps_ite (advance_keeps h)
    (keeps_ite (rereadImage_keeps (advance_keeps h))
      (keeps_ite ((rereadImage_keeps (advance_keeps h)).frame) (keeps_ite ((rereadImage_keeps (advance_keeps h)).of) ?_)))
  split
  · exact selfTestFailed_keeps ((applyImage_keeps ((rereadImage_keeps (advance_keeps h)).of)).frame)
  · exact goReady_keeps (applyImage_keeps ((rereadImage_keeps (advance_keeps h)).of))

theorem rerunTest_keeps {test : Option SelfTestFail} (h : Keeps a s) (e : rerunTest s test = some t) : Keeps a t := by
  unfold rerunTest at e
  split at e
  · cases e
  · cases e
    split
    · exact selfTestFailed_keeps (h.of (tbl := equalBanks_ok))
    · exact goReady_keeps h

theorem inputCells_keeps (h : Keeps a s) : Keeps a (inputCells s).2 := by
  unfold inputCells
  dsimp only
  exact freeNat_keeps h

theorem capture_keeps (h : Keeps a s) : Keeps a (capture s).2 := by
  unfold capture
  dsimp only
  exact inputCells_keeps h

theorem setInstr_keeps {ir : Nat} (h : Keeps a s) : Keeps a (setInstr s ir) := by
  unfold setInstr
  dsimp only
  exact keeps_ite h.frame
    (keeps_ite (keeps_foldl (fun s1 x h1 => seeInput_keeps h1) h.frame)
      (keeps_ite (keeps_foldl (fun s1 x h1 => seeInput_keeps h1) h.frame)
        (keeps_ite (ackRise_keeps (keeps_foldl (fun s1 x h1 => seeInput_keeps h1) h.frame))
          (ackFall_keeps (keeps_foldl (fun s1 x h1 => seeInput_keeps h1) h.frame)))))

theorem scanBoundary_keeps {ir : Nat} {shift : BitVec 35} (h : Keeps a s) : Keeps a (scanBoundary s ir shift) := by
  unfold scanBoundary
  dsimp only
  exact (capture_keeps (setInstr_keeps h)).frame

theorem scanBypass_keeps {ir : Nat} {shift : BitVec 35} (h : Keeps a s) : Keeps a (scanBypass s ir shift) := by
  unfold scanBypass
  dsimp only
  exact (setInstr_keeps h).frame

theorem extest_keeps {shift : BitVec 35} (h : Keeps a s) : Keeps a (extest shift s) := by
  unfold extest
  exact scanBoundary_keeps h

theorem sample_keeps {shift : BitVec 35} (h : Keeps a s) : Keeps a (sample shift s) := by
  unfold sample
  exact scanBoundary_keeps h

theorem idcodeRow_keeps (h : Keeps a s) : Keeps a (idcodeRow s) := by
  unfold idcodeRow
  dsimp only
  exact (setInstr_keeps h).frame

theorem clamp_keeps {shift : BitVec 35} (h : Keeps a s) : Keeps a (clamp shift s) := by
  unfold clamp
  exact scanBypass_keeps h

theorem highz_keeps {shift : BitVec 35} (h : Keeps a s) : Keeps a (highz shift s) := by
  unfold highz
  exact scanBypass_keeps h

theorem bypassRow_keeps {code : BitVec 4} (h : Keeps a s) : Keeps a (bypassRow code s) := by
  unfold bypassRow
  dsimp only
  exact keeps_ite h ((setInstr_keeps h).frame)

theorem tapReset_keeps (h : Keeps a s) : Keeps a (tapReset s) := by
  unfold tapReset
  exact setInstr_keeps h

theorem answer_keeps {seq : Nat} {first : Char} {t' : List Byte} (h : Keeps a s) : Keeps a (answer s seq first t') := by
  unfold answer
  dsimp only
  exact h.frame

theorem takeLine_keeps {l : List Byte} (h : Keeps a s) : Keeps a (takeLine s l) := by
  unfold takeLine
  dsimp only
  split
  · exact h
  · exact keeps_ite h.frame (keeps_ite h.frame (answer_keeps h))

theorem dropLine_keeps (h : Keeps a s) : Keeps a (dropLine s) := by
  unfold dropLine
  dsimp only
  exact keeps_ite h.frame h

theorem feedByte_keeps {b : Byte} (h : Keeps a s) : Keeps a (feedByte s b) := by
  unfold feedByte
  dsimp only
  exact keeps_ite (takeLine_keeps ((dropLine_keeps h).frame)) ((dropLine_keeps h).frame)

theorem drainFifo_keeps {n : Nat} (h : Keeps a s) : Keeps a (drainFifo n s) := by
  induction n generalizing s with
  | zero => exact h
  | succ n ih =>
    unfold drainFifo
    split
    · exact h
    · split
      · exact h
      · exact ih (feedByte_keeps h.frame)

theorem uartRx_keeps {b : Byte} {stop : Bool} {lt : Dword} (h : Keeps a s) : Keeps a (uartRx b stop lt s) := by
  unfold uartRx
  dsimp only
  exact keeps_ite (advance_keeps h)
    (keeps_ite ((advance_keeps h).frame) (keeps_ite ((advance_keeps h).frame) (drainFifo_keeps ((advance_keeps h).frame))))

theorem uartTx_keeps (h : Keeps a s) : Keeps a (uartTx s) := by
  unfold uartTx
  dsimp only
  split
  · exact h
  · refine keeps_ite h ?_
    split
    · exact h.frame
    · exact keeps_ite h.frame h.frame

theorem lineTimeout_keeps {lt : Dword} (h : Keeps a s) : Keeps a (lineTimeout lt s) := by
  unfold lineTimeout
  exact dropLine_keeps (advance_keeps h)

theorem nonceExpiry_keeps {lt : Dword} (h : Keeps a s) : Keeps a (nonceExpiry lt s) := by
  unfold nonceExpiry
  dsimp only
  split
  · exact advance_keeps h
  · exact keeps_ite ((advance_keeps h).frame) (advance_keeps h)

/-- What the execution of a monitor request keeps, whatever it comes to. -/
def MonKeeps (a : State) : MonRes → Prop
  | .ok _ s => Keeps a s
  | .err _ s => Keeps a s
  | .wait s => Keeps a s

theorem monRow_keeps {head : List String} {level : Nat} {run : State → List (List Byte) → MonRes} (h : Keeps a s)
    (hrun : ∀ s ws, Keeps a s → MonKeeps a (run s ws)) : Keeps a (monRow head level run s) := by
  unfold monRow
  split
  · exact h
  · rename_i seq ws _
    split
    · exact h
    · split
      · exact drainFifo_keeps (answer_keeps h)
      · have h1 := hrun s (ws.drop head.length) h
        split
        · rename_i e
          rw [e] at h1
          exact drainFifo_keeps (answer_keeps h1)
        · rename_i e
          rw [e] at h1
          exact drainFifo_keeps (answer_keeps h1)
        · rename_i e
          rw [e] at h1
          exact h1

theorem readWords_keeps {n x : Nat} (h : Keeps a s) : Keeps a (readWords n s x).2 := by
  induction n generalizing s x with
  | zero => exact h
  | succ n ih => exact ih (ctrlRead_keeps h)

theorem traceDrop_keeps (h : Keeps a s) : Keeps a (traceDrop s) := by
  unfold traceDrop
  dsimp only
  exact keeps_ite h.frame h

theorem stageRound_keeps {e' : RoundEntry} {o : ArrOp} {round : Nat} {phase : Nat} {l : List Slice}
    (h : Keeps a s) : Keeps a (stageRound s e' o round phase l) := by
  unfold stageRound
  dsimp only
  exact Keeps.withJob h (fun s1 j h1 => keeps_ite h1 (issueReads_keeps (setJob_keeps h1)))

theorem dropStaged_keeps {q : Nat} {n : Nat} {round : Nat} (h : Keeps a s) : Keeps a (dropStaged s q n round) := by
  unfold dropStaged
  exact Keeps.withJob h (fun s1 j h1 => setJob_keeps h1)

theorem stageNext_keeps (h : Keeps a s) : Keeps a (stageNext s) := by
  unfold stageNext
  dsimp only
  split
  · exact h
  · exact keeps_ite h (stageRound_keeps h)

theorem roundStart_keeps (h : Keeps a s) : Keeps a (roundStart s) := by
  unfold roundStart
  dsimp only
  refine keeps_ite h ?_
  split
  · exact h
  · exact stageNext_keeps ((stageRound_keeps h).frame)

theorem hopEnd_keeps (h : Keeps a s) : Keeps a (hopEnd s) := by
  unfold hopEnd
  dsimp only
  exact keeps_ite h
    (keeps_ite ((keeps_foldl (fun s1 x h1 => bubbles_keeps h1) h).frame)
      (dropStaged_keeps ((keeps_foldl (fun s1 x h1 => bubbles_keeps h1) h).frame)))

theorem runStep_keeps {j : Job} {sids : List Nat} (h : Keeps a s) : Keeps a (runStep s j sids) := by
  unfold runStep
  dsimp only
  exact Keeps.withJob (withMembers_keeps h)
    (fun s1 j1 h1 =>
      keeps_ite (unparkAll_keeps h1) (Keeps.withJob (unparkAll_keeps h1) (fun s11 j2 h11 => settle_keeps (trace_keeps (setJob_keeps h11)))))

theorem stepRow_keeps {q : BitVec 6} {n : BitVec 16} (h : Keeps a s) : Keeps a (stepRow q n s) := by
  unfold stepRow
  exact startRow_keeps h (fun s1 j x h1 => runStep_keeps h1)

theorem popMany_keeps {res : Option Nat} {k : Nat} {r : List Nat × List Nat × State} (h : Keeps a s) (e : popMany res k s = some r) :
    Keeps a r.2.2 := by
  induction k generalizing s r with
  | zero =>
    cases e
    exact h
  | succ k ih =>
    unfold popMany at e
    split at e
    · cases e
    · rename_i u hpop
      have h1 : Keeps a u := by
        split at hpop
        · exact popReserve_keeps h hpop
        · exact popFrame_keeps h hpop
      split at e
      · cases e
      · rename_i hdesc
        obtain ⟨v, hv, rfl⟩ := Option.map_eq_some_iff.1 e
        exact ih (r := v) (popDesc_keeps h1 hdesc) hv

theorem takeNeed_keeps {j : Job} {i core need : Nat} {tok : Bool} {fs ds : List Nat} (h : Keeps a s)
    (e : takeNeed s j i core need = some (tok, fs, ds, t)) : Keeps a t := by
  unfold takeNeed at e
  dsimp only at e
  split at e
  · rename_i r hpool
    cases e
    split at hpool
    · cases hpool
      exact h
    · split at hpool
      · cases hpool
      · exact popMany_keeps h hpool
  · split at e
    · cases e
    · obtain ⟨r, hr, e⟩ := Option.map_eq_some_iff.1 e
      cases e
      exact setCore_keeps (popMany_keeps h hr)

theorem setMember_keeps {q : Nat} {n : Nat} {i : Nat} {f : Member → Member} (h : Keeps a s) : Keeps a (setMember s q n i f) := by
  unfold setMember
  refine Keeps.withJob h (fun s1 j h1 => ?_)
  split
  · exact setJob_keeps h1
  · exact h1

theorem reachMember_keeps {j : Job} {x : Ctx} {y : Slot} {m : Member} {es : List Entry}
    (h : Keeps a s) : Keeps a (reachMember s j x y m es).2 := by
  unfold reachMember
  dsimp only
  refine keeps_foldl_snd (fun p x1 h1 => ?_) (touchAll_keeps h)
  split
  · exact reachKv_keeps h1
  · exact h1

theorem fetchMember_keeps {j : Job} {x : Ctx} {i : Nat} {m : Member} {es : List Entry}
    (h : Keeps a s) : Keeps a (fetchMember s j x i m es).2 := by
  unfold fetchMember
  dsimp only
  exact issueReads_keeps (keeps_ite h (setJob_keeps h))

theorem breakStep_keeps {q : Nat} {n : Nat} {b : Nat × Nat × Nat} (h : Keeps a s) : Keeps a (breakStep s q n b) := by
  unfold breakStep
  dsimp only
  exact Keeps.withJob h (fun s1 j h1 => Keeps.withJob (keeps_foldl (fun s11 x h11 => endMember_keeps h11) h1) (fun s11 j1 h11 => malform_keeps h11))

/-- What the run of a member's entries keeps, where it does not break off. -/
def RanKeeps (a : State) : Ran → Prop
  | .ok l => Keeps a l.s
  | _ => True

theorem keepTiles_keeps {l r : Layers} {q n core : Nat} {y : Slot} {outs : List Tensor} {ts : List Tile} (h : Keeps a l.s)
    (e : keepTiles l q n core y outs ts = some r) : Keeps a r.s := by
  unfold keepTiles at e
  obtain ⟨u, hu, rfl⟩ := Option.map_eq_some_iff.1 e
  dsimp only
  clear e
  induction ts generalizing l with
  | nil =>
    cases hu
    exact h
  | cons t ts ih =>
    rw [List.foldl_cons, Option.bind_some] at hu
    cases hw : writeRuns true q n core plainKv l.s t.wr with
    | none =>
      rw [hw, Option.map_none] at hu
      have hnone : ∀ (f : Layers → Tile → Option Layers) (ts : List Tile),
          ts.foldl (fun (o : Option Layers) t => o.bind fun l => f l t) none = none := fun f ts => by
        induction ts with
        | nil => rfl
        | cons y l ih => exact ih
      rw [hnone] at hu
      cases hu
    | some v =>
      rw [hw, Option.map_some] at hu
      exact ih (bubbles_keeps (count_keeps (count_keeps (writeRuns_keeps h hw)))) hu

theorem runEntry_keeps {q n core : Nat} {y : Slot} {j : Job} {l : Layers} {c : List Byte × Nat} (h : Keeps a l.s) :
    RanKeeps a (runEntry q n core y j l c) := by
  unfold runEntry
  split
  · trivial
  · rename_i e _
    have h1 : Keeps a (if l.x.written.isEmpty then { l with s := logUnmapped l.s j.loc (inPages l.s l.x e) } else l).s := by
      split
      · exact logUnmapped_keeps h
      · exact h
    generalize (if l.x.written.isEmpty then { l with s := logUnmapped l.s j.loc (inPages l.s l.x e) } else l) = l at h1
    dsimp only
    have h2 : ∀ k, Keeps a (countNeaps (noteState l.s l.x e.ins) q n k) := fun k => countNeaps_keeps (noteState_keeps h1)
    split
    · split
      · trivial
      · split
        · rename_i hk
          exact keepTiles_keeps (h2 _) hk
        · trivial
    · rename_i o _
      generalize (o.compat && decide (2 ^ 20 < (if o.win == 0 then y.pos + 1 else min o.win (y.pos + 1)))) = late
      split
      · trivial
      · split
        · trivial
        · rename_i hw
          split
          · trivial
          · split
            · rename_i hk
              exact keepTiles_keeps (countNeaps_keeps (logUnmapped_keeps (writeRuns_keeps (h2 _) hw))) hk
            · trivial

theorem runEntries_keeps {q n core : Nat} {y : Slot} {j : Job} {cs : List (List Byte × Nat)} {l : Layers} (h : Keeps a l.s) :
    RanKeeps a (runEntries q n core y j cs l) := by
  induction cs generalizing l with
  | nil => exact h
  | cons c cs ih =>
    have h1 := runEntry_keeps (q := q) (n := n) (core := core) (y := y) (j := j) (c := c) h
    unfold runEntries
    split
    · rename_i e
      rw [e] at h1
      exact ih h1
    · exact h1

theorem issueMember_keeps {j : Job} {i : Nat} {m : Member} {k : Nat} {y : Slot} {es : List Entry} (h : Keeps a s) :
    Keeps a (issueMember s j i m k y es) := by
  unfold issueMember
  dsimp only
  split
  · exact setMember_keeps h
  · rename_i tok fs ds s1 hneed
    split
    · exact breakStep_keeps h
    · exact setMember_keeps h
    · rename_i e
      have h0 : Keeps a { setSlotState s1 k y 2 with pg := { (setSlotState s1 k y 2).pg with allot := some (fs, ds) } } :=
        (setSlotState_keeps (takeNeed_keeps h hneed)).frame
      have h1 := runEntries_keeps (q := j.q) (n := j.n) (core := m.core) (y := y) (j := j) (cs := (programOf s j.cmd).zipIdx)
        (l := ⟨_, j.memberCtx i m.sid, Rep.nil, 0, 0, 0, false⟩) h0
      rw [e] at h1
      exact pumpWrites_keeps (setMember_keeps (Keeps.withJob h1.frame fun _ _ h => setJob_keeps h))

theorem tryMember_keeps {j : Job} {i : Nat} {m : Member} (h : Keeps a s) : Keeps a (tryMember s j i m) := by
  unfold tryMember
  dsimp only
  split
  · exact settle_keeps (endMember_keeps h)
  · refine keeps_ite (settle_keeps (endMember_keeps h)) ?_
    split
    · exact unparkAll_keeps h
    · refine keeps_ite (settle_keeps (endMember_keeps h)) (keeps_ite h ?_)
      split
      · exact breakStep_keeps (setMember_keeps h)
      · exact keeps_ite (reachMember_keeps (setMember_keeps h))
          (Keeps.withJob (reachMember_keeps (setMember_keeps h))
            (fun s1 j1 h1 =>
              keeps_ite (fetchMember_keeps h1)
                (Keeps.withJob (fetchMember_keeps h1) (fun s11 j2 h11 => issueMember_keeps (noteLanded_keeps h11)))))

theorem memberIssue_keeps {q : BitVec 6} {n : BitVec 16} {r : BitVec 12} (h : Keeps a s) : Keeps a (memberIssue q n r s) := by
  unfold memberIssue
  refine Keeps.withJob h (fun s1 j h1 => ?_)
  split
  · exact h1
  · exact keeps_ite h1 (tryMember_keeps h1)

theorem commitMember_keeps {j : Job} {i : Nat} {m : Member} (h : Keeps a s) : Keeps a (commitMember s j i m) := by
  unfold commitMember
  dsimp only
  split
  · exact h
  · exact settle_keeps (endMember_keeps (Keeps.withJob (count_keeps (count_keeps (report_keeps (putSeq_keeps h)))) (fun s1 j1 h1 => setJob_keeps h1)))

theorem memberCommit_keeps {q : BitVec 6} {n : BitVec 16} {r : BitVec 12} (h : Keeps a s) : Keeps a (memberCommit q n r s) := by
  unfold memberCommit
  refine Keeps.withJob (Keeps.withJob h (fun s1 j h1 => keeps_ite (settle_keeps (missMembers_keeps h1)) h1)) (fun s1 j h1 => ?_)
  split
  · exact h1
  · exact keeps_ite (commitMember_keeps h1) h1

theorem exhaust_keeps {j : Job} {i : Nat} {m : Member} (h : Keeps a s) : Keeps a (exhaust s j i m) := by
  unfold exhaust
  dsimp only
  refine settle_keeps (endMember_keeps (fault_keeps ?_))
  split
  · exact putSeq_keeps h
  · exact h

theorem pageExhausted_keeps {q : BitVec 6} {n : BitVec 16} {r : BitVec 12} (h : Keeps a s) : Keeps a (pageExhausted q n r s) := by
  unfold pageExhausted
  refine Keeps.withJob h (fun s1 j h1 => keeps_ite ?_ (keeps_ite (endJob_keeps h1) h1))
  split
  · exact h1
  · exact keeps_ite (exhaust_keeps h1) h1

theorem mon_ite {c : Prop} [Decidable c] {r r' : MonRes} (h : MonKeeps a r) (h' : MonKeeps a r') : MonKeeps a (if c then r else r') := by
  split
  · exact h
  · exact h'

theorem noArgs_keeps {f : State → MonRes} {ws : List (List Byte)} (h : Keeps a s) (hf : MonKeeps a (f s)) : MonKeeps a (noArgs f s ws) :=
  mon_ite hf h

theorem whenAwake_keeps {r : MonRes} (h : Keeps a s) (hr : MonKeeps a r) : MonKeeps a (whenAwake s r) := mon_ite hr (wakeEvent_keeps h)

theorem monChal_keeps {e : BitVec 64} (h : Keeps a s) : MonKeeps a (monChal e s) := mon_ite h h.frame

theorem monUnlk_keeps {ws : List (List Byte)} (h : Keeps a s) : MonKeeps a (monUnlk s ws) := by
  unfold monUnlk
  split
  · split
    · exact mon_ite h (mon_ite h.frame (mon_ite h.frame (fault_keeps h.frame)))
    · exact h
    · exact h
  · exact h

theorem monRd_keeps {ws : List (List Byte)} (h : Keeps a s) : MonKeeps a (monRd s ws) := by
  have hgo : ∀ x n, MonKeeps a (.ok (fields ((readWords n s x).1.map (hexN 8))) (readWords n s x).2) := fun _ _ => readWords_keeps h
  unfold monRd
  dsimp only
  split
  · exact mon_ite h (mon_ite (hgo _ _) (whenAwake_keeps h (hgo _ _)))
  · exact mon_ite h (mon_ite (hgo _ _) (whenAwake_keeps h (hgo _ _)))
  · exact h

theorem monWr_keeps {ws : List (List Byte)} (h : Keeps a s) : MonKeeps a (monWr s ws) := by
  unfold monWr
  split
  · have hw : ∀ x v, MonKeeps a (.ok okText (ctrlWrite s x v)) := fun _ _ => ctrlWrite_keeps h
    exact mon_ite h (mon_ite (hw _ _) (whenAwake_keeps h (hw _ _)))
  · exact h

theorem monMd_keeps {ws : List (List Byte)} (h : Keeps a s) : MonKeeps a (monMd s ws) := by
  unfold monMd
  split
  · exact mon_ite h (whenAwake_keeps h h)
  · exact h

theorem monHaltCmd_keeps {ws : List (List Byte)} (h : Keeps a s) : MonKeeps a (monHaltCmd s ws) := by
  unfold monHaltCmd
  split
  · exact haltEngine_keeps h
  · exact mon_ite h h.frame
  · exact h

theorem monRes_keeps {ws : List (List Byte)} (h : Keeps a s) : MonKeeps a (monRes s ws) := by
  unfold monRes
  split
  · exact (haltRelease_keeps h).frame
  · exact mon_ite h h.frame
  · exact h

theorem monBp_keeps {ws : List (List Byte)} (h : Keeps a s) : MonKeeps a (monBp s ws) := by
  unfold monBp
  dsimp only
  split
  · split
    · exact mon_ite h (mon_ite h h.frame)
    · exact h
  · split
    · exact mon_ite h (mon_ite h h.frame)
    · exact h
  · exact h

theorem monCnt_keeps {ws : List (List Byte)} (h : Keeps a s) : MonKeeps a (monCnt s ws) := by
  unfold monCnt
  split
  · exact whenAwake_keeps h h
  · exact mon_ite h (whenAwake_keeps h h)
  · exact h

theorem monTrOn_keeps {ws : List (List Byte)} (h : Keeps a s) : MonKeeps a (monTrOn s ws) := by
  unfold monTrOn
  split
  · exact mon_ite h h.frame
  · exact h

theorem armArgs_keeps {k : Nat} {l : List Nat} {ws : List (List Byte)} (h : Keeps a s) : MonKeeps a (armArgs k l s ws) := by
  unfold armArgs
  split
  · exact h
  · exact mon_ite h (mon_ite h (mon_ite h (mon_ite (flipT0_keeps h) h.frame)))

theorem monStest_keeps {test : Option SelfTestFail} (h : Keeps a s) : MonKeeps a (monStest test s) := by
  unfold monStest
  refine whenAwake_keeps h ?_
  split
  · exact h
  · rename_i e
    exact rerunTest_keeps h e

theorem monBaud_keeps {ws : List (List Byte)} (h : Keeps a s) : MonKeeps a (monBaud s ws) := by
  unfold monBaud
  split
  · exact mon_ite h h.frame
  · exact h

/-- What the outcome of a command keeps. -/
def OutcomeKeeps (a : State) : Host.Outcome State Fault Refusal → Prop
  | .next t => Keeps a t
  | _ => True

/-- Every command but the assertion of RST_N. -/
theorem exec_keeps {c : Instr} (hc : c ≠ .rstNAssert) (h : Keeps a s) : OutcomeKeeps a (exec c s) :=
  match c with
  | .commandTake _ => fetchAhead_keeps (commandTake_keeps h)
  | .dependencyRelease _ _ => fetchAhead_keeps (dependencyRelease_keeps h)
  | .mma _ _ => arrayRow_keeps h
  | .dmm _ _ => arrayRow_keeps h
  | .conv _ _ => arrayRow_keeps h
  | .scan _ _ => scanRow_keeps h
  | .stepCmd _ _ => stepRow_keeps h
  | .attn _ _ => attnCmd_keeps h
  | .vec _ _ => vecRow_keeps h
  | .sfn _ _ => sfnRow_keeps h
  | .norm _ _ => normRow_keeps h
  | .smax _ _ => smaxRow_keeps h
  | .topk _ _ => topkRow_keeps h
  | .copy _ _ => copyRow_keeps h
  | .fill _ _ => fillRow_keeps h
  | .admitCmd _ _ => admitRow_keeps h
  | .park _ _ => parkRow_keeps h
  | .unpark _ _ => parkRow_keeps h
  | .pin _ _ => parkRow_keeps h
  | .unpin _ _ => parkRow_keeps h
  | .fork _ _ => forkRow_keeps h
  | .retire _ _ => retireRow_keeps h
  | .pageRise _ _ => pageRow_keeps h
  | .pageFall _ _ => pageRow_keeps h
  | .fence _ _ => fenceRow_keeps h
  | .barrier _ _ => barrierRow_keeps h
  | .barrierArrival _ _ => barrierArrival_keeps h
  | .signal _ _ => signalRow_keeps h
  | .waitCmd _ _ => waitRow_keeps h
  | .reduce _ _ => reduceRow_keeps h
  | .tableCmd _ _ => tableRow_keeps h
  | .tableReloadStart _ _ => tableReloadStart_keeps h
  | .epochSwitch _ => epochSwitch_keeps h
  | .nop _ _ => nopRow_keeps h
  | .qDoorbell _ _ => portWrite_keeps h
  | .qCancel _ _ => portWrite_keeps h
  | .engFlags _ => portWrite_keeps h
  | .recover => portWrite_keeps h
  | .service => portWrite_keeps h
  | .faultClear _ => portWrite_keeps h
  | .vlogClear _ => portWrite_keeps h
  | .haltRel => portWrite_keeps h
  | .wakeRearm => portWrite_keeps h
  | .thermRearm => portWrite_keeps h
  | .droopClr => portWrite_keeps h
  | .clearCounters _ => portWrite_keeps h
  | .freezeCounters _ => portWrite_keeps h
  | .slotFind _ => portWrite_keeps h
  | .slotSel _ => portWrite_keeps h
  | .slotWin0Read => portRead_keeps h
  | .tblDataRead => portRead_keeps h
  | .tblDataWrite _ => portWrite_keeps h
  | .cwDataRead _ => portRead_keeps h
  | .cwDataWrite _ _ => portWrite_keeps h
  | .reg64LowRead _ => portRead_keeps h
  | .reg64LowWrite _ _ => portWrite_keeps h
  | .reg64HighWrite _ _ => portWrite_keeps h
  | .casEnable _ => portWrite_keeps h
  | .casDisable => portWrite_keeps h
  | .regWrite _ _ => portWrite_keeps h
  | .streamReadData _ _ _ _ _ _ _ => streamReadData_keeps h
  | .streamWriteAck _ _ _ => commitFalls_keeps (streamWriteAck_keeps h)
  | .streamCreditGrant _ _ _ => streamCreditGrant_keeps h
  | .shelfReadData _ _ _ _ _ _ => shelfReadData_keeps h
  | .shelfWriteAck _ _ => commitFalls_keeps (shelfWriteAck_keeps h)
  | .linkCreditGrant _ _ => linkCreditGrant_keeps h
  | .tagTimeout _ _ _ => tagTimeout_keeps h
  | .joinMsg _ => recvMsg_keeps h
  | .joinRetry _ => joinRetry_keeps h
  | .welcomeMsg _ => recvMsg_keeps h
  | .startMsg _ => recvMsg_keeps h
  | .refuseMsg _ => recvMsg_keeps h
  | .arriveMsg _ => recvMsg_keeps h
  | .releaseMsg _ => recvMsg_keeps h
  | .contrib _ => recvMsg_keeps h
  | .resultMsg _ => recvMsg_keeps h
  | .creditMsg _ => recvMsg_keeps h
  | .nak _ => recvMsg_keeps h
  | .abandon _ => recvMsg_keeps h
  | .commitMsg _ => recvMsg_keeps h
  | .stepCommit => stepCommit_keeps h
  | .repeatMsg _ => recvMsg_keeps h
  | .stepRepeat _ => stepRepeat_keeps h
  | .repeatAck _ => recvMsg_keeps h
  | .resumeMsg _ => recvMsg_keeps h
  | .cascadeHalt _ => recvMsg_keeps h
  | .aperWr _ => recvMsg_keeps h
  | .aperRd _ => recvMsg_keeps h
  | .aperData _ => recvMsg_keeps h
  | .aperAck _ => recvMsg_keeps h
  | .steal _ => stealRow_keeps h
  | .clusterPollTimeout _ _ => clusterPoll_keeps h
  | .sequenceBalance => sequenceBalance_keeps h
  | .migrationComplete _ => migrationComplete_keeps h
  | .preemption _ _ _ => preemptRow_keeps h
  | .itemResume _ => resumeRow_keeps h
  | .swap _ => swapRow_keeps h
  | .saturationEvent _ => saturationRow_keeps h
  | .openSetDrain _ => drainRow_keeps h
  | .tileCommit _ _ => tileCommit_keeps h
  | .hopPeriodEnd => hopEnd_keeps h
  | .roundStart => roundStart_keeps h
  | .seamCarryReady _ _ _ _ => seamCarryReady_keeps h
  | .memberIssue _ _ _ => memberIssue_keeps h
  | .memberCommit _ _ _ => memberCommit_keeps h
  | .pageExhausted _ _ _ => pageExhausted_keeps h
  | .slotWaitEnd _ _ => slotWaitEnd_keeps h
  | .parkComplete _ => parkComplete_keeps h
  | .unparkComplete _ => unparkComplete_keeps h
  | .evictor => evictor_keeps h
  | .fallCommit _ => fallCommit_keeps h
  | .riseComplete _ => riseComplete_keeps h
  | .neapStreamDeadline _ _ => neapStreamDeadline_keeps h
  | .deadlineMiss _ _ _ => deadlineMiss_keeps h
  | .completionRecord _ _ => fetchAhead_keeps (completionRecord_keeps h)
  | .quiescent => chooseRow_keeps h
  | .timedWake _ => timedWake_keeps h
  | .wakeAtReached _ => wakeAtReached_keeps h
  | .setpointChange => setpointChange_keeps h
  | .vackRise => vackRise_keeps h
  | .vackFall => vackFall_keeps h
  | .vackLate _ => vackLate_keeps h
  | .thermalStepdown _ => thermalStepdown_keeps h
  | .thermalStepup _ => thermalStepup_keeps h
  | .beatRateWindow _ _ => beatRateWindow_keeps h
  | .telemetryUpdate _ _ _ => telemetryUpdate_keeps h
  | .calibration _ => calibration_keeps h
  | .scrub _ _ => scrub_keeps h
  | .evtPulseEnd _ _ => evtPulseEnd_keeps h
  | .wakeReq _ => pinChange_keeps (advance_keeps h)
  | .haltReq => pinChange_keeps h
  | .haltReqDeassert => pinChange_keeps h
  | .thermTrip => pinChange_keeps h
  | .thermTripDeassert => pinChange_keeps h
  | .droopWarn => pinChange_keeps h
  | .droopWarnDeassert _ => pinChange_keeps (advance_keeps h)
  | .throttleEnd _ => throttleEnd_keeps h
  | .inputStuck _ _ => inputStuck_keeps h
  | .refLoss => refLoss_keeps h
  | .refResume => refResume_keeps h
  | .rstNAssert => absurd rfl hc
  | .rstNRelease => rstRelease_keeps h
  | .bootRead _ _ _ => bootRead_keeps h
  | .bootComplete _ _ _ => bootComplete_keeps h
  | .extest _ => extest_keeps h
  | .sample _ => sample_keeps h
  | .idcode => idcodeRow_keeps h
  | .clamp _ => clamp_keeps h
  | .highz _ => highz_keeps h
  | .bypass _ => bypassRow_keeps h
  | .tapReset => tapReset_keeps h
  | .uartRxFrame _ _ _ => uartRx_keeps h
  | .monitorLineTimeout _ => lineTimeout_keeps h
  | .nonceExpiry _ => nonceExpiry_keeps h
  | .idCmd => monRow_keeps h fun _ _ h => noArgs_keeps h h
  | .chal _ => monRow_keeps h fun _ _ h => noArgs_keeps h (monChal_keeps h)
  | .unlk => monRow_keeps h fun _ _ h => monUnlk_keeps h
  | .lockCmd => monRow_keeps h fun _ _ h => noArgs_keeps h h.frame
  | .stCmd => monRow_keeps h fun _ _ h => noArgs_keeps h h
  | .rdCmd => monRow_keeps h fun _ _ h => monRd_keeps h
  | .wrCmd => monRow_keeps h fun _ _ h => monWr_keeps h
  | .mdCmd => monRow_keeps h fun _ _ h => monMd_keeps h
  | .monitorHalt => monRow_keeps h fun _ _ h => monHaltCmd_keeps h
  | .monitorRes => monRow_keeps h fun _ _ h => monRes_keeps h
  | .bpCmd => monRow_keeps h fun _ _ h => monBp_keeps h
  | .cntCmd => monRow_keeps h fun _ _ h => monCnt_keeps h
  | .trOn => monRow_keeps h fun _ _ h => monTrOn_keeps h
  | .trOff => monRow_keeps h fun _ _ h => noArgs_keeps h h.frame
  | .trSt => monRow_keeps h fun _ _ h => noArgs_keeps h h
  | .traceDrop => traceDrop_keeps h
  | .injT0c => monRow_keeps h fun _ _ h => armArgs_keeps h
  | .injT0u => monRow_keeps h fun _ _ h => armArgs_keeps h
  | .injPpoi => monRow_keeps h fun _ _ h => armArgs_keeps h
  | .injTdrop => monRow_keeps h fun _ _ h => armArgs_keeps h
  | .injDln => monRow_keeps h fun _ _ h => armArgs_keeps h
  | .injCdrop => monRow_keeps h fun _ _ h => armArgs_keeps h
  | .injVack => monRow_keeps h fun _ _ h => armArgs_keeps h
  | .injClr => monRow_keeps h fun _ _ h => noArgs_keeps h h.frame
  | .injSt => monRow_keeps h fun _ _ h => noArgs_keeps h h
  | .stest _ _ => monRow_keeps (advance_keeps h) fun _ _ h => noArgs_keeps h (monStest_keeps h)
  | .baud => monRow_keeps h fun _ _ h => monBaud_keeps h
  | .wakeReqDeassert _ => pinChange_keeps (advance_keeps h)
  | .controlPortRead _ => portRead_keeps h
  | .uartTxCharacterEnd => uartTx_keeps h
  | .powerStateChangeComplete _ => moveDone_keeps h

/-- With RST_N low T1, the shelf and the fuses are as they were; T0 and the tables are as after reset. -/
theorem inReset_memory (h : MemoryOk s) : MemoryOk (inReset s) := by
  obtain ⟨h1, -, hs, -⟩ := h
  have hT : TablesOk (State.reset).tbl := by decide
  exact ⟨h1, rfl, hs, hT⟩

/-- Settles O6: of the commands only RST_N sets the local time back. -/
theorem localTimeNeverGoesBack : Obligations.LocalTimeNeverGoesBack := by
  unfold Obligations.LocalTimeNeverGoesBack
  intro c s s' hlt hc e
  have h := exec_keeps hc (Keeps.refl s)
  rw [e] at h
  exact h.time hlt

theorem exec_fuse_pending {c : Instr} (e : exec c s = .next t) : t.fuse = s.fuse ∧ t.pending = s.pending := by
  by_cases hc : c = .rstNAssert
  · subst hc
    cases e
    exact ⟨rfl, rfl⟩
  · have h := exec_keeps hc (Keeps.refl s)
    rw [e] at h
    exact ⟨h.fuse, h.pending⟩

/-- Settles O5. -/
theorem commandsLeaveFusesAndQueue : Obligations.CommandsLeaveFusesAndQueue := by
  unfold Obligations.CommandsLeaveFusesAndQueue
  exact ⟨fun _ _ _ e => (exec_fuse_pending e).1, fun _ _ _ e => (exec_fuse_pending e).2⟩

theorem exec_memory {c : Instr} (h : MemoryOk s) (e : exec c s = .next t) : MemoryOk t := by
  by_cases hc : c = .rstNAssert
  · subst hc
    cases e
    exact inReset_memory h
  · have hk := exec_keeps hc (Keeps.refl s)
    rw [e] at hk
    exact hk.memory h

theorem tick_memory (h : MemoryOk s) : MemoryOk (tick s) := by
  unfold tick
  split
  · exact h
  · exact h

/-- Settles O3: a step is the tick of local time, or the meaning of the command at the front of the queue. -/
theorem stepKeepsMemoryCanonical : Obligations.StepKeepsMemoryCanonical := by
  unfold Obligations.StepKeepsMemoryCanonical
  intro s s' h e
  unfold step at e
  split at e
  · cases e
    exact tick_memory h
  · rename_i rest _
    exact exec_memory (s := { s with pending := rest }) h e
end Sys2Proof.Proofs
end

section
set_option Elab.async false
/-! The machine, its memory and its reset. -/
namespace Sys2Proof.Proofs
open Sys2Proof Sys2Proof.Machine Sys2Proof.Laws Sys2Proof.Safety

/-- Settles O1: a step looks at the queue only. -/
theorem stepRunsFrontCommand : Obligations.StepRunsFrontCommand := by
  unfold Obligations.StepRunsFrontCommand
  intro c rest s h
  simp only [step, h]

theorem step_idle {s : State} (h : s.pending = []) : step s = .next (tick s) := by
  simp only [step, h]

theorem stallTime_eq (s : State) (d : Nat) :
    stallTime s d = { s.str with seen := (stallTime s d).seen, cnt := (stallTime s d).cnt } := by
  unfold stallTime
  split <;> rfl

/-- Settles O2. -/
theorem idleStepPassesTime : Obligations.IdleStepPassesTime := by
  unfold Obligations.IdleStepPassesTime
  intro s h
  refine ⟨tick s, step_idle h, ?_⟩
  by_cases hr : TimeRuns s
  · have ht : tick s = passTime s 1 := by simp [tick, hr.1, hr.2]
    rw [ht]
    exact ⟨fun hn => absurd hr hn, fun _ => rfl, rfl, rfl, rfl, stallTime_eq s 1, rfl, rfl⟩
  · have ht : tick s = s := by
      cases hl : s.life.refLost <;> cases hw : s.life.rstLow <;> simp_all [tick]
    rw [ht]
    exact ⟨fun _ => rfl, fun hp => absurd hp hr, rfl, rfl, rfl, rfl, rfl, rfl⟩

/-- Settles O4: every memory is empty. -/
theorem resetMemoryCanonical : Obligations.ResetMemoryCanonical := by
  unfold Obligations.ResetMemoryCanonical
  decide

/-- Settles O60. -/
theorem registersReadTheirResetValues : Obligations.RegistersReadTheirResetValues := by
  unfold Obligations.RegistersReadTheirResetValues
  decide

/-! ### What a memory reads (log 3) -/

theorem get_of_absent {m : Memory} {x : Nat} (h : ∀ c ∈ m, c.1 ≠ x) : m.get x = 0 := by
  induction m with
  | nil => rfl
  | cons c m ih =>
    rw [Memory.get, if_neg (h c (by simp))]
    exact ih fun c hc => h c (by simp [hc])

theorem get_append_of_absent {m n : Memory} {x : Nat} (h : ∀ c ∈ m, c.1 ≠ x) : Memory.get (m ++ n) x = n.get x := by
  induction m with
  | nil => rfl
  | cons c m ih =>
    rw [List.cons_append, Memory.get, if_neg (h c (by simp))]
    exact ih fun c hc => h c (by simp [hc])

theorem get_append_of_absent_right {m n : Memory} {x : Nat} (h : ∀ c ∈ n, c.1 ≠ x) : Memory.get (m ++ n) x = m.get x := by
  induction m with
  | nil => exact get_of_absent h
  | cons c m ih => simp only [List.cons_append, Memory.get, ih]

/-- Cells left out by their addresses. -/
theorem get_filter (m : Memory) (p : Nat → Bool) (x : Nat) :
    Memory.get (m.filter fun c => p c.1) x = if p x then m.get x else 0 := by
  induction m with
  | nil => simp [Memory.get]
  | cons c m ih =>
    rw [List.filter_cons]
    by_cases hc : c.1 = x
    · subst hc
      cases hp : p c.1 <;> simp_all [Memory.get]
    · cases hp : p c.1 <;> simp [Memory.get, hc, ih]

/-- The cells of a run of bytes read as the bytes. -/
theorem get_cellsOf (bs : List Byte) (a x : Nat) :
    (cellsOf a bs).get x = if a ≤ x ∧ x < a + bs.length then bs.getD (x - a) 0 else 0 := by
  induction bs generalizing a with
  | nil => simp [cellsOf, Memory.get]
  | cons b bs ih =>
    have htail : a ≠ x → ((cellsOf (a + 1) bs).get x = if a ≤ x ∧ x < a + (b :: bs).length then (b :: bs).getD (x - a) 0 else 0) := by
      intro hne
      rw [ih]
      by_cases hx : a < x
      · obtain ⟨k, rfl⟩ := Nat.exists_eq_add_of_lt hx
        have hk : a + k + 1 - a = k + 1 := by omega
        simp only [List.length_cons, hk, List.getD_cons_succ]
        have h1 : a + k + 1 - (a + 1) = k := by omega
        rw [h1]
        congr 1
        exact propext (by omega)
      · rw [if_neg (by omega), if_neg (by omega)]
    have hhead : a = x → (if a ≤ x ∧ x < a + (b :: bs).length then (b :: bs).getD (x - a) 0 else 0) = b := by
      rintro rfl
      simp
    unfold cellsOf
    by_cases hx : a = x
    · rw [hhead hx]
      split
      · next hb =>
        rw [hb]
        exact get_of_absent fun c hc => by have := ((cellsOf_spec bs (a + 1)).1 c hc).1; omega
      · rw [Memory.get, if_pos hx]
    · rw [← htail hx]
      split
      · rfl
      · rw [Memory.get, if_neg hx]

theorem get_write (m : Memory) (a x : Nat) (bs : List Byte) :
    (m.write a bs).get x = if a ≤ x ∧ x < a + bs.length then bs.getD (x - a) 0 else m.get x := by
  have hmid := (cellsOf_spec bs a).1
  have hlow : ∀ c ∈ m.filter fun c => decide (c.1 < a), c.1 < a := fun c hc => by simpa using (List.mem_filter.1 hc).2
  have hhigh : ∀ c ∈ m.filter fun c => decide (a + bs.length ≤ c.1), a + bs.length ≤ c.1 := fun c hc => by
    simpa using (List.mem_filter.1 hc).2
  unfold Memory.write
  by_cases h1 : x < a
  · rw [get_append_of_absent_right fun c hc => by have := hhigh c hc; omega,
      get_append_of_absent_right fun c hc => by have := (hmid c hc).1; omega, get_filter m (fun k => decide (k < a)),
      if_pos (by simpa using h1), if_neg (by omega)]
  by_cases h2 : x < a + bs.length
  · rw [get_append_of_absent_right fun c hc => by have := hhigh c hc; omega,
      get_append_of_absent fun c hc => by have := hlow c hc; omega, get_cellsOf]
    simp [h2, Nat.le_of_not_lt h1]
  · rw [List.append_assoc, get_append_of_absent fun c hc => by have := hlow c hc; omega,
      get_append_of_absent fun c hc => by have := (hmid c hc).2.1; omega, get_filter m (fun k => decide (a + bs.length ≤ k)),
      if_pos (by simpa using Nat.le_of_not_lt h2), if_neg (by omega)]

/-- Settles O59. -/
theorem memoryReadsWhatWasWritten : Obligations.MemoryReadsWhatWasWritten := by
  unfold Obligations.MemoryReadsWhatWasWritten
  intro m a x bs _
  exact get_write m a x bs

/-! ### Accesses of the control port (15 R490; 16 R531, R532) -/

/-- An access that reaches its register meets it at once. -/
theorem portAccess_reaches {s : State} {w : Bool} {a v : Nat} (h : Reaches s a) : portAccess s w a v = portNow s w a v := by
  obtain ⟨hrst, -, ⟨hst, hmv⟩ | ⟨hon, hheld⟩⟩ := h
  · simp [portAccess, hrst, hst, hmv]
  · simp [portAccess, hrst, hon, hheld]

theorem ctrlRead_misaligned {s : State} {a : Nat} (h : a % 4 ≠ 0) : ctrlRead s a = (0, portViol s 6 0x07 a) := by
  simp [ctrlRead, h]

theorem exec_read_reaches {s : State} {a : BitVec 24} (h : Reaches s a.toNat) :
    exec (.controlPortRead a) s = .next { (ctrlRead s a.toNat).2 with ctl := { (ctrlRead s a.toNat).2.ctl with
      answers := (ctrlRead s a.toNat).2.ctl.answers ++ [BitVec.ofNat 32 (ctrlRead s a.toNat).1] } } := by
  rw [exec_controlPortRead, portAccess_reaches h, portNow_read _ _ _ h.2.1]

theorem portViol_ctl (s : State) (port code aux : Nat) : (portViol s port code aux).ctl = s.ctl := by rw [portViol_eq]

/-- An access that a sleeping engine holds until it has woken. -/
theorem portAccess_held {s : State} {w : Bool} {a v : Nat} (hrst : s.life.rstLow = false) (hr : s.life.ready = true)
    (hst : s.pwr.state ≠ 0) (ha : alwaysOn a = false) :
    portAccess s w a v = wakeEvent { s with pwr := { s.pwr with heldAcc := s.pwr.heldAcc ++ [(w, a, v)] } } := by
  simp [portAccess, hrst, hr, hst, ha]

/-- Settles O14. -/
theorem accessesAnswerWaitOrWake : Obligations.AccessesAnswerWaitOrWake := by
  unfold Obligations.AccessesAnswerWaitOrWake
  refine ⟨⟨fun a s h _ hal hlow hhigh hslot htbl hcw => ?_, fun a s h _ hal => ?_⟩, fun a s hrst hr hst hmv hlo hhi => ?_⟩
  · rw [exec_read_reaches h, ctrlRead_reg32 s _ hal hlow hhigh hslot htbl hcw]
  · rw [exec_read_reaches h, ctrlRead_misaligned hal]
    exact ⟨_, rfl, by rw [portViol_ctl]; rfl, rfl⟩
  · have hon : alwaysOn a.toNat = false := by simp [alwaysOn]; omega
    rw [exec_controlPortRead, portAccess_held hrst hr (by omega) hon]
    simp [wakeEvent, startWake, hr, hst, hmv, wakeTime, wakeRails]

end Sys2Proof.Proofs
end

section
set_option Elab.async false
/-! What the engine sees at its four conditioned inputs and at the test access port (15 R495, R499-R503, R512, R513). -/
namespace Sys2Proof.Proofs
open Sys2Proof Sys2Proof.Machine Sys2Proof.Laws Sys2Proof.Safety

/-- The engine sees the inputs at levels `l`; the pins and the test access port stand as they were. -/
structure Sees (s t : State) (l : BitVec 4) : Prop where
  level : t.inp.level = l
  pins : t.inp.pins = s.inp.pins
  tap : t.tap = s.tap
  vackPin : t.pwr.vackPin = s.pwr.vackPin
  rstLow : t.life.rstLow = s.life.rstLow

/-- The levels with input `i` at `v`. -/
def withLevel (l : BitVec 4) (i : Nat) (v : Bool) : BitVec 4 := if v then l ||| inBit i else l &&& ~~~(inBit i)

variable {s t u : State} {l : BitVec 4}

/-- A step that changes none of these. -/
theorem Sees.of (h : Sees s t l) (level : u.inp.level = t.inp.level := by rfl) (pins : u.inp.pins = t.inp.pins := by rfl)
    (tap : u.tap = t.tap := by rfl) (vackPin : u.pwr.vackPin = t.pwr.vackPin := by rfl)
    (rstLow : u.life.rstLow = t.life.rstLow := by rfl) : Sees s u l :=
  ⟨level.trans h.level, pins.trans h.pins, tap.trans h.tap, vackPin.trans h.vackPin, rstLow.trans h.rstLow⟩

theorem setLevel_sees (h : Sees s t l) (i : Nat) (v : Bool) : Sees s (setLevel t i v) (withLevel l i v) := by
  obtain ⟨rfl, h⟩ := h
  exact ⟨rfl, by assumption, by assumption, by assumption, by assumption⟩

theorem haltEngine_sees (h : Sees s t l) : Sees s (haltEngine t) l := by
  unfold haltEngine
  dsimp only
  split <;> exact h.of

theorem startWake_sees (h : Sees s t l) (st : Nat) : Sees s (startWake t st) l := by
  unfold startWake
  split
  · exact h
  · split <;> exact h.of

theorem wakeEvent_sees (h : Sees s t l) : Sees s (wakeEvent t) l := by
  unfold wakeEvent
  split
  · exact h
  · exact startWake_sees h.of 0

theorem fault_sees (h : Sees s t l) (cls code core : Nat) (inj : Bool) (cmd detail aux : Nat) :
    Sees s (fault t cls code core inj cmd detail aux) l := by
  rw [fault_eq]
  exact h.of

theorem seeHalt_sees (h : Sees s t l) : Sees s (seeHalt t) (withLevel l 0 true) := by
  unfold seeHalt
  split
  · exact setLevel_sees h 0 true
  · exact haltEngine_sees (setLevel_sees h 0 true)

theorem seeWake_sees (h : Sees s t l) : Sees s (seeWake t) (withLevel l 1 true) := by
  have h1 := setLevel_sees h 1 true
  unfold seeWake
  extract_lets low far s'
  clear_value low far
  split
  · exact h1
  · split
    · exact wakeEvent_sees h1.of
    · exact h1.of

theorem seeTrip_sees (h : Sees s t l) : Sees s (seeTrip t) (withLevel l 2 true) := by
  have h1 := setLevel_sees h 2 true
  unfold seeTrip
  dsimp only
  refine fault_sees ?_ _ _ _ _ _ _ _
  split
  · exact h1
  · exact h1.of

theorem seeDroop_sees (h : Sees s t l) : Sees s (seeDroop t) (withLevel l 3 true) := by
  have h1 := setLevel_sees h 3 true
  unfold seeDroop
  dsimp only
  split <;> exact h1.of

/-- A level that an input has already. -/
theorem withLevel_same {l : BitVec 4} {i : Nat} (hi : i < 4) {v : Bool} (h : l.getLsbD i = v) : withLevel l i v = l := by
  subst h
  match i, hi with
  | 0, _ | 1, _ | 2, _ | 3, _ => revert l; decide

theorem seeInput_sees (h : Sees s t l) {i : Nat} (hi : i < 4) (v : Bool) : Sees s (seeInput t i v) (withLevel l i v) := by
  unfold seeInput
  split
  · next e =>
    rw [withLevel_same hi (by rw [← h.level]; simpa using e)]
    exact h
  · split
    · exact seeHalt_sees h
    · exact (setLevel_sees h 0 false).of
    · exact seeWake_sees h
    · exact seeTrip_sees h
    · exact seeDroop_sees h
    · exact (setLevel_sees h 3 false).of
    · exact setLevel_sees h _ _

/-- The four inputs seen one after the other. -/
theorem seeAll_sees (s : State) (v : Nat → Bool) : Sees s ([0, 1, 2, 3].foldl (fun s i => seeInput s i (v i)) s)
    (withLevel (withLevel (withLevel (withLevel s.inp.level 0 (v 0)) 1 (v 1)) 2 (v 2)) 3 (v 3)) :=
  have h0 : Sees s s s.inp.level := ⟨rfl, rfl, rfl, rfl, rfl⟩
  seeInput_sees (seeInput_sees (seeInput_sees (seeInput_sees h0 (by decide) _) (by decide) _) (by decide) _) (by decide) _

theorem withLevels_none (l : BitVec 4) :
    withLevel (withLevel (withLevel (withLevel l 0 false) 1 false) 2 false) 3 false = 0 := by
  revert l
  decide

theorem withLevels_all (l m : BitVec 4) :
    withLevel (withLevel (withLevel (withLevel l 0 (m.getLsbD 0)) 1 (m.getLsbD 1)) 2 (m.getLsbD 2)) 3 (m.getLsbD 3) = m := by
  revert l m
  decide

/-- Each input seen as its pin stands. -/
theorem seePins_sees (s : State) : Sees s ([0, 1, 2, 3].foldl (fun s i => seeInput s i (s.inp.pins.getLsbD i)) s) s.inp.pins := by
  have h0 : Sees s s s.inp.level := ⟨rfl, rfl, rfl, rfl, rfl⟩
  have h1 := seeInput_sees h0 (i := 0) (by decide) (s.inp.pins.getLsbD 0)
  have h2 := seeInput_sees h1 (i := 1) (by decide) (s.inp.pins.getLsbD 1)
  have h3 := seeInput_sees h2 (i := 2) (by decide) (s.inp.pins.getLsbD 2)
  have h4 := seeInput_sees h3 (i := 3) (by decide) (s.inp.pins.getLsbD 3)
  rw [withLevels_all] at h4
  simp only [List.foldl_cons, List.foldl_nil, h1.pins, h2.pins, h3.pins]
  exact h4

/-! ### The test access port -/

/-- An input seen deasserted concerns no rail. -/
theorem seeInput_false_pwr (s : State) (i : Nat) : (seeInput s i false).pwr = s.pwr := by
  unfold seeInput
  split
  · rfl
  · split <;> simp_all <;> rfl

theorem fireInj_eq (s : State) (k : Nat) (p : Inject → Bool) : (fireInj s k p).2 = { s with mon := (fireInj s k p).2.mon } := by
  unfold fireInj
  split <;> rfl

theorem lateAck_sees (h : Sees s t l) : Sees s (lateAck t) l := by
  unfold lateAck
  split
  · exact h
  · dsimp only
    split
    · exact h.of
    · exact h

theorem trace_sees (h : Sees s t l) (code cls core q n op arg : Nat) : Sees s (trace t code cls core q n op arg) l := by
  rw [trace_eq]
  exact h.of

theorem ackRise_sees (h : Sees s t l) : Sees s (ackRise t) l := by
  have hinj : Sees s (fireInj t 7 fun _ => true).2 l := by
    rw [fireInj_eq]
    exact h.of
  unfold ackRise
  split
  · exact h
  · split
    · rw [portViol_eq]
      exact h.of
    · dsimp only
      split
      · exact hinj.of
      · exact trace_sees (lateAck_sees h).of _ _ _ _ _ _ _

theorem ackFall_sees (h : Sees s t l) : Sees s (ackFall t) l := by
  unfold ackFall
  split
  · exact h.of
  · exact h

/-- What an instruction that takes effect leaves, and what the engine then sees (15 R513). -/
structure Instructs (s t : State) (ir : Nat) : Prop where
  instr : t.tap.ir = ir
  pins : t.inp.pins = s.inp.pins
  vackPin : t.pwr.vackPin = s.pwr.vackPin
  held : tapHolds s = false → [0, 3, 4].contains ir = true → s.life.rstLow = false → t.inp.level = 0 ∧ t.pwr.vack = s.pwr.vack
  free : tapHolds s = true → [0, 3, 4].contains ir = false → s.life.rstLow = false → t.inp.level = s.inp.pins

theorem setInstr_instructs (s : State) (ir : Nat) : Instructs s (setInstr s ir) ir := by
  have hnone := seeAll_sees { s with tap := { s.tap with ir := ir } } fun _ => false
  have hall := seePins_sees { s with tap := { s.tap with ir := ir } }
  rw [withLevels_none] at hnone
  have hnow : tapHolds { s with tap := { s.tap with ir := ir } } = [0, 3, 4].contains ir := rfl
  unfold setInstr
  dsimp only
  rw [hnow]
  generalize hc : [0, 3, 4].contains ir = now
  split
  · next h =>
    refine ⟨rfl, rfl, rfl, ?_, ?_⟩ <;> intro h1 h2 h3 <;> simp_all [State.running]
  · cases now
    · have hend : ∀ u, Sees { s with tap := { s.tap with ir := ir } } u s.inp.pins → Instructs s u ir := fun u h =>
        ⟨congrArg Tap.ir h.tap, h.pins, h.vackPin, fun _ h => by simp_all, fun _ _ _ => h.level⟩
      rw [if_neg (by decide)]
      refine hend _ ?_
      split
      · exact hall
      · split
        · exact ackRise_sees hall
        · exact ackFall_sees hall
    · rw [if_pos rfl]
      refine ⟨congrArg Tap.ir hnone.tap, hnone.pins, hnone.vackPin, fun _ _ _ => ⟨hnone.level, ?_⟩, fun _ h => by simp_all⟩
      simp only [List.foldl_cons, List.foldl_nil, seeInput_false_pwr]

/-- Of the test access port an instruction changes its register alone. -/
theorem setInstr_tap (s : State) (ir : Nat) : (setInstr s ir).tap = { s.tap with ir := ir } := by
  have hpins := seePins_sees { s with tap := { s.tap with ir := ir } }
  unfold setInstr
  dsimp only
  split
  · rfl
  · split
    · exact (seeAll_sees { s with tap := { s.tap with ir := ir } } fun _ => false).tap
    · split
      · exact hpins.tap
      · split
        · exact (ackRise_sees hpins).tap
        · exact (ackFall_sees hpins).tap

theorem b2n_le (b : Bool) : b2n b ≤ 1 := by cases b <;> decide

theorem b2n_beq (b : Bool) : (b2n b == 1) = b := by cases b <;> decide

/-- The eight event lines stand in cells 6 to 13. -/
theorem eventCells (f : Nat → Bool) :
    ∃ e, e < 256 ∧ ((List.range 8).map fun n => cell (6 + n) (f n)).foldl (· + ·) 0 = 64 * e := by
  refine ⟨b2n (f 0) + 2 * b2n (f 1) + 4 * b2n (f 2) + 8 * b2n (f 3) + 16 * b2n (f 4) + 32 * b2n (f 5) + 64 * b2n (f 6) + 128 * b2n (f 7), ?_, ?_⟩
  · have := b2n_le (f 0); have := b2n_le (f 1); have := b2n_le (f 2); have := b2n_le (f 3)
    have := b2n_le (f 4); have := b2n_le (f 5); have := b2n_le (f 6); have := b2n_le (f 7)
    omega
  · simp only [List.range, List.range.loop, List.map, List.foldl, cell, Nat.shiftLeft_eq]
    omega

/-- What a capture of the boundary register holds in the cells of the inputs, of VACK and of VSET. -/
theorem capture_cells (s : State) :
    fld (capture s).1 2 4 = s.inp.pins.toNat ∧ bit (capture s).1 24 = s.pwr.vackPin ∧ fld (capture s).1 27 8 = s.pwr.vset % 256 := by
  obtain ⟨e, he, hev⟩ := eventCells (evtPin s)
  have hp : s.inp.pins.toNat < 2 ^ 4 := s.inp.pins.isLt
  have h0 := b2n_le (!s.life.rstLow)
  have h1 := b2n_le (bit (freeNat s).1 0)
  have h22 := b2n_le (bit (freeNat s).1 5)
  have h23 := b2n_le s.pwr.vreq
  have h24 := b2n_le s.pwr.vackPin
  have hio := Nat.mod_lt ((freeNat s).1 >>> 1) (show 0 < 2 ^ 4 by decide)
  have hsel := Nat.mod_lt s.pwr.vsel (show 0 < 2 ^ 2 by decide)
  have hset := Nat.mod_lt s.pwr.vset (show 0 < 2 ^ 8 by decide)
  have hc : (capture s).1 = b2n (!s.life.rstLow) + b2n (bit (freeNat s).1 0) * 2 + s.inp.pins.toNat * 4 + (freeNat s).1 >>> 1 % 2 ^ 4 * 2 ^ 16 +
      b2n (bit (freeNat s).1 5) * 2 ^ 22 + b2n s.pwr.vackPin * 2 ^ 24 +
      (64 * e + 2 ^ 15 + 2 ^ 21 + b2n s.pwr.vreq * 2 ^ 23 + s.pwr.vsel % 2 ^ 2 * 2 ^ 25 + s.pwr.vset % 2 ^ 8 * 2 ^ 27) := by
    have hout : engineOuts s = 64 * e + 2 ^ 15 + 2 ^ 21 + b2n s.pwr.vreq * 2 ^ 23 + s.pwr.vsel % 2 ^ 2 * 2 ^ 25 + s.pwr.vset % 2 ^ 8 * 2 ^ 27 := by
      unfold engineOuts
      rw [hev]
      simp only [cell, cells, Nat.shiftLeft_eq]
      rfl
    unfold capture inputCells
    dsimp only
    rw [hout]
    simp only [cell, cells, Nat.shiftLeft_eq, Nat.mod_eq_of_lt hp, Nat.pow_zero, Nat.mul_one, Nat.pow_one]
  have hbit : ∀ x b, x / 2 ^ 24 % 2 = b2n b → bit x 24 = b := fun x b h => by
    rw [bit, Nat.shiftRight_eq_div_pow, h, b2n_beq]
  rw [hc]
  refine ⟨?_, hbit _ _ ?_, ?_⟩
  · rw [fld, Nat.shiftRight_eq_div_pow]
    omega
  · omega
  · rw [fld, Nat.shiftRight_eq_div_pow]
    omega

/-- Scans change the registers that are scanned, and the count of free values. -/
theorem Instructs.of {s t u : State} {ir : Nat} (h : Instructs s t ir) (hir : u.tap.ir = t.tap.ir := by rfl)
    (inp : u.inp = t.inp := by rfl) (pwr : u.pwr = t.pwr := by rfl) : Instructs s u ir :=
  ⟨hir.trans h.instr, (congrArg Inputs.pins inp).trans h.pins, (congrArg Power.vackPin pwr).trans h.vackPin,
    fun h1 h2 h3 => ⟨(congrArg Inputs.level inp).trans (h.held h1 h2 h3).1, (congrArg Power.vack pwr).trans (h.held h1 h2 h3).2⟩,
    fun h1 h2 h3 => (congrArg Inputs.level inp).trans (h.free h1 h2 h3)⟩

/-- A scan of the boundary register (15 R512, R513). -/
theorem scanBoundary_spec (s : State) (ir : Nat) (shift : BitVec 35) :
    let t := scanBoundary s ir shift
    t.tap.ir = ir ∧ t.tap.update = shift.toNat ∧
      fld t.tap.tdo 2 4 = s.inp.pins.toNat ∧ bit t.tap.tdo 24 = t.pwr.vackPin ∧ fld t.tap.tdo 27 8 = t.pwr.vset % 256 := by
  have h := setInstr_instructs s ir
  obtain ⟨hp, hv, hs⟩ := capture_cells (setInstr s ir)
  rw [h.pins] at hp
  exact ⟨h.instr, rfl, hp, hv, hs⟩

/-- A scan of the bypass register. -/
theorem scanBypass_tap (s : State) (ir : Nat) (shift : BitVec 35) :
    (scanBypass s ir shift).tap = { s.tap with ir := ir, tdo := 2 * shift.toNat % 2 ^ 35 } := by
  unfold scanBypass
  dsimp only
  rw [setInstr_tap]

theorem idcodeRow_tap (s : State) : (idcodeRow s).tap = { s.tap with ir := 2, tdo := idCode } := by
  unfold idcodeRow
  dsimp only
  rw [setInstr_tap]

theorem outputPins_boundary {t : State} (h : t.tap.ir = 0 ∨ t.tap.ir = 3) : outputPins t = some t.tap.update := by
  rcases h with h | h <;> simp [outputPins, h]

theorem outputPins_engine {t : State} (h : t.tap.ir = 1) : outputPins t = some (engineOuts t) := by
  simp [outputPins, h]

theorem outputPins_none {t : State} (h : t.tap.ir = 4) : outputPins t = none := by
  simp [outputPins, h]

theorem bypassRow_below {s : State} {code : BitVec 4} (h : code.toNat < 5) : bypassRow code s = s := if_pos h

theorem bypassRow_tap {s : State} {code : BitVec 4} (h : 5 ≤ code.toNat) :
    (bypassRow code s).tap = { s.tap with ir := code.toNat, tdo := 0 } := by
  unfold bypassRow
  rw [if_neg (by omega)]
  dsimp only
  rw [setInstr_tap]

theorem bypassRow_instructs (s : State) (code : BitVec 4) : ∃ ir, Instructs s (bypassRow code s) ir := by
  unfold bypassRow
  split
  · exact ⟨s.tap.ir, rfl, rfl, rfl, fun h1 h2 => by simp_all [tapHolds], fun h1 h2 => by simp_all [tapHolds]⟩
  · exact ⟨_, (setInstr_instructs s code.toNat).of⟩

/-- Every instruction of the test access port acts on the inputs in one way. -/
theorem tapCommand_instructs {s t : State} {shift : BitVec 35} {code : BitVec 4} {c : Instr}
    (hc : c ∈ [Instr.extest shift, .sample shift, .idcode, .clamp shift, .highz shift, .bypass code, .tapReset])
    (e : exec c s = .next t) : ∃ ir, Instructs s t ir := by
  simp only [List.mem_cons, List.not_mem_nil, or_false] at hc
  rcases hc with rfl | rfl | rfl | rfl | rfl | rfl | rfl <;> cases e
  · exact ⟨0, (setInstr_instructs s 0).of⟩
  · exact ⟨1, (setInstr_instructs s 1).of⟩
  · exact ⟨2, (setInstr_instructs s 2).of⟩
  · exact ⟨3, (setInstr_instructs s 3).of⟩
  · exact ⟨4, (setInstr_instructs s 4).of⟩
  · exact bypassRow_instructs s code
  · exact ⟨2, setInstr_instructs s 2⟩

theorem tapHolds_iff (t : State) : tapHolds t = true ↔ t.tap.ir = 0 ∨ t.tap.ir = 3 ∨ t.tap.ir = 4 := by simp [tapHolds]

theorem uartRx_held {s : State} (h : tapHolds s = true) (b : Byte) (stop : Bool) (lt : Dword) : uartRx b stop lt s = advance s lt := by
  have ht : tapHolds (advance s lt) = true := by
    rw [advance_eq]
    exact h
  simp [uartRx, ht]

/-- Settles O54. -/
theorem tapScansItsRegisters : Obligations.TapScansItsRegisters := by
  unfold Obligations.TapScansItsRegisters
  intro s shift code
  obtain ⟨hir0, hup0, hcells0⟩ := scanBoundary_spec s 0 shift
  obtain ⟨hir1, hup1, hcells1⟩ := scanBoundary_spec s 1 shift
  have hclamp := scanBypass_tap s 3 shift
  have hhighz := scanBypass_tap s 4 shift
  have hid := idcodeRow_tap s
  refine ⟨⟨_, rfl, hir0, hup0, (outputPins_boundary (.inl hir0)).trans (congrArg some hup0), hcells0⟩,
    ⟨_, rfl, hir1, hup1, outputPins_engine hir1, hcells1⟩, ⟨_, rfl, congrArg Tap.ir hid, congrArg Tap.tdo hid, by rw [hid]⟩,
    ⟨_, rfl, congrArg Tap.ir hclamp, ?_, congrArg Tap.tdo hclamp⟩,
    ⟨_, rfl, congrArg Tap.ir hhighz, outputPins_none (congrArg Tap.ir hhighz), congrArg Tap.tdo hhighz⟩,
    fun h => ⟨_, rfl, congrArg Tap.ir (bypassRow_tap h), congrArg Tap.tdo (bypassRow_tap h), by rw [bypassRow_tap h]⟩,
    fun h => congrArg _ (bypassRow_below h), ⟨_, rfl, setInstr_tap s 2⟩, fun c t hc e => ?_, fun h b stop lt => congrArg _ (uartRx_held h b stop lt)⟩
  · rw [clamp, outputPins_boundary (.inr (congrArg Tap.ir hclamp)), hclamp]
  · obtain ⟨ir, h⟩ := tapCommand_instructs hc e
    have hnow : tapHolds t = [0, 3, 4].contains ir := by rw [← h.instr]; rfl
    exact ⟨tapHolds_iff t, fun h1 h2 => h.held h1 (hnow ▸ h2), fun h1 h2 => h.free h1 (hnow ▸ h2), h.pins⟩


end Sys2Proof.Proofs
end

section
set_option Elab.async false
/-! States for refutations: an awake engine, tensor descriptors and commands as bytes. -/
namespace Sys2Proof.Proofs
open Sys2Proof Sys2Proof.Machine

/-- An engine that is READY in S0 at LT 5000, with credits on its ports and its link. -/
def awakeState : State :=
  { life := { ready := true, maint := false, lt := 5000 }
    pwr := { want := [], rails := [(0, 88), (1, 100)] }
    str := { linkCas := 100, linkShelf := 100, portReq := [(0, 100), (1, 100), (2, 100), (3, 100)]
             portData := [(0, 100), (1, 100), (2, 100), (3, 100)] } }

/-- The descriptor of a dense matrix of `d0` by `d1` elements of a format at address `a` (13 R407). -/
def matrixBytes (a fmt d0 d1 : Nat) : List Byte :=
  leBytes 8 (a + fmt <<< 48) ++ leBytes 8 0 ++ leBytes 4 d0 ++ leBytes 4 d1 ++ leBytes 4 1 ++ leBytes 4 1

/-- The 64 bytes of a command: its opcode and its body words. -/
def commandBytes (op : Nat) (ws : List Nat) : List Byte := leBytes 16 op ++ (ws ++ List.replicate (6 - ws.length) 0).flatMap (leBytes 8)

/-- Command `n` of queue 0, taken as the `n`th command. -/
def commandJob (n : Nat) (c : List Byte) : Job :=
  { q := 0, n := n, take := n, cmd := c, prio := 0, noDl := false, abort := false, deps := 0, phase := .waiting, ask := some [] }

/-! ### A staged round whose weights lie where no address leads

The weights stand at an address with bit 47 set while the cascade is not READY (14 R448): their reads land as poison in T0 at once,
so ROUND_START changes T0. -/

/-- The program is one MMA, 3 by 2 times 2 by 3, in the staged round. -/
def farWeights : State :=
  { awakeState with
    t1 := (((({} : PMem).put 0x100 (matrixBytes 0x1000 0 3 2)).put 0x120 (matrixBytes (2 ^ 47 + 0x2000) 0 2 3)).put 0x140
      (matrixBytes 0x3000 0 2 2)).put 0x400 (commandBytes 1 [0x100, 0x120, 0x140, 0, 0 + 2 <<< 6 + 1 <<< 8 + 1 <<< 20 + 1 <<< 24])
    jobs := [{ commandJob 1 (commandBytes 9 [0x140, 0x400, 0x8000, 0x9000, 0]) with phase := .running }] }

theorem farWeights_round : (nextRound farWeights farWeights.ring).isSome = true := by decide +kernel

theorem farWeights_t0 : (roundStart farWeights).t0.ue ≠ farWeights.t0.ue := by decide +kernel

theorem exec_roundStart (s : State) : exec .roundStart s = .next (roundStart s) := rfl

/-- Refutes O30: the start of a round whose weights no address reaches changes T0, which the statement's frame leaves as it was. -/
theorem not_weightRoundsRunTheirHops : ¬ Obligations.WeightRoundsRunTheirHops := by
  unfold Obligations.WeightRoundsRunTheirHops
  intro h
  obtain ⟨⟨e, part, o⟩, hround⟩ := Option.isSome_iff_exists.1 farWeights_round
  obtain ⟨t, ht, -, -, -, hframe, -⟩ := (h.1 farWeights ⟨rfl, rfl, rfl⟩).1 e part o rfl hround
  have ht0 : t.t0 = farWeights.t0 := by rw [hframe]
  rw [← Host.Outcome.next.inj ((exec_roundStart _).symm.trans ht)] at ht0
  exact farWeights_t0 (congrArg T0Mem.ue ht0)

end Sys2Proof.Proofs
end

section
set_option Elab.async false
/-! Pulses on the event lines (15 R504). -/
namespace Sys2Proof.Proofs
open Sys2Proof Sys2Proof.Machine Sys2Proof.Laws Sys2Proof.Safety

/-- A value put at the places of a list that have a property. -/
theorem get_foldl_put {α : Type} (p : Nat → Bool) (v d : α) (l : List Nat) (t : Tab α) (n : Nat) :
    Tab.get (l.foldl (fun (t : Tab α) n => if p n then t.put n v else t) t) n d = if n ∈ l ∧ p n = true then v else t.get n d := by
  induction l generalizing t with
  | nil => simp
  | cons m l ih =>
    rw [List.foldl_cons, ih]
    by_cases hl : n ∈ l ∧ p n = true
    · rw [if_pos hl, if_pos ⟨List.mem_cons_of_mem _ hl.1, hl.2⟩]
    · rw [if_neg hl]
      by_cases hm : n = m
      · subst hm
        cases p n <;> simp
      · have hne : ¬ (n ∈ m :: l ∧ p n = true) := by simpa [hm] using hl
        rw [if_neg hne]
        split
        · exact get_put_ne t m n v d hm
        · rfl

theorem pulse_get (s : State) {src n : Nat} (hn : n < 8) (hsrc : src ≠ 0) :
    (pulse s src).evt.pulse.get n 0 =
      if fld (s.evt.route.get n 0) 0 6 = src ∧ (fld (s.evt.route.get n 0) 6 2 = 1 ∨ fld (s.evt.route.get n 0) 6 2 = 2)
      then s.life.lt + 10 else s.evt.pulse.get n 0 := by
  unfold pulse
  rw [get_foldl_put fun n => src != 0 && fld (s.evt.route.get n 0) 0 6 == src &&
    (fld (s.evt.route.get n 0) 6 2 == 1 || fld (s.evt.route.get n 0) 6 2 == 2)]
  simp [hn, hsrc]

/-- A line that no pulse holds stands deasserted but in level mode. -/
theorem lineOn_of_no_pulse {s : State} {n : Nat} (h : s.evt.pulse.find n = none) (hm : fld (s.evt.route.get n 0) 6 2 ≠ 2) : lineOn s n = false := by
  have hp : s.evt.pulse.get n 0 = 0 := by simp [Tab.get, h]
  unfold lineOn
  dsimp only
  split <;> simp_all

theorem exec_evtPulseEnd (line : BitVec 3) (lt : Dword) (s : State) : exec (.evtPulseEnd line lt) s = .next (evtPulseEnd line lt s) := rfl

/-- Settles O8. -/
theorem pulsesLastTenLt : Obligations.PulsesLastTenLt := by
  unfold Obligations.PulsesLastTenLt
  refine ⟨fun s src n hn hsrc => pulse_get s hn hsrc, fun s line lt h => ?_⟩
  have hevt : (At s lt).evt = s.evt := by rw [At, advance_eq]
  have hend : evtPulseEnd line lt s = { At s lt with evt := { s.evt with pulse := s.evt.pulse.del line.toNat } } := by
    unfold evtPulseEnd
    dsimp only
    rw [At] at hevt h ⊢
    rw [hevt, if_pos (by simpa using h)]
  rw [exec_evtPulseEnd, hend]
  exact ⟨_, rfl, find_del_self _ _, rfl, fun hm => lineOn_of_no_pulse (find_del_self _ _) hm, fun n hn => find_del_ne _ _ _ hn, rfl⟩

end Sys2Proof.Proofs
end

section
set_option Elab.async false
/-! Writes of the control registers (16 R521; 15 R500-R503; 18 R556, R562). -/
namespace Sys2Proof.Proofs
open Sys2Proof Sys2Proof.Machine Sys2Proof.Laws Sys2Proof.Safety

/-- A write of a 32-bit register acts at once. -/
theorem ctrlWrite_reg32 {s : State} {a : Nat} (v : Nat) (hal : a % 4 = 0) (hlow : isLow s a = false) (hhigh : isHigh s a = false) :
    ctrlWrite s a v = write32 s a v := by
  simp [ctrlWrite, hal, hlow, hhigh]

/-- A register where neither it nor the word before it begins a 64-bit register. -/
theorem portWrite_reg32 {s : State} {a : Nat} (v : Nat) (h : Reaches s a) (hal : a % 4 = 0) (hlow : reg64 s a = none)
    (hhigh : reg64 s (a - 4) = none) : portWrite a v s = write32 s a v := by
  rw [portWrite, portAccess_reaches h, portNow_write _ _ _ h.2.1]
  exact ctrlWrite_reg32 v hal (by simp [isLow, hlow]) (by simp [isHigh, hhigh])

theorem bit_toNat {w : Nat} (v : BitVec w) (i : Nat) : bit v.toNat i = v.getLsbD i := by
  rw [BitVec.getLsbD, Nat.testBit_eq_decide_div_mod_eq, bit, Nat.shiftRight_eq_div_pow]
  rfl

theorem exec_engFlags (v : Word) (s : State) : exec (.engFlags v) s = .next (portWrite 0x10 v.toNat s) := rfl
theorem exec_faultClear (v : Word) (s : State) : exec (.faultClear v) s = .next (portWrite 0x1048 v.toNat s) := rfl
theorem exec_vlogClear (v : Word) (s : State) : exec (.vlogClear v) s = .next (portWrite 0x13F4 v.toNat s) := rfl
theorem exec_haltRel (s : State) : exec .haltRel s = .next (portWrite 0x3004 1 s) := rfl
theorem exec_wakeRearm (s : State) : exec .wakeRearm s = .next (portWrite 0x3004 2 s) := rfl
theorem exec_thermRearm (s : State) : exec .thermRearm s = .next (portWrite 0x3004 4 s) := rfl
theorem exec_droopClr (s : State) : exec .droopClr s = .next (portWrite 0x3004 8 s) := rfl
theorem exec_recover (s : State) : exec .recover s = .next (portWrite 0x14 1 s) := rfl
theorem exec_service (s : State) : exec .service s = .next (portWrite 0x14 2 s) := rfl
theorem exec_clearCounters (on : Bool) (s : State) :
    exec (.clearCounters on) s = .next (portWrite 0x18000 (b2n on + (b2n s.str.freeze) <<< 1) s) := rfl
theorem exec_freezeCounters (on : Bool) (s : State) : exec (.freezeCounters on) s = .next (portWrite 0x18000 ((b2n on) <<< 1) s) := rfl
theorem exec_regWrite_port (a : BitVec 24) (v : Word) (s : State) : exec (.regWrite a v) s = .next (portWrite a.toNat v.toNat s) := rfl

theorem portWrite_flags {s : State} {v : Nat} (h : Reaches s 0x10) : portWrite 0x10 v s = writeFlags s v :=
  (portWrite_reg32 v h rfl rfl rfl).trans rfl

theorem portWrite_engCtrl {s : State} {v : Nat} (h : Reaches s 0x14) : portWrite 0x14 v s = writeEngCtrl s v :=
  (portWrite_reg32 v h rfl rfl rfl).trans rfl

theorem portWrite_fault {s : State} {a v : Nat} (h : Reaches s a) (ha : a = 0x1048 ∨ a = 0x13F4) : portWrite a v s = writeFault s a v := by
  rcases ha with rfl | rfl
  · exact (portWrite_reg32 v h rfl rfl rfl).trans rfl
  · exact (portWrite_reg32 v h rfl rfl rfl).trans rfl

theorem portWrite_rearm {s : State} {v : Nat} (h : Reaches s 0x3004) : portWrite 0x3004 v s = writeRearm s v :=
  (portWrite_reg32 v h rfl rfl rfl).trans rfl

theorem portWrite_cntCtrl {s : State} {v : Nat} (h : Reaches s 0x18000) : portWrite 0x18000 v s = writeCntCtrl s v :=
  (portWrite_reg32 v h rfl rfl rfl).trans rfl

/-- The inputs are cleared bit by bit. -/
theorem writeRearm_one (s : State) :
    writeRearm s 1 = haltRelease s ∧
      writeRearm s 2 = { s with inp := { s.inp with masked := s.inp.masked &&& 13, stuck := s.inp.stuck &&& 13 } } ∧
      writeRearm s 4 = thermRestart s ∧ writeRearm s 8 = { s with inp := { s.inp with stuck := s.inp.stuck &&& 7 } } := ⟨rfl, rfl, rfl, rfl⟩

theorem pumpWrites_idle {s : State} (h : NothingWaits s) : pumpWrites s = s := by
  unfold pumpWrites
  rw [h]
  rfl

/-- With no transfer waiting THERM_REARM changes `THERM_HALT` alone. -/
theorem thermRestart_idle {s : State} (h : NothingWaits s) :
    thermRestart s = { s with inp := { s.inp with thermHalt := s.inp.thermHalt && s.inp.level.getLsbD 2 } } := by
  unfold thermRestart
  split
  · next hc =>
    obtain ⟨ht, hl⟩ : s.inp.thermHalt = true ∧ s.inp.level.getLsbD 2 = false := by simpa using hc
    rw [pumpWrites_idle (s := { s with inp := { s.inp with thermHalt := false } }) h, hl, Bool.and_false]
  · next hc =>
    have hl : (s.inp.thermHalt && s.inp.level.getLsbD 2) = s.inp.thermHalt := by
      cases ht : s.inp.thermHalt <;> simp_all
    rw [hl]

theorem haltRelease_halted {s : State} (h : s.inp.halted = true) :
    haltRelease s = { s with
      inp := { s.inp with
        halted := false
        masked := if s.inp.level.getLsbD 0 then s.inp.masked ||| 1 else s.inp.masked }
      jobs := s.jobs.map fun j => if j.phase = .held then { j with phase := .waiting } else j } := by
  simp [haltRelease, h]

theorem rebuildStacks_eq (s : State) :
    rebuildStacks s = { s with t1 := (rebuildStacks s).t1, pg := (rebuildStacks s).pg, tier := (rebuildStacks s).tier } := by
  unfold rebuildStacks
  extract_lets ds near far kept sums free1 free2 free4 free5 s1
  have hs1 : ∃ m, s1 = { s with t1 := m } := ⟨_, rfl⟩
  clear_value free1 free2 free4 free5 s1
  obtain ⟨m, rfl⟩ := hs1
  split <;> rfl

theorem rebuildStacks_off {s : State} (h : s.pg.init = false) : rebuildStacks s = s := by simp [rebuildStacks, h]

theorem bubbles_cleared (l : Tab Core) (c : Nat) :
    (Tab.get (l.map fun p => (p.1, { p.2 with bubble := 0 })) c ({} : Core)).bubble = 0 := by
  induction l with
  | nil => rfl
  | cons p l ih =>
    simp only [List.map_cons, Tab.get, Tab.find]
    split
    · rfl
    · exact ih

theorem bit_clear_freeze (on f : Bool) : bit (b2n on + (b2n f) <<< 1) 0 = on ∧ bit (b2n on + (b2n f) <<< 1) 1 = f := by
  cases on <;> cases f <;> decide

theorem bit_freeze (on : Bool) : bit ((b2n on) <<< 1) 0 = false ∧ bit ((b2n on) <<< 1) 1 = on := by
  cases on <;> decide

theorem writeEngCtrl_busy {s : State} {v : Nat} (hr : s.life.ready = true) (hj : s.jobs ≠ []) : writeEngCtrl s v = viol s 0 0x07 0x14 0 := by
  simp [writeEngCtrl, locked, hr, hj]

theorem writeEngCtrl_both {s : State} {v : Nat} (hr : s.life.ready = true) (h0 : bit v 0 = true) (h1 : bit v 1 = true) :
    writeEngCtrl s v = viol s 0 0x07 0x14 0 := by
  simp [writeEngCtrl, locked, hr, h0, h1]

theorem writeEngCtrl_recover {s : State} (hr : s.life.ready = true) (hj : s.jobs = []) (h : s.life.recovery = false) :
    writeEngCtrl s 1 = { s with life := { s.life with recovery := true, maint := true } } := by
  have h0 : bit 1 0 = true := rfl
  have h1 : bit 1 1 = false := rfl
  simp [writeEngCtrl, hr, hj, h, h0, h1]

theorem writeEngCtrl_service {s : State} (hr : s.life.ready = true) (hj : s.jobs = []) (h : s.life.recovery = true) :
    writeEngCtrl s 2 = rebuildStacks { s with life := { s.life with recovery := false, maint := false } } := by
  have h0 : bit 2 0 = false := rfl
  have h1 : bit 2 1 = true := rfl
  simp [writeEngCtrl, hr, hj, h, h0, h1]

/-- Settles O9. -/
theorem controlWritesClearAndRelease : Obligations.ControlWritesClearAndRelease := by
  unfold Obligations.ControlWritesClearAndRelease
  refine ⟨⟨fun v s h => ?_, fun v s h => ?_, fun v s h => ?_⟩, ⟨fun s h hh => ?_, fun s h => ⟨?_, fun hw => ?_, fun ht hl => ?_, ?_⟩⟩,
    fun s h hr => ⟨fun hj hv => ?_, fun hj hv => ?_, fun hj => ?_, fun v h0 h1 => ?_⟩, fun s h hr => ⟨?_, fun on => ?_⟩⟩
  · rw [exec_engFlags, portWrite_flags h, writeFlags, bit_toNat, bit_toNat, BitVec.ofNat_toNat]
  · rw [exec_faultClear, portWrite_fault h (.inl rfl), ← bit_toNat]
    cases hb : bit v.toNat 0 <;> simp [writeFault, hb]
  · rw [exec_vlogClear, portWrite_fault h (.inr rfl), ← bit_toNat]
    cases hb : bit v.toNat 0 <;> simp [writeFault, hb]
  · rw [exec_haltRel, portWrite_rearm h, (writeRearm_one s).1, haltRelease_halted hh]
  · rw [exec_wakeRearm, portWrite_rearm h, (writeRearm_one s).2.1]
  · rw [exec_thermRearm, portWrite_rearm h, (writeRearm_one s).2.2.1, thermRestart_idle hw]
  · rw [exec_thermRearm, portWrite_rearm h, (writeRearm_one s).2.2.1, thermRestart, if_pos (by rw [ht, hl]; rfl)]
  · rw [exec_droopClr, portWrite_rearm h, (writeRearm_one s).2.2.2]
  · rw [exec_recover, portWrite_engCtrl h, writeEngCtrl_recover hr hj hv]
  · rw [exec_service, portWrite_engCtrl h, writeEngCtrl_service hr hj hv]
    refine ⟨_, rfl, ?_⟩
    rw [rebuildStacks_eq]
    refine ⟨rfl, rfl, rfl, rfl, rfl, fun hi => ?_⟩
    rw [rebuildStacks_off (s := { s with life := { s.life with recovery := false, maint := false } }) hi]
    exact ⟨rfl, rfl, rfl⟩
  · rw [exec_recover, exec_service, portWrite_engCtrl h, portWrite_engCtrl h, writeEngCtrl_busy hr hj, writeEngCtrl_busy hr hj]
    exact ⟨rfl, rfl⟩
  · rw [exec_regWrite_port]
    exact congrArg _ ((portWrite_engCtrl h).trans (writeEngCtrl_both hr ((bit_toNat v 0).trans h0) ((bit_toNat v 1).trans h1)))
  · obtain ⟨hb0, hb1⟩ := bit_clear_freeze true s.str.freeze
    rw [exec_clearCounters, portWrite_cntCtrl h, writeCntCtrl, hb0, hb1]
    exact ⟨_, rfl, fun _ => rfl, rfl, rfl, rfl, rfl, bubbles_cleared s.cores, rfl, rfl, rfl, rfl, rfl, rfl, rfl, rfl, rfl⟩
  · obtain ⟨hb0, hb1⟩ := bit_freeze on
    rw [exec_freezeCounters, portWrite_cntCtrl h, writeCntCtrl, hb0, hb1]
    rfl


end Sys2Proof.Proofs
end

section
set_option Elab.async false
/-! The slot, table and core windows (18 R558-R560, R564, R565). -/
namespace Sys2Proof.Proofs
open Sys2Proof Sys2Proof.Machine Sys2Proof.Laws Sys2Proof.Safety

@[simp] theorem core_setCore_self (s : State) (c : Nat) (k : Core) : (s.setCore c k).core c = k := get_put_self _ _ _ _

theorem exec_slotFind (v : Word) (s : State) : exec (.slotFind v) s = .next (portWrite 0x8014 v.toNat s) := rfl
theorem exec_slotSel (v : Word) (s : State) : exec (.slotSel v) s = .next (portWrite 0x8010 v.toNat s) := rfl
theorem exec_slotWin0Read (s : State) : exec .slotWin0Read s = .next (portRead 0x8040 s) := rfl
theorem exec_tblDataRead (s : State) : exec .tblDataRead s = .next (portRead 0xB00C s) := rfl
theorem exec_tblDataWrite (v : Word) (s : State) : exec (.tblDataWrite v) s = .next (portWrite 0xB00C v.toNat s) := rfl
theorem exec_cwDataRead (c : BitVec 8) (s : State) : exec (.cwDataRead c) s = .next (portRead (0x10000C + 4096 * c.toNat) s) := rfl
theorem exec_cwDataWrite (c : BitVec 8) (v : Word) (s : State) :
    exec (.cwDataWrite c v) s = .next (portWrite (0x10000C + 4096 * c.toNat) v.toNat s) := rfl

/-- The state after a read that reaches its register: what the read changes, and its answer behind those given before. -/
def answered (r : Nat × State) : State := { r.2 with ctl := { r.2.ctl with answers := r.2.ctl.answers ++ [BitVec.ofNat 32 r.1] } }

theorem portRead_reaches {s : State} {a : Nat} (h : Reaches s a) : portRead a s = answered (ctrlRead s a) := by
  rw [portRead, portAccess_reaches h, portNow_read _ _ _ h.2.1]
  rfl

/-! ### The table window -/

theorem bankOf_putBank_self (t : Tables) (sfu b : Bool) (m : Memory) : bankOf (putBank t sfu b m) sfu b = m := by
  cases sfu <;> cases b <;> rfl

theorem bankOf_putBank_other (t : Tables) (sfu b : Bool) (m : Memory) : bankOf (putBank t sfu b m) sfu (!b) = bankOf t sfu (!b) := by
  cases sfu <;> cases b <;> rfl

theorem bankOf_putBank_domain (t : Tables) (sfu b c : Bool) (m : Memory) : bankOf (putBank t sfu b m) (!sfu) c = bankOf t (!sfu) c := by
  cases sfu <;> cases b <;> cases c <;> rfl

theorem putBank_addr (t : Tables) (sfu b : Bool) (m : Memory) : (putBank t sfu b m).addr = t.addr := by
  cases sfu <;> cases b <;> rfl

/-- What a write of `TBL_DATA` needs to reach the shadow bank. -/
def TblWritable (s : State) : Prop :=
  tblBank s ≠ activeB s.tbl (tblDomain s) ∧ reloading s (tblDomain s) = false ∧ bankWritable (tblDomain s) s.tbl.addr = true ∧
    s.tbl.addr < bankSize (tblDomain s)

theorem writeTblData_ok {s : State} (h : TblWritable s) (v : Nat) :
    writeTblData s v = tblNext { s with
      tbl := putBank s.tbl (tblDomain s) (tblBank s) ((bankOf s.tbl (tblDomain s) (tblBank s)).write s.tbl.addr (leBytes 4 v)) } := by
  obtain ⟨h1, h2, h3, h4⟩ := h
  simp [writeTblData, h1, h2, h3, h4]

theorem writeTblData_refused {s : State} (h : ¬ TblWritable s) (v : Nat) : writeTblData s v = tblNext (viol s 0 0x05 s.tbl.addr 0) := by
  unfold writeTblData
  dsimp only
  rw [if_neg]
  simpa [TblWritable] using h

/-! ### The core windows -/

theorem cwData_page (c : BitVec 8) :
    (0x10000C + 4096 * c.toNat) / 4096 = 256 + c.toNat ∧ (0x10000C + 4096 * c.toNat) % 4096 = 12 ∧
      (0x10000C + 4096 * c.toNat - 4) / 4096 = 256 + c.toNat ∧ (0x10000C + 4096 * c.toNat - 4) % 4096 = 8 := by
  omega

/-- Of a core's window only `BUBBLE` is a 64-bit register. -/
theorem reg64_core {s : State} {a c : Nat} (ha : a / 4096 = 256 + c) (h : a % 4096 ≠ 0x18) : reg64 s a = none := by
  unfold reg64
  rw [ha]
  split
  case h_10 => simp [h, show ¬ 256 + c < 8 by omega, show ¬ 256 + c < 24 by omega]
  all_goals omega

theorem write32_core {s : State} {a c : Nat} (hc : c < 256) (ha : a / 4096 = 256 + c) (v : Nat) : write32 s a v = writeCore s c (a % 4096) v := by
  unfold write32
  rw [ha]
  split
  case h_15 => simp [show 256 + c < 512 by omega]
  all_goals omega

theorem portWrite_cwData {s : State} {c : BitVec 8} (h : Reaches s (0x10000C + 4096 * c.toNat)) (v : Nat) :
    portWrite (0x10000C + 4096 * c.toNat) v s = writeCwData s c.toNat v := by
  obtain ⟨h1, h2, h3, h4⟩ := cwData_page c
  rw [portWrite_reg32 v h (by omega) (reg64_core h1 (by omega)) (reg64_core h3 (by omega)), write32_core c.isLt h1, h2]
  rfl

theorem ctrlRead_cwData (s : State) (c : BitVec 8) : ctrlRead s (0x10000C + 4096 * c.toNat) = readCwData s c.toNat := by
  obtain ⟨h1, h2, -, -⟩ := cwData_page c
  have hal : (0x10000C + 4096 * c.toNat) % 4 = 0 := by omega
  have hslot : (0x10000C + 4096 * c.toNat) ≠ 0x8040 := by omega
  have htbl : (0x10000C + 4096 * c.toNat) ≠ 0xB00C := by omega
  have hcore : 0x100000 ≤ 0x10000C + 4096 * c.toNat := by omega
  simp [ctrlRead, hal, hslot, htbl, h1, h2, hcore]

theorem ueFault_eq (s : State) (c word aux : Nat) :
    ueFault s c word aux = { s with
      t0 := { s.t0 with inj := s.t0.inj.erase word }
      flt := (ueFault s c word aux).flt
      evt := (ueFault s c word aux).evt
      t1 := (ueFault s c word aux).t1
      mon := (ueFault s c word aux).mon } := fault_eq ..

theorem ueFault_count (s : State) (c word aux : Nat) : (ueFault s c word aux).flt.count.get 3 0 = add64 (s.flt.count.get 3 0) 1 := by
  rw [ueFault, (fault_counts ..).1]
  exact get_put_self _ _ _ _

theorem any_filter_ne (l : List Nat) (w : Nat) : ((l.filter fun k => k / 128 != w).any fun k => k / 128 == w) = false := by
  simp

/-- Settles O10. -/
theorem windowsReadAndWrite : Obligations.WindowsReadAndWrite := by
  unfold Obligations.WindowsReadAndWrite
  refine ⟨⟨fun v s h hr => ?_, fun v s h hr => ?_, fun s h hr => ?_⟩, ⟨fun s h hr => ?_, fun v s h hr => ⟨fun hok => ?_, fun hok => ?_⟩⟩,
    fun c s h hr => ⟨fun hue => ?_, fun hue => ?_⟩, fun c v s h hr => ⟨fun hst hue => ?_, fun hst => ?_⟩⟩
  · rw [exec_slotFind, portWrite_reg32 _ h rfl rfl rfl]
    rfl
  · rw [exec_slotSel, portWrite_reg32 _ h rfl rfl rfl]
    rfl
  · rw [exec_slotWin0Read, portRead_reaches h]
    exact ⟨_, winWord { s with slots := { s.slots with win := some (s.slots.recs.get s.slots.sel {}) } } 0, rfl, rfl, rfl, rfl, rfl⟩
  · rw [exec_tblDataRead, portRead_reaches h]
    rfl
  · rw [exec_tblDataWrite, portWrite_reg32 _ h rfl rfl rfl]
    refine ⟨_, rfl, ?_⟩
    rw [show write32 s 0xB00C v.toNat = writeTblData s v.toNat from rfl, writeTblData_ok hok]
    exact ⟨congrArg (fun a => (a + 4) % 2 ^ 16) (putBank_addr ..), bankOf_putBank_self .., bankOf_putBank_other .., bankOf_putBank_domain ..,
      bankOf_putBank_domain .., rfl⟩
  · rw [exec_tblDataWrite, portWrite_reg32 _ h rfl rfl rfl]
    refine ⟨_, rfl, ?_⟩
    rw [show write32 s 0xB00C v.toNat = writeTblData s v.toNat from rfl, writeTblData_refused hok, viol_eq]
    exact ⟨rfl, rfl⟩
  · rw [exec_cwDataRead, portRead_reaches h, ctrlRead_cwData]
    refine ⟨_, rfl, ?_⟩
    simp only [readCwData, hue, cwNext, answered]
    simp [State.core, Tab.get]
  · rw [exec_cwDataRead, portRead_reaches h, ctrlRead_cwData]
    refine ⟨_, rfl, ?_⟩
    simp only [readCwData, hue, cwNext, answered, if_pos]
    rw [ueFault_eq]
    simp [ueFault_count, State.core, cwAddr]
  · rw [exec_cwDataWrite, portWrite_cwData h]
    refine ⟨_, rfl, ?_⟩
    simp only [writeCwData, hst, hue]
    exact ⟨rfl, any_filter_ne _ _, by simp [cwNext, State.core], rfl⟩
  · rw [exec_cwDataWrite, portWrite_cwData h]
    refine ⟨_, rfl, ?_⟩
    simp only [writeCwData, hst, locked]
    rw [viol_eq]
    exact ⟨rfl, rfl, congrArg Core.addr (get_put_self _ _ _ _)⟩

end Sys2Proof.Proofs
end

namespace Sys2Proof.Proofs
open Sys2Proof Sys2Proof.Machine Sys2Proof.Laws Sys2Proof.Safety

theorem entryOf_some {a base step n i : Nat} (hs : 0 < step) : entryOf a base step n = some i ↔ a = base + step * i ∧ i < n := by
  unfold entryOf
  simp only [Bool.and_eq_true, decide_eq_true_eq, beq_iff_eq]
  constructor
  · intro h
    split at h
    · next hc =>
      obtain ⟨⟨h1, h2⟩, h3⟩ := hc
      cases h
      have hm := Nat.div_add_mod (a - base) step
      refine ⟨by omega, (Nat.div_lt_iff_lt_mul hs).2 ?_⟩
      rw [Nat.mul_comm]
      omega
    · cases h
  · rintro ⟨rfl, hi⟩
    have hlt := Nat.mul_lt_mul_of_pos_left hi hs
    rw [if_pos ⟨⟨by omega, by omega⟩, by simp⟩]
    simp [hs]

/-- Entries of tables that step by multiples of 8 bytes stand at multiples of 8 bytes. -/
theorem entryOf_aligned {a base step n i : Nat} (hb : 8 ∣ base) (hs : 8 ∣ step) (hpos : 0 < step) (he : entryOf a base step n = some i) :
    a % 8 = 0 := by
  rw [((entryOf_some hpos).1 he).1]
  exact Nat.mod_eq_zero_of_dvd (Nat.dvd_add hb (Nat.dvd_mul_right_of_dvd hs i))

/-- A 64-bit register stands at a multiple of 8 bytes. -/
theorem reg64_aligned {s : State} {a v : Nat} (h : reg64 s a = some v) : a % 8 = 0 := by
  unfold reg64 at h
  split at h
  case h_2 | h_3 =>
    split at h
    case h_1 he => exact entryOf_aligned (by decide) (by decide) (by decide) he
    case h_2 he _ => exact entryOf_aligned (by decide) (by decide) (by decide) he
    case h_3 => split at h <;> simp_all
  case h_7 =>
    split at h
    case h_1 he => exact entryOf_aligned (by decide) (by decide) (by decide) he
    case h_2 => split at h <;> simp_all
  case h_10 =>
    split at h
    · have := Nat.mod_mod_of_dvd a (show 8 ∣ 256 by decide)
      split at h <;> simp_all
    · split at h
      · split at h <;> simp_all
      · split at h
        · have := Nat.mod_mod_of_dvd a (show 8 ∣ 4096 by decide)
          split at h
          · simp_all
            omega
          · cases h
        · cases h
  all_goals split at h <;> simp_all

/-- Of the 64-bit registers the one at `a` has come to hold `v`, and every other one holds what it held. -/
def Sets64 (s t : State) (a v : Nat) : Prop := reg64 t a = some v ∧ ∀ b, b ≠ a → reg64 t b = reg64 s b

theorem reg64_pwr (s : State) (p : Power) {b : Nat} (hb : b / 4096 ≠ 2) : reg64 { s with pwr := p } b = reg64 s b := by
  unfold reg64
  split
  case h_3 h => exact absurd h hb
  all_goals rfl

theorem reg64_tier (s : State) (x : Tiers) {b : Nat} (hb : b / 4096 ≠ 9) : reg64 { s with tier := x } b = reg64 s b := by
  unfold reg64
  split
  case h_6 h => exact absurd h hb
  all_goals rfl

theorem reg64_pg (s : State) (x : Pages) {b : Nat} (hb : b / 4096 ≠ 8) : reg64 { s with pg := x } b = reg64 s b := by
  unfold reg64
  split
  case h_5 h => exact absurd h hb
  all_goals rfl

theorem reg64_cas (s : State) (x : Cascade) {b : Nat} (hb : b / 4096 ≠ 10) : reg64 { s with cas := x } b = reg64 s b := by
  unfold reg64
  split
  case h_7 h => exact absurd h hb
  all_goals rfl

/-- The power registers that are written whole. -/
theorem sets64_pwr {s : State} {a : Nat} (v : Nat) (ha : a = 0x2010 ∨ a = 0x2018 ∨ (a = 0x2020 ∧ s.pwr.state ≠ 4)) :
    ∃ p, write64 s a v = { s with pwr := p } ∧ Sets64 s { s with pwr := p } a v := by
  rcases ha with rfl | rfl | ⟨rfl, h4⟩
  case' inl => refine ⟨_, rfl, rfl, ?_⟩
  case' inr.inl => refine ⟨_, rfl, rfl, ?_⟩
  case' inr.inr => refine ⟨_, if_neg (by simpa using h4), rfl, ?_⟩
  all_goals
    intro b hb
    by_cases hp : b / 4096 = 2
    · simp only [reg64, hp]
      split
      case h_3 => split <;> simp_all
      all_goals rfl
    · exact reg64_pwr s _ hp

/-- The registers of the tier block that are written whole; those of the shelf are locked while a sequence is admitted. -/
theorem sets64_tier {s : State} {a : Nat} (v : Nat)
    (ha : a ∈ [0x9430, 0x9438] ∨ (a ∈ [0x9408, 0x9418, 0x9420] ∧ s.slots.sids = [])) :
    ∃ p x, write64 s a v = { s with pg := p, tier := x } ∧ Sets64 s { s with pg := p, tier := x } a v := by
  have hpg : ∀ {x : Tiers} {b : Nat}, b / 4096 ≠ 9 → reg64 { s with pg := { s.pg with init := false }, tier := x } b = reg64 s b := by
    intro x b hb
    unfold reg64
    split
    case h_6 h => exact absurd h hb
    all_goals rfl
  simp only [List.mem_cons, List.not_mem_nil, or_false] at ha
  rcases ha with (rfl | rfl) | ⟨rfl | rfl | rfl, hs⟩
  case' inl.inl | inl.inr => refine ⟨s.pg, _, rfl, rfl, ?_⟩
  case' inr.inl | inr.inr.inl | inr.inr.inr => refine ⟨_, _, if_neg (by simp [anyAdmitted, hs]), rfl, ?_⟩
  all_goals
    intro b hb
    by_cases hp : b / 4096 = 9
    · simp only [reg64, hp]
      split <;> simp_all
    · exact hpg hp

/-- The registers of the page block that are written whole, locked while a sequence is admitted. -/
theorem sets64_pg {s : State} {a : Nat} (v : Nat) (ha : a ∈ [0x8100, 0x8110, 0x8130]) (hs : s.slots.sids = []) :
    ∃ p, write64 s a v = { s with pg := p } ∧ Sets64 s { s with pg := p } a v := by
  simp only [List.mem_cons, List.not_mem_nil, or_false] at ha
  rcases ha with rfl | rfl | rfl
  all_goals
    refine ⟨_, if_neg (by simp [anyAdmitted, hs]), rfl, fun b hb => ?_⟩
    by_cases hp : b / 4096 = 8
    · simp only [reg64, hp]
      split <;> simp_all
    · exact reg64_pg s _ hp

theorem casWrite_off {s : State} (h : s.cas.enable = false) (a : Nat) (f : Cascade → Cascade) : casWrite s a f = { s with cas := f s.cas } := by
  simp [casWrite, h]

/-- The cascade registers that are written whole, locked while the group is enabled. -/
theorem sets64_cas {s : State} {a : Nat} (v : Nat) (ha : a ∈ [0xA020, 0xA028, 0xA030, 0xA038, 0xA080, 0xA088]) (he : s.cas.enable = false) :
    ∃ c, write64 s a v = { s with cas := c } ∧ Sets64 s { s with cas := c } a v := by
  simp only [List.mem_cons, List.not_mem_nil, or_false] at ha
  rcases ha with rfl | rfl | rfl | rfl | rfl | rfl
  all_goals
    refine ⟨_, if_neg (by simp [he]), rfl, fun b hb => ?_⟩
    by_cases hp : b / 4096 = 10
    · simp only [reg64, hp]
      split
      · rfl
      · split <;> simp_all
    · exact reg64_cas s _ hp

/-- The registers of the pairs of links. -/
theorem sets64_pair {s : State} {k : Nat} (v : Nat) (hk : k < 64) (h3 : k % 4 ≠ 3) (he : s.cas.enable = false) :
    ∃ c, write64 s (0xA100 + 8 * k) v = { s with cas := c } ∧ Sets64 s { s with cas := c } (0xA100 + 8 * k) v := by
  have hentry : entryOf (0xA100 + 8 * k) 0xA100 8 64 = some k := (entryOf_some (by decide)).2 ⟨rfl, hk⟩
  have hno : entryOf (0xA100 + 8 * k) 0x2100 8 64 = none := by
    refine Classical.byContradiction fun h => ?_
    obtain ⟨i, hi⟩ := Option.ne_none_iff_exists'.1 h
    have := (entryOf_some (by decide)).1 hi
    omega
  have hpage : (0xA100 + 8 * k) / 4096 = 10 := by omega
  refine ⟨{ s.cas with pair := s.cas.pair.put (8 * (k / 4) + k % 4) v }, ?_, ?_, fun b hb => ?_⟩
  · simp only [write64, hentry, hno]
    exact casWrite_off he _ _
  · simp only [reg64, hpage, hentry]
    simp [h3]
  · by_cases hp : b / 4096 = 10
    · simp only [reg64, hp]
      split
      · next i hi =>
        have hik : i ≠ k := fun e => hb (e ▸ ((entryOf_some (by decide)).1 hi).1)
        split
        · rfl
        · exact congrArg some (get_put_ne _ _ _ _ _ (by omega))
      · rfl
    · exact reg64_cas s _ hp

theorem queue_setQueue_self (s : State) (q : Nat) (k : Queue) : (s.setQueue q k).queue q = k := get_put_self _ _ _ _

theorem queue_setQueue_ne {s : State} {q i : Nat} (h : i ≠ q) (k : Queue) : (s.setQueue q k).queue i = s.queue i := get_put_ne _ _ _ _ _ h

/-- Registers that do not stand in a queue's window, nor among the times at which queues start. -/
theorem reg64_setQueue (s : State) (q : Nat) (k : Queue) {b : Nat} (h2 : b / 4096 ≠ 2) (h4 : b < 0x4000 ∨ 0x8000 ≤ b) :
    reg64 (s.setQueue q k) b = reg64 s b := by
  unfold reg64
  split
  case h_10 =>
    have hw : (decide (4 ≤ b / 4096) && decide (b / 4096 < 8)) = false := by simp; omega
    simp only [hw]
    rfl
  case h_3 h => exact absurd h h2
  all_goals rfl

/-- A place within the window of a queue. -/
theorem window_place {q o : Nat} (hq : q < 64) (ho : o < 256) :
    (0x4000 + 256 * q + o) / 4096 = 4 + q / 16 ∧ (0x4000 + 256 * q + o) % 256 = o ∧ (0x4000 + 256 * q + o - 0x4000) / 256 = q := by
  omega

/-- The registers of the queues' windows. -/
theorem reg64_window (s : State) {b : Nat} (h : 0x4000 ≤ b ∧ b < 0x8000) :
    reg64 s b = match b % 256 with
      | 0x00 => some (s.queue ((b - 0x4000) / 256)).ring
      | 0x08 => some (s.queue ((b - 0x4000) / 256)).cpl
      | 0x10 => some (s.queue ((b - 0x4000) / 256)).save
      | _ => none := by
  unfold reg64
  split
  case h_10 =>
    have hw : (decide (4 ≤ b / 4096) && decide (b / 4096 < 8)) = true := by simp; omega
    simp only [hw]
    rfl
  all_goals exfalso; omega

/-- The times at which queues start, and the other power registers. -/
theorem reg64_startAt (s : State) {q : Nat} (hq : q < 64) : reg64 s (0x2100 + 8 * q) = some (s.queue q).startAt := by
  have hpage : (0x2100 + 8 * q) / 4096 = 2 := by omega
  have hentry : entryOf (0x2100 + 8 * q) 0x2100 8 64 = some q := (entryOf_some (by decide)).2 ⟨rfl, hq⟩
  have hno : entryOf (0x2100 + 8 * q) 0x2068 8 5 = none := by
    refine Classical.byContradiction fun h => ?_
    obtain ⟨i, hi⟩ := Option.ne_none_iff_exists'.1 h
    have := (entryOf_some (by decide)).1 hi
    omega
  simp only [reg64, hpage, hentry, hno]

theorem sets64_startAt {s : State} {q : Nat} (v : Nat) (hq : q < 64) :
    ∃ k, write64 s (0x2100 + 8 * q) v = s.setQueue q k ∧ Sets64 s (s.setQueue q k) (0x2100 + 8 * q) v := by
  have hentry : entryOf (0x2100 + 8 * q) 0x2100 8 64 = some q := (entryOf_some (by decide)).2 ⟨rfl, hq⟩
  refine ⟨{ s.queue q with startAt := v }, by simp only [write64, hentry], ?_, fun b hb => ?_⟩
  · rw [reg64_startAt _ hq, queue_setQueue_self]
  · by_cases hp : b / 4096 = 2
    · simp only [reg64, hp]
      split
      · rfl
      · next i hi _ =>
        have hiq : i ≠ q := fun e => hb (e ▸ ((entryOf_some (by decide)).1 hi).1)
        rw [queue_setQueue_ne hiq]
      · rfl
    · by_cases hw : 0x4000 ≤ b ∧ b < 0x8000
      · rw [reg64_window _ hw, reg64_window _ hw]
        by_cases hiq : (b - 0x4000) / 256 = q
        · rw [hiq, queue_setQueue_self]
        · rw [queue_setQueue_ne hiq]
      · exact reg64_setQueue s q _ hp (by omega)

/-- A queue that keeps the time at which it starts changes only the registers of its own window. -/
theorem reg64_other_window {s : State} {q b : Nat} {k : Queue} (hk : k.startAt = (s.queue q).startAt)
    (hb : ¬ (0x4000 + 256 * q ≤ b ∧ b < 0x4000 + 256 * q + 256)) : reg64 (s.setQueue q k) b = reg64 s b := by
  by_cases hp : b / 4096 = 2
  · simp only [reg64, hp]
    split
    · rfl
    · next i hi _ =>
      by_cases hiq : i = q
      · subst hiq
        rw [queue_setQueue_self, hk]
      · rw [queue_setQueue_ne hiq]
    · rfl
  · by_cases hw : 0x4000 ≤ b ∧ b < 0x8000
    · rw [reg64_window _ hw, reg64_window _ hw, queue_setQueue_ne (by omega)]
    · exact reg64_setQueue s q _ hp (by omega)

/-- A 64-bit write in the windows of the queues. -/
theorem write64_window (s : State) {q o : Nat} (v : Nat) (hq : q < 64) (ho : o < 256) :
    write64 s (0x4000 + 256 * q + o) v = writeQBase s (0x4000 + 256 * q + o) v := by
  have hno : ∀ {base n}, base = 0x2100 ∨ base = 0xA100 → n = 64 → entryOf (0x4000 + 256 * q + o) base 8 n = none := by
    intro base n hbase hn
    refine Classical.byContradiction fun h => ?_
    obtain ⟨i, hi⟩ := Option.ne_none_iff_exists'.1 h
    have := (entryOf_some (by decide)).1 hi
    omega
  have hin : 0x4000 ≤ 0x4000 + 256 * q + o ∧ 0x4000 + 256 * q + o < 0x8000 := by omega
  simp only [write64, hno (.inl rfl) rfl, hno (.inr rfl) rfl]
  rw [if_pos (by simpa using hin)]

/-- The base registers of a queue, locked while it is enabled (13 R398). -/
theorem sets64_window {s : State} {q o : Nat} (v : Nat) (hq : q < 64) (ho : o = 0 ∨ o = 8 ∨ o = 16) (he : (s.queue q).enable = false) :
    ∃ k, write64 s (0x4000 + 256 * q + o) v = s.setQueue q k ∧ Sets64 s (s.setQueue q k) (0x4000 + 256 * q + o) v := by
  obtain ⟨-, hoff, hqueue⟩ := window_place (o := o) hq (by omega)
  have hin : 0x4000 ≤ 0x4000 + 256 * q + o ∧ 0x4000 + 256 * q + o < 0x8000 := by omega
  have hdiff : ∀ b, b ≠ 0x4000 + 256 * q + o → 0x4000 + 256 * q ≤ b ∧ b < 0x4000 + 256 * q + 256 →
      (b - 0x4000) / 256 = q ∧ (0x4000 ≤ b ∧ b < 0x8000) ∧ b % 256 ≠ o := by omega
  rw [write64_window _ _ hq (by omega), writeQBase, hqueue, hoff, he, if_neg (by decide)]
  rcases ho with rfl | rfl | rfl
  all_goals
    refine ⟨_, rfl, ?_, fun b hb => ?_⟩
    · rw [reg64_window _ hin, hoff, hqueue, queue_setQueue_self]
      rfl
    · by_cases hwin : 0x4000 + 256 * q ≤ b ∧ b < 0x4000 + 256 * q + 256
      · obtain ⟨hbq, hbin, hne⟩ := hdiff b hb hwin
        rw [reg64_window _ hbin, reg64_window _ hbin, hbq, queue_setQueue_self]
        split <;> simp_all
      · exact reg64_other_window rfl hwin

/-- The 64-bit registers that are written whole, each under the condition of its lock (18 R554). -/
def Writable64 (s : State) (a : Nat) : Prop :=
  a ∈ [0x2010, 0x2018, 0x9430, 0x9438] ∨ (∃ q, q < 64 ∧ a = 0x2100 + 8 * q) ∨ (a = 0x2020 ∧ s.pwr.state ≠ 4) ∨
    (a ∈ [0x8100, 0x8110, 0x8130, 0x9408, 0x9418, 0x9420] ∧ s.slots.sids = []) ∨
    (a ∈ [0xA020, 0xA028, 0xA030, 0xA038, 0xA080, 0xA088] ∧ s.cas.enable = false) ∨
    (∃ k, k < 64 ∧ k % 4 ≠ 3 ∧ a = 0xA100 + 8 * k ∧ s.cas.enable = false) ∨
    (∃ q, q < 64 ∧ a ∈ [0x4000 + 256 * q, 0x4008 + 256 * q, 0x4010 + 256 * q] ∧ (s.queue q).enable = false)

/-- Nothing differs but the parts of the state in which the 64-bit registers stand. -/
def Only64 (s t : State) : Prop :=
  t = { s with pwr := t.pwr, qs := t.qs, slots := t.slots, pg := t.pg, tier := t.tier, cas := t.cas }

theorem sets64_only64 {s t : State} {a v : Nat} (hs : Sets64 s t a v) (ho : Only64 s t) (hw : write64 s a v = t) :
    Sets64 s (write64 s a v) a v ∧ Only64 s (write64 s a v) := hw ▸ ⟨hs, ho⟩

theorem write64_sets {s : State} {a : Nat} (h : Writable64 s a) (v : Nat) : Sets64 s (write64 s a v) a v ∧ Only64 s (write64 s a v) := by
  have hpwr := fun h => let ⟨_, hw, hs⟩ := sets64_pwr (s := s) (a := a) v h; sets64_only64 hs rfl hw
  have htier := fun h => let ⟨_, _, hw, hs⟩ := sets64_tier (s := s) (a := a) v h; sets64_only64 hs rfl hw
  rcases h with h | ⟨q, hq, rfl⟩ | ⟨rfl, h4⟩ | ⟨h, hs⟩ | ⟨h, he⟩ | ⟨k, hk, h3, rfl, he⟩ | ⟨q, hq, h, he⟩
  · simp only [List.mem_cons, List.not_mem_nil, or_false] at h
    rcases h with rfl | rfl | h
    · exact hpwr (.inl rfl)
    · exact hpwr (.inr (.inl rfl))
    · exact htier (.inl (by simpa using h))
  · obtain ⟨_, hw, hs⟩ := sets64_startAt (s := s) v hq
    exact sets64_only64 hs rfl hw
  · exact hpwr (.inr (.inr ⟨rfl, h4⟩))
  · by_cases hpg : a ∈ [0x8100, 0x8110, 0x8130]
    · obtain ⟨_, hw, hs⟩ := sets64_pg v hpg hs
      exact sets64_only64 hs rfl hw
    · exact htier (.inr ⟨by simp_all, hs⟩)
  · obtain ⟨_, hw, hs⟩ := sets64_cas v h he
    exact sets64_only64 hs rfl hw
  · obtain ⟨_, hw, hs⟩ := sets64_pair v hk h3 he
    exact sets64_only64 hs rfl hw
  · have hplace : ∃ o, (o = 0 ∨ o = 8 ∨ o = 16) ∧ a = 0x4000 + 256 * q + o := by
      simp only [List.mem_cons, List.not_mem_nil, or_false] at h
      rcases h with rfl | rfl | rfl
      · exact ⟨0, by simp, rfl⟩
      · exact ⟨8, by simp, by omega⟩
      · exact ⟨16, by simp, by omega⟩
    obtain ⟨o, ho, rfl⟩ := hplace
    obtain ⟨_, hw, hs⟩ := sets64_window v hq ho he
    exact sets64_only64 hs rfl hw


theorem exec_reg64LowWrite (a : BitVec 24) (v : Word) (s : State) : exec (.reg64LowWrite a v) s = .next (portWrite a.toNat v.toNat s) := rfl

theorem exec_reg64HighWrite (a : BitVec 24) (v : Word) (s : State) :
    exec (.reg64HighWrite a v) s = .next (portWrite a.toNat v.toNat s) := rfl

theorem exec_reg64LowRead (a : BitVec 24) (s : State) : exec (.reg64LowRead a) s = .next (portRead a.toNat s) := rfl

theorem portWrite_reaches {s : State} {a : Nat} (v : Nat) (h : Reaches s a) : portWrite a v s = ctrlWrite s a v := by
  rw [portWrite, portAccess_reaches h, portNow_write _ _ _ h.2.1]

/-- The high word of a 64-bit register stands at no multiple of 8 bytes. -/
theorem reg64_high {s : State} {a w : Nat} (h : reg64 s a = some w) : reg64 s (a + 4) = none := by
  refine Classical.byContradiction fun hne => ?_
  obtain ⟨v, hv⟩ := Option.ne_none_iff_exists'.1 hne
  have := reg64_aligned h
  have := reg64_aligned hv
  omega

theorem isLow_high {s : State} {a w : Nat} (h : reg64 s a = some w) : isLow s (a + 4) = false := by
  rw [isLow, reg64_high h]
  rfl

theorem isHigh_high {s : State} {a w : Nat} (h : reg64 s a = some w) : isHigh s (a + 4) = true := by
  simp [isHigh, h]

/-- A high-word write sets the register from the staged low word, which is staged no longer. -/
theorem ctrlWrite_high {s : State} {a old : Nat} (v : Nat) (h : reg64 s a = some old) :
    ctrlWrite s (a + 4) v =
      write64 { s with ctl := { s.ctl with staged := s.ctl.staged.del a } } a ((s.ctl.staged.find a).getD (old % 2 ^ 32) + v * 2 ^ 32) := by
  have hal : ((a + 4) % 4 != 0) = false := by
    have := reg64_aligned h
    simp
    omega
  simp only [ctrlWrite, hal, isLow_high h, isHigh_high h, Nat.add_sub_cancel, h, Option.getD_some, Nat.shiftLeft_eq]
  rfl

/-- A 64-bit register and its high word stand at none of the places where a read captures something else. -/
theorem reg64_not_window {s : State} {a v b : Nat} (h : reg64 s a = some v) (hb : b = a ∨ b = a + 4) :
    b % 4 = 0 ∧ b ≠ 0x8040 ∧ b ≠ 0xB00C ∧ (decide (0x100000 ≤ b) && b % 4096 == 0xC) = false := by
  have hal := reg64_aligned h
  have hslot : a ≠ 0x8040 := by
    rintro rfl
    cases h
  have htbl : a ≠ 0xB008 := by
    rintro rfl
    cases h
  have hcore : 0x100000 ≤ a → a % 4096 ≠ 8 := fun hge hmod => by
    rw [reg64_core (c := a / 4096 - 256) (by omega) (by omega)] at h
    cases h
  simp only [Bool.and_eq_false_iff, decide_eq_false_iff_not, beq_eq_false_iff_ne]
  rcases hb with rfl | rfl <;> refine ⟨?_, ?_, ?_, ?_⟩ <;> omega

theorem ctrlRead_low {s : State} {a v : Nat} (h : reg64 s a = some v) :
    ctrlRead s a = (v % 2 ^ 32, { s with ctl := { s.ctl with captured := s.ctl.captured.put a v } }) := by
  obtain ⟨hal, hslot, htbl, hcw⟩ := reg64_not_window h (.inl rfl)
  simp [ctrlRead, hal, hslot, htbl, hcw, h]

theorem ctrlRead_high {s : State} {a v w : Nat} (h : reg64 s a = some w) (hc : s.ctl.captured.find a = some v) :
    ctrlRead s (a + 4) = (v / 2 ^ 32, { s with ctl := { s.ctl with captured := s.ctl.captured.del a } }) := by
  obtain ⟨hal, hslot, htbl, hcw⟩ := reg64_not_window h (.inr rfl)
  simp only [ctrlRead, hcw, reg64_high h, isHigh_high h, Nat.add_sub_cancel, hc, Option.getD_some, Nat.shiftRight_eq_div_pow,
    bne_iff_ne, ne_eq, beq_iff_eq, hslot, htbl, hal, not_true_eq_false, ite_false, ite_true, Bool.false_eq_true]

theorem write64_dirBase {s : State} (v : Nat) (hs : s.slots.sids = []) :
    write64 s 0x8000 v = { s with pg := { s.pg with init := false }, slots := { s.slots with dirBase := v - v % 2 ^ 26 } } :=
  if_neg (by simp [anyAdmitted, hs])

/-- The read-only 64-bit registers. -/
theorem write64_readOnly {s : State} {a : Nat} (v : Nat)
    (ha : a ∈ [0x08, 0x18, 0x1050, 0x2038, 0x2040, 0x2048, 0x2050, 0x2058, 0x2060, 0x3010, 0x9010, 0x9018, 0x9020, 0x9458, 0x9460,
      0x9468, 0xA060, 0xA068, 0xA070, 0xA078, 0xC018, 0xC0E0, 0x18008, 0x18010, 0x18018, 0x18020, 0x18028]) : write64 s a v = s := by
  simp only [List.mem_cons, List.not_mem_nil, or_false] at ha
  repeat' obtain rfl | ha := ha
  all_goals rfl

theorem ofNat24_toNat {a : Nat} (h : a < 2 ^ 24) : (BitVec.ofNat 24 a).toNat = a := by
  rw [BitVec.toNat_ofNat, Nat.mod_eq_of_lt h]

theorem reg64_ctl (s : State) (c : Ctl) (a : Nat) : reg64 { s with ctl := c } a = reg64 s a := by
  unfold reg64
  rfl

/-- Settles O11: low words are staged and captured, and a high word makes the whole register. -/
theorem wide64RegistersStageAndCapture : Obligations.Wide64RegistersStageAndCapture := by
  unfold Obligations.Wide64RegistersStageAndCapture
  refine ⟨⟨fun a v s h hal hlow => ?_, fun a s v h hal hr => ?_, fun a s v w h hal hlt hr hc => ?_⟩,
    fun a v s old h hready hlt hr => ?_⟩
  · rw [exec_reg64LowWrite, portWrite_reaches _ h]
    simp [ctrlWrite, hal, hlow]
  · rw [exec_reg64LowRead, portRead_reaches h, ctrlRead_low hr]
    refine ⟨_, rfl, ?_, find_put_self .., rfl⟩
    exact congrArg (fun w => s.ctl.answers ++ [w]) (BitVec.eq_of_toNat_eq (by simp))
  · have hofs := ofNat24_toNat hlt
    rw [exec_read_reaches (by rwa [hofs]), hofs, ctrlRead_high hr hc]
  · have hexec : exec (.reg64HighWrite (BitVec.ofNat 24 (a + 4)) v) s = .next (write64 { s with ctl := { s.ctl with staged := s.ctl.staged.del a } } a
        ((s.ctl.staged.find a).getD (old % 2 ^ 32) + v.toNat * 2 ^ 32)) := by
      rw [exec_reg64HighWrite, ofNat24_toNat hlt, portWrite_reaches _ h, ctrlWrite_high _ hr]
    intro new write
    refine ⟨fun hw => ?_, ?_, fun ha => ?_⟩
    · obtain ⟨⟨hself, hother⟩, honly⟩ := write64_sets (s := { s with ctl := { s.ctl with staged := s.ctl.staged.del a } }) hw new
      refine ⟨_, hexec, hself, fun b hb => (hother b hb).trans (reg64_ctl ..), ?_, ?_⟩
      · rw [honly]
      · rw [honly]
    · rintro rfl hs
      exact ⟨_, hexec.trans (congrArg _ (write64_dirBase _ hs)), rfl, rfl⟩
    · rw [hexec, write64_readOnly _ ha]

end Sys2Proof.Proofs


section
set_option Elab.async false
/-! Register writes: the fields of plain registers, and writes that change nothing (00 R17, R18; 18 R554). -/
namespace Sys2Proof.Proofs
open Sys2Proof Sys2Proof.Machine Sys2Proof.Laws Sys2Proof.Safety

theorem reaches_of_awake {s : State} (hrst : s.life.rstLow = false) (h : Awake s) (a : Nat) : Reaches s a :=
  ⟨hrst, .inl h.1, .inl h.2⟩

/-- In an engine that is awake a write of a 32-bit register acts at once. -/
theorem exec_regWrite_reg32 {s : State} {a : BitVec 24} (v : Word) (hrst : s.life.rstLow = false) (h : Awake s) (hal : a.toNat % 4 = 0)
    (hlow : reg64 s a.toNat = none) (hhigh : reg64 s (a.toNat - 4) = none) :
    exec (.regWrite a v) s = .next (write32 s a.toNat v.toNat) := by
  rw [exec_regWrite_port, portWrite_reg32 _ (reaches_of_awake hrst h _) hal hlow hhigh]

theorem exec_regWrite_misaligned {s : State} {a : BitVec 24} (v : Word) (hrst : s.life.rstLow = false) (h : Awake s) (hal : a.toNat % 4 ≠ 0) :
    exec (.regWrite a v) s = .next (portViol s 6 0x07 a.toNat) := by
  rw [exec_regWrite_port, portWrite_reaches _ (reaches_of_awake hrst h _)]
  simp [ctrlWrite, hal]

/-- The registers of a queue's window that are no 64-bit base. -/
theorem reg64_window_none (s : State) {q o : Nat} (hq : q < 64) (ho : o < 256) (h0 : o ≠ 0) (h8 : o ≠ 8) (h16 : o ≠ 16) :
    reg64 s (0x4000 + 256 * q + o) = none := by
  obtain ⟨-, hoff, -⟩ := window_place hq ho
  rw [reg64_window _ (by omega), hoff]
  split <;> simp_all

theorem write32_window (s : State) {q o : Nat} (v : Nat) (hq : q < 64) (ho : o < 256) :
    write32 s (0x4000 + 256 * q + o) v = writeQueue s q o v := by
  obtain ⟨hpage, hoff, hqueue⟩ := window_place hq ho
  have hpages : q / 16 = 0 ∨ q / 16 = 1 ∨ q / 16 = 2 ∨ q / 16 = 3 := by omega
  rw [write32, hpage, hoff, hqueue]
  rcases hpages with h | h | h | h <;> rw [h] <;> rfl

/-- The routes of the event lines. -/
theorem write32_route (s : State) {n : Nat} (v : Nat) (hn : n < 8) :
    write32 s (0x3040 + 4 * n) v = { s with evt := { s.evt with route := s.evt.route.put n (fld v 0 9) } } := by
  have hentry : entryOf (0x3040 + 4 * n) 0x3040 4 8 = some n := (entryOf_some (by decide)).2 ⟨rfl, hn⟩
  have hpage : (0x3040 + 4 * n) / 4096 = 3 := by omega
  simp only [write32, hpage, writeInput, hentry]

theorem reg64_input_none (s : State) {a : Nat} (h : a / 4096 = 3) (ha : a ≠ 0x3010) : reg64 s a = none := by
  simp [reg64, h, ha]

theorem fld_div (v lo w : Nat) : fld v lo w = v / 2 ^ lo % 2 ^ w := by rw [fld, Nat.shiftRight_eq_div_pow]

theorem write32_setpoints (s : State) (v : Nat) :
    write32 s 0x200C v = { s with pwr := { s.pwr with tempHi := v % 256, tempLo := v / 256 % 256 } } := by
  rw [show v / 256 % 256 = fld v 8 8 from (fld_div v 8 8).symm]
  rfl

theorem write32_tblAddr (s : State) (v : Nat) : write32 s 0xB008 v = { s with tbl := { s.tbl with addr := 4 * (v / 4 % 2 ^ 14) } } := by
  rw [show v / 4 % 2 ^ 14 = fld v 2 14 from (fld_div v 2 14).symm]
  rfl

/-- The base registers of an enabled queue are locked. -/
theorem writeQBase_locked {s : State} {q o : Nat} (v : Nat) (hq : q < 64) (ho : o < 256) (he : (s.queue q).enable = true) :
    writeQBase s (0x4000 + 256 * q + o) v = locked s (0x4000 + 256 * q + o) := by
  obtain ⟨-, -, hqueue⟩ := window_place hq ho
  rw [writeQBase, hqueue]
  exact if_pos he

theorem pageWrite_locked {s : State} (hs : s.slots.sids ≠ []) (a : Nat) (f : State → State) : pageWrite s a f = viol s 0 0x07 a 0 :=
  if_pos (by simpa [anyAdmitted] using hs)

theorem casWrite_locked {s : State} (he : s.cas.enable = true) (a : Nat) (f : Cascade → Cascade) : casWrite s a f = viol s 0 0x07 a 0 :=
  if_pos he

theorem write32_descCount_locked {s : State} (v : Nat) (hs : s.slots.sids ≠ []) : write32 s 0x8108 v = viol s 0 0x07 0x8108 0 :=
  pageWrite_locked hs 0x8108 fun s => { s with pg := { s.pg with descCount := v } }

theorem write32_shelfCount_locked {s : State} (v : Nat) (hs : s.slots.sids ≠ []) : write32 s 0x9410 v = viol s 0 0x07 0x9410 0 :=
  pageWrite_locked hs 0x9410 fun s => { s with tier := { s.tier with shelfCount := v } }

theorem write32_commit_locked {s : State} (v : Nat) (he : s.cas.enable = true) : write32 s 0xA010 v = viol s 0 0x07 0xA010 0 :=
  casWrite_locked he 0xA010 fun c => { c with commitBar := fld v 0 6, commitEn := bit v 8 }

theorem reg64_window_ring (s : State) {q : Nat} (hq : q < 64) : ∃ w, reg64 s (0x4000 + 256 * q + 0) = some w := by
  obtain ⟨-, hoff, hqueue⟩ := window_place (o := 0) hq (by decide)
  rw [reg64_window _ (by omega), hoff, hqueue]
  exact ⟨_, rfl⟩

/-- Settles O12: plain registers take their fields, and locked ones keep theirs and log the write. -/
theorem registerWritesTakeTheirFields : Obligations.RegisterWritesTakeTheirFields := by
  unfold Obligations.RegisterWritesTakeTheirFields
  refine ⟨fun v s hrst h => ?_, fun v s hrst h => ?_⟩
  · refine ⟨?_, ?_, ?_, ?_, ?_, ?_, fun q => ?_, fun n => ?_, ?_, ?_, fun a ha => exec_regWrite_misaligned v hrst h ha⟩
    case refine_7 =>
      have hq : q.toNat < 64 := q.isLt
      have haddr : (BitVec.ofNat 24 (0x4028 + 256 * q.toNat)).toNat = 0x4000 + 256 * q.toNat + 0x28 := by
        rw [ofNat24_toNat (by omega)]
        omega
      rw [exec_regWrite_reg32 v hrst h (by omega) (haddr ▸ reg64_window_none s hq (by decide) (by decide) (by decide) (by decide)) ?_, haddr,
        write32_window s _ hq (by decide)]
      · rfl
      · rw [haddr]
        exact reg64_window_none s (o := 0x24) hq (by decide) (by decide) (by decide) (by decide)
    case refine_8 =>
      have hn : n.toNat < 8 := n.isLt
      have haddr : (BitVec.ofNat 24 (0x3040 + 4 * n.toNat)).toNat = 0x3040 + 4 * n.toNat := ofNat24_toNat (by omega)
      rw [exec_regWrite_reg32 v hrst h (by omega) (reg64_input_none s (by omega) (by omega)) (reg64_input_none s (by omega) (by omega)), haddr,
        write32_route s _ hn]
      rfl
    all_goals rw [exec_regWrite_reg32 v hrst h rfl rfl rfl]
    case refine_1 => exact congrArg _ (write32_setpoints ..)
    case refine_6 => exact congrArg _ (write32_tblAddr ..)
    all_goals rfl
  · refine ⟨fun q he => ?_, fun hs => ⟨?_, ?_⟩, fun he => ?_⟩
    · have hq : q.toNat < 64 := q.isLt
      have hhigh : 0x4004 + 256 * q.toNat = (0x4000 + 256 * q.toNat + 0) + 4 := by omega
      obtain ⟨w, hreg⟩ : ∃ w, reg64 s (0x4000 + 256 * q.toNat + 0) = some w := reg64_window_ring s hq
      rw [exec_reg64HighWrite, ofNat24_toNat (by omega), portWrite_reaches _ (reaches_of_awake hrst h _), hhigh, ctrlWrite_high _ hreg,
        write64_window _ _ hq (by decide)]
      refine ⟨_, congrArg Host.Outcome.next (writeQBase_locked (o := 0) _ hq (by decide) he), by rw [locked, viol_eq], ?_⟩
      rw [locked, viol_flt]
      exact find_put_self ..
    · rw [exec_regWrite_reg32 v hrst h rfl rfl rfl]
      exact congrArg _ (write32_descCount_locked _ hs)
    · rw [exec_regWrite_reg32 v hrst h rfl rfl rfl]
      exact congrArg _ (write32_shelfCount_locked _ hs)
    · rw [exec_regWrite_reg32 v hrst h rfl rfl rfl]
      exact congrArg _ (write32_commit_locked _ he)

end Sys2Proof.Proofs
end

section
set_option Elab.async false
/-! The debug key: what each answer reads of the fuses (18 R561). -/
namespace Sys2Proof.Proofs
open Sys2Proof Sys2Proof.Machine Sys2Proof.Laws Sys2Proof.Safety

/-- The state with another debug key in its fuses. -/
def rekey (k : Nat) (s : State) : State := { s with fuse := { s.fuse with key := k } }

section
variable {k : Nat}

theorem trace_rekey (s : State) (code cls core q n op arg : Nat) :
    trace (rekey k s) code cls core q n op arg = rekey k (trace s code cls core q n op arg) := by
  simp only [trace, apply_ite (rekey k)]
  rfl

theorem fault_rekey (s : State) (cls code core : Nat) (inj : Bool) (cmd detail aux : Nat) :
    fault (rekey k s) cls code core inj cmd detail aux = rekey k (fault s cls code core inj cmd detail aux) := by
  simp only [fault, apply_ite (rekey k), ← trace_rekey]
  rfl

theorem viol_rekey (s : State) (cmd cause detail aux : Nat) : viol (rekey k s) cmd cause detail aux = rekey k (viol s cmd cause detail aux) := by
  simp only [viol, ← trace_rekey]
  rfl

theorem portViol_rekey (s : State) (port code aux : Nat) : portViol (rekey k s) port code aux = rekey k (portViol s port code aux) := by
  simp only [portViol, apply_ite (rekey k), ← viol_rekey]
  rfl

theorem ueFault_rekey (s : State) (c w aux : Nat) : ueFault (rekey k s) c w aux = rekey k (ueFault s c w aux) := by
  simp only [ueFault, ← fault_rekey]
  rfl

theorem startWake_rekey (s : State) (st : Nat) : startWake (rekey k s) st = rekey k (startWake s st) := by
  rw [startWake, startWake, show (rekey k s).pwr = s.pwr from rfl]
  cases s.pwr.move with
  | some m => rfl
  | none =>
    simp only [apply_ite (rekey k)]
    rfl

theorem wakeEvent_rekey (s : State) : wakeEvent (rekey k s) = rekey k (wakeEvent s) := by
  simp only [wakeEvent, apply_ite (rekey k), ← startWake_rekey]
  rfl

/-! ### Reads of the control space -/

theorem regBoot_rekey {s : State} (hk : s.fuse.key = 0 ↔ k = 0) (a : Nat) : regBoot (rekey k s) a = regBoot s a := by
  have hkey : (k != 0) = (s.fuse.key != 0) := by rw [Bool.eq_iff_iff, bne_iff_ne, bne_iff_ne, ne_eq, ne_eq, hk]
  have hstatus : fuseStatus (rekey k s) = fuseStatus s := by
    simp only [fuseStatus, rekey, hkey]
  unfold regBoot
  rw [hstatus]
  rfl

theorem reg32_rekey {s : State} (hk : s.fuse.key = 0 ↔ k = 0) (a : Nat) : reg32 (rekey k s) a = reg32 s a := by
  unfold reg32
  rw [regBoot_rekey hk]
  rfl

theorem reg64_rekey (s : State) (a : Nat) : reg64 (rekey k s) a = reg64 s a := rfl

theorem readCwData_rekey (s : State) (c : Nat) : readCwData (rekey k s) c = ((readCwData s c).1, rekey k (readCwData s c).2) := by
  have hnext : ∀ t, cwNext (rekey k t) c = rekey k (cwNext t c) := fun _ => rfl
  simp only [readCwData, ← hnext, apply_ite (rekey k), ← ueFault_rekey]
  rfl

theorem ctrlRead_rekey {s : State} (hk : s.fuse.key = 0 ↔ k = 0) (a : Nat) :
    ctrlRead (rekey k s) a = ((ctrlRead s a).1, rekey k (ctrlRead s a).2) := by
  have hpair : ∀ (x : Nat) (t : State), (x, rekey k t) = Prod.map id (rekey k) (x, t) := fun _ _ => rfl
  simp only [ctrlRead, reg64_rekey, reg32_rekey hk, portViol_rekey, readCwData_rekey]
  split
  · rfl
  split
  · rfl
  split
  · rfl
  split
  · rfl
  cases reg64 s a with
  | some v => rfl
  | none =>
    have hhigh : isHigh (rekey k s) a = isHigh s a := rfl
    simp only [hhigh]
    split <;> rfl

theorem portRead_rekey {s : State} (hk : s.fuse.key = 0 ↔ k = 0) (a : Nat) : portRead a (rekey k s) = rekey k (portRead a s) := by
  simp only [portRead, portAccess, portNow, apply_ite (rekey k), ← wakeEvent_rekey, ctrlRead_rekey hk]
  rfl

/-! ### The monitor -/

theorem takeLine_rekey (s : State) (l : List Byte) : takeLine (rekey k s) l = rekey k (takeLine s l) := by
  unfold takeLine
  cases readLine l with
  | none => rfl
  | some r =>
    simp only [apply_ite (rekey k)]
    rfl

theorem feedByte_rekey (s : State) (b : Byte) : feedByte (rekey k s) b = rekey k (feedByte s b) := by
  have hline : dropLine (rekey k s) = rekey k (dropLine s) := by
    simp only [dropLine, apply_ite (rekey k)]
    rfl
  simp only [feedByte, hline, apply_ite (rekey k), ← takeLine_rekey]
  rfl

theorem drainFifo_rekey (n : Nat) (s : State) : drainFifo n (rekey k s) = rekey k (drainFifo n s) := by
  induction n generalizing s with
  | zero => rfl
  | succ n ih =>
    rw [drainFifo, drainFifo, show (rekey k s).mon = s.mon from rfl, apply_ite (rekey k)]
    cases s.mon.fifo with
    | nil => rfl
    | cons b l => simp only [← ih, ← feedByte_rekey]; rfl

/-- What a command's execution comes to, with another debug key. -/
def rekeyRes (k : Nat) : MonRes → MonRes
  | .ok l s => .ok l (rekey k s)
  | .err e s => .err e (rekey k s)
  | .wait s => .wait (rekey k s)

/-- A command of the monitor reads no more of the fuses than the key being programmed. -/
def Blind (k : Nat) (run : State → List (List Byte) → MonRes) : Prop :=
  ∀ (s : State) ws, (s.fuse.key = 0 ↔ k = 0) → run (rekey k s) ws = rekeyRes k (run s ws)

theorem monRow_rekey {head : List String} {level : Nat} {run : State → List (List Byte) → MonRes} (hrun : Blind k run) {s : State}
    (hk : s.fuse.key = 0 ↔ k = 0) : monRow head level run (rekey k s) = rekey k (monRow head level run s) := by
  have hanswer : ∀ (t : State) seq c l, answer (rekey k t) seq c l = rekey k (answer t seq c l) := fun _ _ _ _ => rfl
  rw [monRow, monRow, show (rekey k s).mon = s.mon from rfl]
  cases s.mon.req with
  | none => rfl
  | some r =>
    simp only [show (rekey k s).running = s.running from rfl, show gate (rekey k s) level = gate s level from rfl, hrun s _ hk]
    split
    · rfl
    cases gate s level with
    | some e => exact (congrArg (drainFifo 64) (hanswer ..)).trans (drainFifo_rekey ..)
    | none => cases run s (r.2.drop head.length) <;> simp only [rekeyRes, hanswer, drainFifo_rekey]

theorem noArgs_blind {f : State → MonRes} (h : ∀ s, (s.fuse.key = 0 ↔ k = 0) → f (rekey k s) = rekeyRes k (f s)) : Blind k (noArgs f) := by
  intro s ws hk
  unfold noArgs
  split
  · exact h s hk
  · rfl

theorem whenAwake_rekey (s : State) (m : MonRes) : whenAwake (rekey k s) (rekeyRes k m) = rekeyRes k (whenAwake s m) := by
  simp only [whenAwake, apply_ite (rekeyRes k), wakeEvent_rekey]
  rfl

theorem dbgStatus_rekey (s : State) : dbgStatus (rekey k s) = dbgStatus s := rfl

theorem readWords_rekey {s : State} (hk : s.fuse.key = 0 ↔ k = 0) (n a : Nat) :
    readWords n (rekey k s) a = ((readWords n s a).1, rekey k (readWords n s a).2) := by
  induction n generalizing s a with
  | zero => rfl
  | succ n ih =>
    have hkey : (ctrlRead s a).2.fuse.key = 0 ↔ k = 0 := by rwa [(ctrlRead_keeps (a' := a) (Keeps.refl s)).fuse]
    simp only [readWords, ctrlRead_rekey hk, ih hkey]

theorem monChal_blind (e : BitVec 64) : Blind k (noArgs (monChal e)) := noArgs_blind fun s _ => by
  simp only [monChal, apply_ite (rekeyRes k)]
  rfl

theorem monRd_blind : Blind k monRd := by
  intro s ws hk
  have hreach : reachable (rekey k s) = reachable s := rfl
  simp only [monRd, readWords_rekey hk, whenAwake, wakeEvent_rekey, hreach]
  split
  · simp only [apply_ite (rekeyRes k)]
    rfl
  · simp only [apply_ite (rekeyRes k)]
    rfl
  · rfl

theorem monMd_blind : Blind k monMd := by
  intro s ws _
  have hreach : reachable (rekey k s) = reachable s := rfl
  simp only [monMd, whenAwake, wakeEvent_rekey, hreach]
  split
  · simp only [apply_ite (rekeyRes k)]
    rfl
  · rfl

theorem monCnt_blind : Blind k monCnt := by
  intro s ws _
  have hreach : reachable (rekey k s) = reachable s := rfl
  simp only [monCnt, whenAwake, wakeEvent_rekey, hreach]
  split
  · simp only [apply_ite (rekeyRes k)]
    rfl
  · simp only [apply_ite (rekeyRes k)]
    rfl
  · rfl

/-! ### The test access port -/

theorem seeInput_rekey (s : State) (i : Nat) (v : Bool) : seeInput (rekey k s) i v = rekey k (seeInput s i v) := by
  have hlevel : ∀ (t : State) i v, setLevel (rekey k t) i v = rekey k (setLevel t i v) := fun _ _ _ => rfl
  have hhalt : ∀ t, haltEngine (rekey k t) = rekey k (haltEngine t) := fun t => by
    simp only [haltEngine, apply_ite (rekey k)]
    rfl
  unfold seeInput
  rw [show (rekey k s).inp = s.inp from rfl, apply_ite (rekey k)]
  split
  · rfl
  split
  · simp only [seeHalt, hlevel, hhalt, apply_ite (rekey k)]
    rfl
  · rfl
  · simp only [seeWake, apply_ite (rekey k), ← wakeEvent_rekey]
    rfl
  · simp only [seeTrip, ← fault_rekey, apply_ite (rekey k)]
    rfl
  · simp only [seeDroop, apply_ite (rekey k)]
    rfl
  · rfl
  · exact hlevel ..

theorem lateAck_rekey (s : State) : lateAck (rekey k s) = rekey k (lateAck s) := by
  rw [lateAck, lateAck, show (rekey k s).pwr = s.pwr from rfl]
  cases s.pwr.move with
  | none => rfl
  | some m => 
    simp only [apply_ite (rekey k)]
    rfl

theorem fireInj_rekey (s : State) (n : Nat) (p : Inject → Bool) : fireInj (rekey k s) n p = ((fireInj s n p).1, rekey k (fireInj s n p).2) := by
  rw [fireInj, fireInj, show (rekey k s).mon = s.mon from rfl]
  cases s.mon.inj.find? fun i => i.kind == n && p i <;> rfl

theorem ackRise_rekey (s : State) : ackRise (rekey k s) = rekey k (ackRise s) := by
  simp only [ackRise, tracePower, apply_ite (rekey k), ← trace_rekey, ← portViol_rekey, fireInj_rekey, lateAck_rekey]
  rfl

theorem ackFall_rekey (s : State) : ackFall (rekey k s) = rekey k (ackFall s) := by
  simp only [ackFall, apply_ite (rekey k)]
  rfl

/-- The engine's inputs take their pins again, once no instruction holds them. -/
def freeInputs (s : State) : State :=
  let s := [0, 1, 2, 3].foldl (fun s i => seeInput s i (s.inp.pins.getLsbD i)) s
  if s.pwr.vackPin == s.pwr.vack then s else if s.pwr.vackPin then ackRise s else ackFall s

/-- What loading an instruction does to the state that already holds it, when one that held the inputs before is `was`. -/
def loadedInstr (was : Bool) (s : State) : State :=
  if was == tapHolds s || !s.running then s
  else if tapHolds s then [0, 1, 2, 3].foldl (fun s i => seeInput s i false) s
  else freeInputs s

theorem setInstr_eq (s : State) (ir : Nat) : setInstr s ir = loadedInstr (tapHolds s) { s with tap := { s.tap with ir := ir } } := rfl

theorem seePins_rekey (l : List Nat) (s : State) :
    l.foldl (fun s i => seeInput s i (s.inp.pins.getLsbD i)) (rekey k s) = rekey k (l.foldl (fun s i => seeInput s i (s.inp.pins.getLsbD i)) s) := by
  induction l generalizing s with
  | nil => rfl
  | cons i l ih =>
    rw [List.foldl_cons, show (rekey k s).inp = s.inp from rfl, seeInput_rekey]
    exact ih _

theorem freeInputs_rekey (s : State) : freeInputs (rekey k s) = rekey k (freeInputs s) := by
  unfold freeInputs
  rw [seePins_rekey]
  simp only [ackRise_rekey, ackFall_rekey, apply_ite (rekey k)]
  rfl

theorem loadedInstr_rekey (was : Bool) (s : State) : loadedInstr was (rekey k s) = rekey k (loadedInstr was s) := by
  simp only [loadedInstr, List.foldl, seeInput_rekey, freeInputs_rekey, apply_ite (rekey k)]
  rfl

theorem setInstr_rekey (s : State) (ir : Nat) : setInstr (rekey k s) ir = rekey k (setInstr s ir) :=
  loadedInstr_rekey (tapHolds s) { s with tap := { s.tap with ir := ir } }

/-- A test access port instruction does the same under either key. -/
theorem tap_rekey {s t t' : State} {shift : BitVec 35} {code : BitVec 4} {c : Instr}
    (hc : c ∈ [Instr.extest shift, .sample shift, .idcode, .clamp shift, .highz shift, .bypass code, .tapReset])
    (h : exec c s = .next t) (h' : exec c (rekey k s) = .next t') : t' = rekey k t := by
  have hboundary : ∀ ir, scanBoundary (rekey k s) ir shift = rekey k (scanBoundary s ir shift) := fun ir => by
    simp only [scanBoundary, setInstr_rekey]
    rfl
  have hbypass : ∀ ir, scanBypass (rekey k s) ir shift = rekey k (scanBypass s ir shift) := fun ir => by
    simp only [scanBypass, setInstr_rekey]
    rfl
  simp only [List.mem_cons, List.not_mem_nil, or_false] at hc
  rcases hc with rfl | rfl | rfl | rfl | rfl | rfl | rfl <;> cases h <;> cases h'
  · exact hboundary 0
  · exact hboundary 1
  · simp only [idcodeRow, setInstr_rekey]
    rfl
  · exact hbypass 3
  · exact hbypass 4
  · simp only [bypassRow, setInstr_rekey, apply_ite (rekey k)]
    rfl
  · exact setInstr_rekey ..

/-- A command of the monitor that answers with data does the same under either key. -/
theorem monitor_rekey {s t t' : State} {e : BitVec 64} {c : Instr} (hk : s.fuse.key = 0 ↔ k = 0)
    (hc : c ∈ [Instr.idCmd, .chal e, .lockCmd, .stCmd, .rdCmd, .mdCmd, .cntCmd, .trSt, .injSt])
    (h : exec c s = .next t) (h' : exec c (rekey k s) = .next t') : t' = rekey k t := by
  have hno : ∀ {f : State → MonRes}, (∀ s, f (rekey k s) = rekeyRes k (f s)) → ∀ {head level},
      monRow head level (noArgs f) (rekey k s) = rekey k (monRow head level (noArgs f) s) :=
    fun hf => monRow_rekey (noArgs_blind fun s _ => hf s) hk
  simp only [List.mem_cons, List.not_mem_nil, or_false] at hc
  rcases hc with rfl | rfl | rfl | rfl | rfl | rfl | rfl | rfl | rfl <;> cases h <;> cases h'
  · exact hno (f := monId) fun _ => rfl
  · exact monRow_rekey (monChal_blind e) hk
  · exact hno (f := monLock) fun _ => rfl
  · exact hno (f := monSt) fun _ => rfl
  · exact monRow_rekey monRd_blind hk
  · exact monRow_rekey monMd_blind hk
  · exact monRow_rekey monCnt_blind hk
  · exact hno (f := monTrSt) fun _ => rfl
  · exact hno (f := monInjSt) fun _ => rfl

end

/-- Settles O15: every answer is computed alike under two keys that are both programmed, or both not. -/
theorem debugKeyIsNotReadable : Obligations.DebugKeyIsNotReadable := by
  unfold Obligations.DebugKeyIsNotReadable
  intro s t t' k hk s'
  have hs' : s' = rekey k s := rfl
  clear_value s'
  subst hs'
  refine ⟨fun a h h' => ?_, fun c e hc h h' => ?_, fun c v code hc h h' => ?_⟩
  · rw [exec_controlPortRead] at h h'
    cases h
    cases h'
    exact congrArg (·.ctl.answers) (portRead_rekey hk a.toNat)
  · rw [monitor_rekey hk hc h h']
    rfl
  · rw [tap_rekey hc h h']
    exact ⟨rfl, rfl⟩

end Sys2Proof.Proofs
end

section
set_option Elab.async false
/-! The queues' doorbell and cancel registers (13 R399, R438). -/
namespace Sys2Proof.Proofs
open Sys2Proof Sys2Proof.Machine Sys2Proof.Laws Sys2Proof.Safety

/-- In an engine that is awake a write in a queue's window acts at once. -/
theorem portWrite_window {s : State} {q o : Nat} (v : Nat) (hrst : s.life.rstLow = false) (h : Awake s) (hq : q < 64)
    (ho : o ∈ [0x18, 0x1C, 0x28, 0x30]) : portWrite (0x4000 + 256 * q + o) v s = writeQueue s q o v := by
  have hoff : 4 ≤ o ∧ o < 256 ∧ o % 4 = 0 ∧ o ∉ [0, 8, 16] ∧ o - 4 ∉ [0, 8, 16] := by
    simp only [List.mem_cons, List.not_mem_nil, or_false] at ho
    rcases ho with rfl | rfl | rfl | rfl <;> decide
  obtain ⟨h4, hlt, hmod, hno, hnp⟩ := hoff
  simp only [List.mem_cons, List.not_mem_nil, or_false, not_or] at hno hnp
  have hprev : 0x4000 + 256 * q + o - 4 = 0x4000 + 256 * q + (o - 4) := by omega
  rw [portWrite_reg32 v (reaches_of_awake hrst h _) (by omega) (reg64_window_none s hq hlt hno.1 hno.2.1 hno.2.2)
    (hprev ▸ reg64_window_none s hq (by omega) hnp.1 hnp.2.1 hnp.2.2), write32_window s v hq hlt]

/-- An engine that is awake has nothing to wake from. -/
theorem wakeEvent_awake {s : State} (h : Awake s) : wakeEvent s = s := by
  obtain ⟨-, hst, hmv⟩ := h
  simp [wakeEvent, hst, hmv]

theorem exec_qDoorbell (q : BitVec 6) (v : Word) (s : State) :
    exec (.qDoorbell q v) s = .next (portWrite (0x4000 + 256 * q.toNat + 0x1C) v.toNat s) := by
  rw [show 0x4000 + 256 * q.toNat + 0x1C = 0x401C + 256 * q.toNat by omega]
  rfl

theorem exec_qCancel (q : BitVec 6) (v : Word) (s : State) :
    exec (.qCancel q v) s = .next (portWrite (0x4000 + 256 * q.toNat + 0x30) v.toNat s) := by
  rw [show 0x4000 + 256 * q.toNat + 0x30 = 0x4030 + 256 * q.toNat by omega]
  rfl

/-- A doorbell within the range of its ring publishes; any other is logged. -/
theorem ringBell_cases {s : State} (h : Awake s) (q v : Nat) :
    ringBell s q v =
      if (v % 2 ^ 16 + 65536 - (s.queue q).head) % 65536 ≤ 2 ^ (s.queue q).log2 ∧
          (v % 2 ^ 16 + 65536 - (s.queue q).tail) % 65536 ≤ 2 ^ (s.queue q).log2
      then s.setQueue q { s.queue q with tail := v % 2 ^ 16, startAt := 0 } else viol s 0 0x02 q v := by
  unfold ringBell
  have hwake : ∀ k, wakeEvent (s.setQueue q k) = s.setQueue q k := fun k => wakeEvent_awake (s := s.setQueue q k) h
  simp only [hwake]
  simp only [Bool.and_eq_true, decide_eq_true_eq]
  rfl

/-- A cancel of a queue that has no taken command covers published commands alone. -/
theorem cancelThrough_untaken {s : State} {q : Nat} (hno : ∀ j ∈ s.jobs, j.q ≠ q) (v : Nat) :
    let k := s.queue q
    let d := (v % 2 ^ 16 + 65536 - k.seq) % 65536
    let n := if d < 32768 then min ((k.tail + 65536 - k.head) % 65536) (d + 1) else 0
    cancelThrough s q v = s.setQueue q { k with cancelLeft := max k.cancelLeft n } := by
  have hnone : (s.jobs.filter fun j => j.q == q && decide ((fld v 0 16 + 65536 - j.n) % 65536 < 32768)) = [] := by
    simp only [List.filter_eq_nil_iff, Bool.and_eq_true, beq_iff_eq, not_and]
    exact fun j hj hjq => absurd hjq (hno j hj)
  unfold cancelThrough
  simp only [setQueue_jobs, hnone, List.foldl_nil, decide_eq_true_eq]
  rfl

/-- Settles O16: a doorbell publishes or is logged, and a cancel covers what is published through its number. -/
theorem doorbellsPublishAndCancelsCover : Obligations.DoorbellsPublishAndCancelsCover := by
  unfold Obligations.DoorbellsPublishAndCancelsCover
  refine ⟨fun q v s hrst h => ?_, fun q v s hrst h hno => ?_⟩
  · have hbell := (portWrite_window v.toNat hrst h q.isLt (o := 0x1C) (by decide)).trans (ringBell_cases h ..)
    rw [exec_qDoorbell, hbell]
    exact ⟨fun hok => congrArg _ (if_pos hok), fun hok => congrArg _ (if_neg hok)⟩
  · rw [exec_qCancel, portWrite_window v.toNat hrst h q.isLt (o := 0x30) (by decide)]
    exact congrArg _ (cancelThrough_untaken hno v.toNat)

end Sys2Proof.Proofs
end

section
set_option Elab.async false
/-! Commands are taken and their dependencies released (13 R401, R402, R406, R438, R440; 12 R381). -/
namespace Sys2Proof.Proofs
open Sys2Proof Sys2Proof.Machine Sys2Proof.Laws Sys2Proof.Safety

theorem bit_eq_testBit (x i : Nat) : bit x i = x.testBit i := by
  rw [Nat.testBit_eq_decide_div_mod_eq, bit, Nat.shiftRight_eq_div_pow]
  rfl

/-- The number whose bits below `n` are those of `p`. -/
def bitsOf (p : Nat → Bool) (n : Nat) : Nat := (List.range n).foldl (fun m i => if p i then m + 2 ^ i else m) 0

theorem bitsOf_succ (p : Nat → Bool) (n : Nat) : bitsOf p (n + 1) = if p n then bitsOf p n + 2 ^ n else bitsOf p n := by
  simp [bitsOf, List.range_succ]

theorem bitsOf_lt (p : Nat → Bool) (n : Nat) : bitsOf p n < 2 ^ n := by
  induction n with
  | zero => exact Nat.one_pos
  | succ n ih =>
    rw [bitsOf_succ, Nat.pow_succ]
    split <;> omega

theorem bit_bitsOf (p : Nat → Bool) {n i : Nat} (hi : i < n) : bit (bitsOf p n) i = p i := by
  rw [bit_eq_testBit]
  induction n with
  | zero => omega
  | succ n ih =>
    have hlt := bitsOf_lt p n
    rw [bitsOf_succ]
    rcases Nat.lt_succ_iff_lt_or_eq.1 hi with h | rfl
    · split
      · rw [Nat.add_comm, Nat.testBit_two_pow_add_gt h, ih h]
      · exact ih h
    · split
      · rw [Nat.add_comm, Nat.testBit_two_pow_add_eq, Nat.testBit_lt_two_pow hlt, ‹p i = true›]
        rfl
      · rw [Nat.testBit_lt_two_pow hlt]
        simp_all

/-- The dependencies that stay (13 R406). -/
theorem bit_depsLeft (s : State) (j : Job) {i : Nat} (hi : i < 16) : bit (depsLeft s j) i = true ↔ bit j.deps i = true ∧
    ∃ k ∈ s.jobs, k.q = j.q ∧ k.n = (j.n + 65536 - (i + 1)) % 65536 ∧ k.take < j.take ∧ (s.queue j.q).since ≤ k.take := by
  have hbits : depsLeft s j = bitsOf (fun i => bit j.deps i && s.jobs.any (fun k => k.q == j.q && k.n == (j.n + 65536 - (i + 1)) % 65536 &&
      decide (k.take < j.take) && decide ((s.queue j.q).since ≤ k.take))) 16 := rfl
  rw [hbits, bit_bitsOf _ hi]
  simp [and_assoc]

theorem breakTake_quiet {s : State} (h : s.mon.bp = []) (q n : Nat) : breakTake s q n = s := by
  have hnone : breakpoint s q n 0 = none := by
    simp [breakpoint, h, Tab.get, Tab.find, show bit 0 31 = false from rfl]
  simp [breakTake, hnone]

theorem injectMiss_quiet {s : State} (h : s.mon.inj = []) (q n : Nat) : injectMiss s q n = s := by
  simp [injectMiss, fireInj, h]

theorem fetchAhead_off {s : State} (h : s.str.ahead = 0) (q : Nat) : fetchAhead s q = s := by simp [fetchAhead, h]

theorem exec_commandTake (q : BitVec 6) (s : State) : exec (.commandTake q) s = .next (fetchAhead (commandTake q s) q.toNat) := rfl

theorem exec_dependencyRelease (q : BitVec 6) (n : BitVec 16) (s : State) :
    exec (.dependencyRelease q n) s = .next (fetchAhead (dependencyRelease q n s) q.toNat) := rfl

theorem dependencyRelease_of_job {q : BitVec 6} {n : BitVec 16} {s : State} {j : Job} (h : s.job q.toNat n.toNat = some j) :
    dependencyRelease q n s = s.setJob { j with deps := depsLeft s j } := by
  simp [dependencyRelease, State.withJob, h]

theorem awake_of_awake {s : State} (h : Awake s) : s.awake = true := by
  obtain ⟨hr, hst, hmv⟩ := h
  simp [State.awake, hr, hst, hmv]

/-- The next published command of a queue. -/
def nextCommand (s : State) (q : Nat) : List Byte := (s.t1.fetch ((s.queue q).ring + 64 * ((s.queue q).head % 2 ^ (s.queue q).log2)) 64).1

/-- The job of the next published command, before its dependencies and fences are looked up. -/
def nextJob (s : State) (q : Nat) : Job :=
  { q := q, n := (s.queue q).seq, take := s.takeNo, cmd := nextCommand s q, prio := (s.queue q).prio, noDl := (s.queue q).noDl
    abort := (s.queue q).abort, deps := ofLe (((nextCommand s q).drop 4).take 2), phase := .waiting, attempt := s.cas.attempt
    stepCmd := bit s.cas.qmask q && s.cas.state == 2 }

/-- The job that a taken command becomes. -/
def takenJob (s : State) (q : Nat) : Job := { nextJob s q with deps := depsLeft s (nextJob s q), fences := fencesOf s (nextJob s q) }

/-- The state in which the next command has been taken, before its fields are looked at. -/
def tookCommand (s : State) (q : Nat) : State :=
  { s.setQueue q { s.queue q with
      head := ((s.queue q).head + 1) % 65536
      seq := ((s.queue q).seq + 1) % 65536
      cancelLeft := (s.queue q).cancelLeft - 1
      rollLeft := (s.queue q).rollLeft - 1 } with takeNo := s.takeNo + 1, jobs := s.jobs ++ [takenJob s q] }

/-- A taken command is malformed, cancelled, rolled back, or stands as it is. -/
def settleTaken (s : State) (j : Job) (cancel roll : Nat) : State :=
  match takeBad s j.q j.n j.cmd with
  | some o => reject s j 0x01 o 0
  | none => if cancel != 0 then s.setJob (j.mark 3).end else if roll != 0 then s.setJob (j.mark 7).end else s

/-- What keeps a queue from taking its next command. -/
def takesNone (s : State) (q : Nat) : Bool :=
  !s.awake || !(s.queue q).enable || (s.queue q).head == (s.queue q).tail || decide (64 ≤ (s.jobs.filter fun j => j.q == q).length) ||
    decide (2 ^ (s.queue q).log2 ≤ (s.jobs.filter fun j => j.q == q).length + ((s.queue q).cplTail + 65536 - (s.queue q).cplHead) % 65536) ||
    (bit s.cas.qmask q && !s.cas.resumed && (s.queue q).rollLeft == 0)

theorem takesNone_false {s : State} {q : Nat} (h : Awake s) (hen : (s.queue q).enable = true) (hpub : (s.queue q).head ≠ (s.queue q).tail)
    (hfl : (s.jobs.filter fun j => j.q == q).length < 64)
    (hroom : (s.jobs.filter fun j => j.q == q).length + ((s.queue q).cplTail + 65536 - (s.queue q).cplHead) % 65536 < 2 ^ (s.queue q).log2)
    (hmask : bit s.cas.qmask q = false) : takesNone s q = false := by
  simp [takesNone, awake_of_awake h, hen, hpub, hmask, hfl, hroom]

theorem commandTake_eq (q : BitVec 6) (s : State) : commandTake q s =
    if takesNone s q.toNat then s
    else
      let j := takenJob s q.toNat
      injectMiss (breakTake (settleTaken (trace (tookCommand s q.toNat) 0x01 0 0xFF q.toNat j.n j.op 0) j (s.queue q.toNat).cancelLeft
        (s.queue q.toNat).rollLeft) q.toNat j.n) q.toNat j.n := rfl

/-- A rejected command does nothing: it ends MALFORMED with flags 0 and no committed index (13 R440). -/
def rejected (j : Job) : Job := { ({ j with fl := 0, idx := none, members := [] }.mark 4) with vlogged := true }.end

theorem reject_fresh {j : Job} (h : j.vlogged = false) (s : State) (cause detail aux : Nat) :
    reject s j cause detail aux = (viol s j.loc cause detail aux).setJob (rejected j) := by
  simp [reject, malform, rejected, h, Job.loc, Job.op]

theorem mem_setJob {s : State} {j k : Job} (hk : k ∈ s.jobs) (h : k.take = j.take) : j ∈ (s.setJob j).jobs :=
  List.mem_map.2 ⟨k, hk, if_pos (by simp [h])⟩

theorem takenJob_mem (s : State) (q : Nat) : takenJob s q ∈ (tookCommand s q).jobs := List.mem_append_right _ List.mem_cons_self

theorem mark_malformed (j : Job) : (j.mark 4).status = 4 := by
  unfold Job.mark
  split
  · rfl
  · next h =>
    simp only [statusRank] at h
    split at h <;> simp_all

/-- With nothing armed the taken command is settled, and no more. -/
theorem commandTake_takes {q : BitVec 6} {s : State} (hq : Quiet s) (ht : takesNone s q.toNat = false) :
    commandTake q s = settleTaken (tookCommand s q.toNat) (takenJob s q.toNat) (s.queue q.toNat).cancelLeft (s.queue q.toNat).rollLeft := by
  obtain ⟨htr, hbp, hinj⟩ := hq
  have hmon : (settleTaken (tookCommand s q.toNat) (takenJob s q.toNat) (s.queue q.toNat).cancelLeft (s.queue q.toNat).rollLeft).mon = s.mon := by
    unfold settleTaken
    split
    · rw [reject_fresh rfl, setJob_mon]
      exact (viol_traceOff (tookCommand s q.toNat) _ _ _ _ htr).2
    · split
      · rfl
      · split <;> rfl
  rw [commandTake_eq, ht, if_neg Bool.false_ne_true]
  dsimp only
  rw [trace_off _ _ _ _ _ _ _ _ (show (tookCommand s q.toNat).mon.trOn = false from htr)]
  rw [breakTake_quiet (hmon ▸ hbp), injectMiss_quiet (hmon ▸ hinj)]

/-- Settles O17: the next command is taken whole and settled, and dependencies fall as the commands they name complete. -/
theorem commandsAreTakenAndReleased : Obligations.CommandsAreTakenAndReleased := by
  unfold Obligations.CommandsAreTakenAndReleased
  refine ⟨fun q s h hq => ?_, fun q n s j hj => ?_, fun q s ha => fetchAhead_off ha q⟩
  · intro k unread flight hen hpub hfl hroom hmask hroll c j qs
    have htakes : takesNone s q.toNat = false := takesNone_false h hen hpub hfl hroom hmask
    have hnext : nextJob s q.toNat = j := by
      simp [nextJob, hmask, j, c, nextCommand, k]
    have htook : tookCommand s q.toNat = { s with qs := qs, takeNo := s.takeNo + 1, jobs := s.jobs ++ [takenJob s q.toNat] } := by
      simp [tookCommand, State.setQueue, qs, hroll, k]
    have hexec : exec (.commandTake q) s = .next (fetchAhead (settleTaken (tookCommand s q.toNat) (takenJob s q.toNat) k.cancelLeft 0) q.toNat) := by
      rw [exec_commandTake, commandTake_takes hq htakes, ← hroll]
    have hsettle : settleTaken (tookCommand s q.toNat) (takenJob s q.toNat) k.cancelLeft 0 = match takeBad s q.toNat k.seq c with
      | some o => reject (tookCommand s q.toNat) (takenJob s q.toNat) 0x01 o 0
      | none => if k.cancelLeft != 0 then (tookCommand s q.toNat).setJob ((takenJob s q.toNat).mark 3).end else tookCommand s q.toNat := rfl
    refine ⟨fun hok hc => ?_, fun hok hc => ?_, fun o hbad => ?_⟩
    · rw [hexec, hsettle, hok, hc, htook, takenJob, hnext]
      rfl
    · rw [hexec, hsettle, hok]
      refine ⟨_, ((takenJob s q.toNat).mark 3).end, by rw [if_pos (by simpa using hc)], mem_setJob (takenJob_mem s q.toNat) rfl, rfl, rfl, rfl, rfl, rfl, ?_⟩
      rw [htook]
      rfl
    · have hrej : settleTaken (tookCommand s q.toNat) (takenJob s q.toNat) k.cancelLeft 0 =
          (viol (tookCommand s q.toNat) (takenJob s q.toNat).loc 1 o 0).setJob (rejected (takenJob s q.toNat)) := by
        rw [hsettle, hbad]
        exact reject_fresh rfl ..
      obtain ⟨ht1, hmon⟩ := viol_traceOff (tookCommand s q.toNat) (takenJob s q.toNat).loc 1 o 0 hq.1
      rw [hexec, hrej]
      refine ⟨_, rejected (takenJob s q.toNat), rfl, mem_setJob (k := takenJob s q.toNat) ?_ rfl, rfl, rfl, rfl, mark_malformed _, rfl, rfl, rfl,
        ?_, ?_⟩
      · rw [viol_eq]
        exact takenJob_mem s q.toNat
      · rw [setJob_flt, viol_flt, viol_flt]
        rfl
      · rw [viol_eq, ht1, hmon, htook]
        rfl
  · rw [exec_dependencyRelease, dependencyRelease_of_job hj]
    exact ⟨rfl, fun i hi => bit_depsLeft s j hi⟩

end Sys2Proof.Proofs
end

section
set_option Elab.async false
/-! The list of taken commands: what a change of one command does to the others. -/
namespace Sys2Proof.Proofs
open Sys2Proof Sys2Proof.Machine Sys2Proof.Laws Sys2Proof.Safety

theorem job_mem {s : State} {q n : Nat} {j : Job} (h : s.job q n = some j) : j ∈ s.jobs ∧ j.q = q ∧ j.n = n := by
  have hp := List.find?_some h
  simp only [Bool.and_eq_true, beq_iff_eq] at hp
  exact ⟨List.mem_of_find?_eq_some h, hp⟩

theorem withJob_of_job {s : State} {q n : Nat} {j : Job} (h : s.job q n = some j) (f : State → Job → State) : s.withJob q n f = f s j := by
  simp [State.withJob, h]

theorem withJob_of_none {s : State} {q n : Nat} (h : s.job q n = none) (f : State → Job → State) : s.withJob q n f = s := by
  simp [State.withJob, h]

/-- A later change of the same command replaces the earlier one. -/
theorem setJob_setJob (s : State) {j k : Job} (h : k.take = j.take) : (s.setJob j).setJob k = s.setJob k := by
  have hjobs : ∀ x : Job, (if (if x.take == j.take then j else x).take == k.take then k else if x.take == j.take then j else x) =
      if x.take == k.take then k else x := fun x => by
    by_cases hx : x.take = j.take <;> simp [hx, h]
  simp only [State.setJob, List.map_map, Function.comp_def, hjobs]

theorem setJob_of_job {s : State} {j : Job} (h : ∀ x ∈ s.jobs, x.take = j.take → x = j) : s.setJob j = s := by
  have hmap : s.jobs.map (fun x => if x.take == j.take then j else x) = s.jobs := by
    refine (List.map_congr_left fun x hx => ?_).trans s.jobs.map_id
    by_cases ht : x.take = j.take
    · simp [h x hx ht]
    · simp [ht]
  simp only [State.setJob, hmap]

/-- Two tests that agree on a list's elements find the same one. -/
theorem find?_of_agree {α : Type} {p q : α → Bool} : ∀ {l : List α}, (∀ x ∈ l, p x = q x) → l.find? p = l.find? q
  | [], _ => rfl
  | x :: l, h => by
    rw [List.find?_cons, List.find?_cons, h x List.mem_cons_self, find?_of_agree fun y hy => h y (List.mem_cons_of_mem _ hy)]

/-- Where only the command at its own place has its take number, a changed command stands at that place, and the others at theirs. -/
theorem job_setJob_map {s : State} {k : Job} (h : ∀ x ∈ s.jobs, x.take = k.take → x.q = k.q ∧ x.n = k.n) (q n : Nat) :
    (s.setJob k).job q n = (s.job q n).map fun x => if x.take == k.take then k else x := by
  unfold State.job
  rw [setJob_jobs, List.find?_map]
  congr 1
  refine find?_of_agree fun x hx => ?_
  by_cases ht : x.take = k.take
  · obtain ⟨hq, hn⟩ := h x hx ht
    simp [ht, hq, hn]
  · simp [ht]

theorem takesDistinct_setJob {s : State} (h : TakesDistinct s) (k : Job) : TakesDistinct (s.setJob k) := by
  intro a ha b hb hab
  obtain ⟨x, hx, rfl⟩ := List.mem_map.1 ha
  obtain ⟨y, hy, rfl⟩ := List.mem_map.1 hb
  by_cases hxk : x.take = k.take <;> by_cases hyk : y.take = k.take <;> simp_all
  exact h x hx y hy hab

/-- If a command is taken at `a`, it has completed. -/
def DoneAt (s : State) (a : Nat × Nat) : Prop := ∀ x, s.job a.1 a.2 = some x → x.phase = .done

/-- A command that is complete in full, with committed index 0. -/
def finished (j : Job) : Job := { j.end with idx := some 0 }

theorem finishJob_cases (s : State) (q n : Nat) :
    (finishJob s q n = s ∧ DoneAt s (q, n)) ∨ ∃ j, s.job q n = some j ∧ finishJob s q n = s.setJob (finished j) := by
  unfold finishJob
  cases hj : s.job q n with
  | none => exact .inl ⟨withJob_of_none hj _, fun x hx => by simp_all⟩
  | some j =>
    rw [withJob_of_job hj]
    by_cases hp : j.phase = .done
    · exact .inl ⟨by simp [hp], fun x hx => by simp_all⟩
    · exact .inr ⟨j, rfl, by simp [hp, finish, finished]⟩

theorem finishJob_of_job {s : State} {q n : Nat} {j : Job} (h : s.job q n = some j) (hp : j.phase ≠ .done) :
    finishJob s q n = s.setJob (finished j) := by
  rw [finishJob, withJob_of_job h]
  simp [hp, finish, finished]

theorem finishJob_of_done {s : State} {q n : Nat} (h : DoneAt s (q, n)) : finishJob s q n = s := by
  cases hj : s.job q n with
  | none => exact withJob_of_none hj _
  | some j =>
    rw [finishJob, withJob_of_job hj]
    exact if_pos (by simpa using h j hj)

theorem finishJob_eq (s : State) (q n : Nat) : finishJob s q n = { s with jobs := (finishJob s q n).jobs } := by
  obtain ⟨h, -⟩ | ⟨j, -, h⟩ := finishJob_cases s q n <;> rw [h]
  rfl

theorem finishJob_distinct {s : State} (h : TakesDistinct s) (q n : Nat) : TakesDistinct (finishJob s q n) := by
  obtain ⟨he, -⟩ | ⟨j, -, he⟩ := finishJob_cases s q n <;> rw [he]
  · exact h
  · exact takesDistinct_setJob h _

theorem finishJob_done (s : State) (q n : Nat) : DoneAt (finishJob s q n) (q, n) := by
  obtain ⟨he, hd⟩ | ⟨j, hj, he⟩ := finishJob_cases s q n <;> rw [he]
  · exact hd
  · obtain ⟨-, hq, hn⟩ := job_mem hj
    intro x hx
    rw [job_setJob s q n j (finished j) hj rfl hq hn] at hx
    cases hx
    rfl

theorem finishJob_keeps_done {s : State} (h : TakesDistinct s) {a : Nat × Nat} (ha : DoneAt s a) (q n : Nat) : DoneAt (finishJob s q n) a := by
  obtain ⟨he, -⟩ | ⟨j, hj, he⟩ := finishJob_cases s q n <;> rw [he]
  · exact ha
  · obtain ⟨hmem, -, -⟩ := job_mem hj
    intro x hx
    rw [job_setJob_map fun y hy ht => by rw [h y hy j hmem ht]; exact ⟨rfl, rfl⟩] at hx
    obtain ⟨y, hy, rfl⟩ := Option.map_eq_some_iff.1 hx
    split
    · rfl
    · exact ha y hy

/-- All commands of a list complete, and nothing changes but commands. -/
theorem finishAll {s : State} (h : TakesDistinct s) (l : List (Nat × Nat)) :
    let t := l.foldl (fun s a => finishJob s a.1 a.2) s
    TakesDistinct t ∧ (∀ a, DoneAt s a ∨ a ∈ l → DoneAt t a) ∧ t = { s with jobs := t.jobs } := by
  induction l generalizing s with
  | nil => exact ⟨h, fun a ha => ha.resolve_right (List.not_mem_nil), rfl⟩
  | cons b l ih =>
    obtain ⟨hd, hdone, heq⟩ := ih (finishJob_distinct h b.1 b.2)
    refine ⟨hd, fun a ha => hdone a ?_, ?_⟩
    · rcases ha with ha | ha
      · exact .inl (finishJob_keeps_done h ha _ _)
      · rcases List.mem_cons.1 ha with rfl | ha
        · exact .inl (finishJob_done _ _ _)
        · exact .inr ha
    · rw [List.foldl_cons, heq, finishJob_eq]

end Sys2Proof.Proofs
end

section
set_option Elab.async false
/-! The commands that order others (12 R382, R383; 13 R404, R425-R429). -/
namespace Sys2Proof.Proofs
open Sys2Proof Sys2Proof.Machine Sys2Proof.Laws Sys2Proof.Safety

theorem exec_nop (q : BitVec 6) (n : BitVec 16) (s : State) : exec (.nop q n) s = .next (nopRow q n s) := rfl
theorem exec_fence (q : BitVec 6) (n : BitVec 16) (s : State) : exec (.fence q n) s = .next (fenceRow q n s) := rfl
theorem exec_signal (q : BitVec 6) (n : BitVec 16) (s : State) : exec (.signal q n) s = .next (signalRow q n s) := rfl
theorem exec_waitCmd (q : BitVec 6) (n : BitVec 16) (s : State) : exec (.waitCmd q n) s = .next (waitRow q n s) := rfl
theorem exec_barrier (q : BitVec 6) (n : BitVec 16) (s : State) : exec (.barrier q n) s = .next (barrierRow q n s) := rfl
theorem exec_barrierArrival (q : BitVec 6) (n : BitVec 16) (s : State) : exec (.barrierArrival q n) s = .next (barrierArrival q n s) := rfl

section
variable {q : BitVec 6} {n : BitVec 16} {s : State} {j : Job}

theorem nopRow_starts (ht : Taken s q n 0x3F j) (hm : MayStart s j) : nopRow q n s = s.setJob (finished j) := by
  obtain ⟨hj, hop⟩ := ht
  simp only [MayStart] at hm
  rw [nopRow, withJob_of_job hj]
  simp [hop, hm, finish, finished]

theorem fenceRow_starts (ht : Taken s q n 0x30 j) (hm : MayStart s j) (hs : fld (j.body 0) 0 2 ≠ 3) :
    fenceRow q n s = if fenceClear s j then s.setJob (finished j) else s := by
  obtain ⟨hj, hop⟩ := ht
  simp only [MayStart] at hm
  rw [fenceRow, withJob_of_job hj]
  simp [hop, hm, hs, finish, finished]

theorem satisfyWaits_none {s : State} (h : ∀ k ∈ s.jobs, k.op = 0x33 → k.phase ≠ .running) : satisfyWaits s = s := by
  have hnone : (s.jobs.filter fun j => j.op == 0x33 && j.phase == .running && waitOk s j) = [] := by
    simp only [List.filter_eq_nil_iff, Bool.and_eq_true, beq_iff_eq, not_and]
    exact fun k hk ⟨hop, hp⟩ => absurd hp (h k hk hop)
  rw [satisfyWaits, hnone, List.foldl_nil]

theorem signalRow_waits (ht : Taken s q n 0x32 j) (he : s.earlier j = true) : signalRow q n s = s := by
  obtain ⟨hj, -⟩ := ht
  rw [signalRow, withJob_of_job hj]
  simp [he]

theorem setJob_no_wait {k : Job} (h : ∀ k ∈ s.jobs, k.op = 0x33 → k.phase ≠ .running) (hk : k.phase ≠ .running) :
    ∀ x ∈ (s.setJob k).jobs, x.op = 0x33 → x.phase ≠ .running := by
  intro x hx hop
  obtain ⟨y, hy, rfl⟩ := List.mem_map.1 hx
  by_cases ht : y.take = k.take
  · simpa [ht] using hk
  · simp only [beq_iff_eq, ht, if_false] at hop ⊢
    exact h y hy hop

/-- A SIGNAL without a value to write adds to its semaphore. -/
theorem signalRow_starts (ht : Taken s q n 0x32 j) (hm : MayStart s j) (hw : ∀ k ∈ s.jobs, k.op = 0x33 → k.phase ≠ .running)
    (he : s.earlier j = false) (hb : j.body 0x10 = 0) :
    signalRow q n s = { s.setJob (finished j) with sync := { s.sync with
      sem := s.sync.sem.put (fld (j.body 0) 0 6) ((s.sync.sem.get (fld (j.body 0) 0 6) 0 + fld (j.body 8) 0 32) % 2 ^ 32) } } := by
  obtain ⟨hj, hop⟩ := ht
  simp only [MayStart] at hm
  rw [signalRow, withJob_of_job hj]
  simp only [hop, hm, he, hb, setSem]
  exact satisfyWaits_none (setJob_no_wait (k := finished j) hw Phase.noConfusion)

/-- A command that runs. -/
def issued (j : Job) : Job := { j with phase := .running }

/-- The WAITs that can be satisfied. -/
def readyWaits (s : State) : List Job := s.jobs.filter fun j => j.op == 0x33 && j.phase == .running && waitOk s j

theorem satisfyWaits_eq (s : State) : satisfyWaits s = (readyWaits s).foldl (fun s j => finishJob s j.q j.n) s := rfl

/-- A WAIT that has just been taken up is the only one that can be satisfied. -/
theorem readyWaits_issued (hw : ∀ k ∈ s.jobs, k.op = 0x33 → k.phase ≠ .running) :
    ∀ x ∈ readyWaits (s.setJob (issued j)), x = issued j ∧ waitOk s j = true := by
  intro x hx
  simp only [readyWaits, List.mem_filter, Bool.and_eq_true, beq_iff_eq] at hx
  obtain ⟨hx, ⟨hxop, hxp⟩, hok⟩ := hx
  obtain ⟨y, hy, rfl⟩ := List.mem_map.1 hx
  by_cases ht : y.take = (issued j).take
  · simp only [beq_iff_eq, ht, if_true] at hok ⊢
    exact ⟨trivial, hok⟩
  · simp only [beq_iff_eq, ht, if_false] at hxop hxp
    exact absurd hxp (hw y hy hxop)

theorem finishAll_done {q n : Nat} {l : List Job} (hl : ∀ x ∈ l, x.q = q ∧ x.n = n) {s : State} (h : DoneAt s (q, n)) :
    l.foldl (fun s j => finishJob s j.q j.n) s = s := by
  induction l with
  | nil => rfl
  | cons x l ih =>
    obtain ⟨hq, hn⟩ := hl x List.mem_cons_self
    rw [List.foldl_cons, hq, hn, finishJob_of_done h]
    exact ih fun y hy => hl y (List.mem_cons_of_mem _ hy)

theorem satisfyWaits_issued (hj : s.job q.toNat n.toNat = some j) (hop : j.op = 0x33)
    (hw : ∀ k ∈ s.jobs, k.op = 0x33 → k.phase ≠ .running) :
    satisfyWaits (s.setJob (issued j)) = if waitOk s j then s.setJob (finished j) else s.setJob (issued j) := by
  obtain ⟨hmem, hq, hn⟩ := job_mem hj
  have hall := readyWaits_issued (j := j) hw
  rw [satisfyWaits_eq]
  cases hl : readyWaits (s.setJob (issued j)) with
  | nil =>
    have hno : waitOk s j = false := by
      refine Classical.byContradiction fun hok => ?_
      have hin : issued j ∈ readyWaits (s.setJob (issued j)) :=
        List.mem_filter.2 ⟨mem_setJob hmem rfl, show (j.op == 0x33 && true && waitOk s j) = true by simp [hop, hok]⟩
      rw [hl] at hin
      cases hin
    simp [hno]
  | cons x l =>
    rw [hl] at hall
    obtain ⟨rfl, hok⟩ := hall x List.mem_cons_self
    have hfirst : finishJob (s.setJob (issued j)) j.q j.n = s.setJob (finished j) := by
      rw [hq, hn, finishJob_of_job (job_setJob s q.toNat n.toNat j (issued j) hj rfl hq hn) Phase.noConfusion]
      exact setJob_setJob s rfl
    have hdone : DoneAt (s.setJob (finished j)) (j.q, j.n) := fun x hx => by
      rw [hq, hn, job_setJob s q.toNat n.toNat j (finished j) hj rfl hq hn] at hx
      cases hx
      rfl
    rw [List.foldl_cons, hok, if_pos rfl]
    refine (congrArg (fun t => l.foldl (fun s j => finishJob s j.q j.n) t) hfirst).trans (finishAll_done (fun y hy => ?_) hdone)
    rw [(hall y (List.mem_cons_of_mem _ hy)).1]
    exact ⟨rfl, rfl⟩

/-- A WAIT that starts stands, or completes where its condition holds. -/
theorem waitRow_starts (ht : Taken s q n 0x33 j) (hm : MayStart s j) (hw : ∀ k ∈ s.jobs, k.op = 0x33 → k.phase ≠ .running) :
    waitRow q n s = s.setJob (if (s.sync.sem.get (fld (j.body 0) 0 6) 0 + 2 ^ 32 - fld (j.body 8) 0 32) % 2 ^ 32 < 2 ^ 31
      then finished j else issued j) := by
  obtain ⟨hj, hop⟩ := ht
  simp only [MayStart] at hm
  have hstart : (j.op != 0x33 || !mayStart s j) = false := by simp [hop, hm]
  rw [waitRow, withJob_of_job hj, hstart, apply_ite s.setJob]
  refine (satisfyWaits_issued hj hop hw).trans ?_
  simp [waitOk]

/-- A running command arrives at its barrier when no earlier command of its queue is left. -/
theorem barrierArrival_running (ht : Taken s q n 0x31 j) (hp : j.phase = .running) :
    barrierArrival q n s = if s.earlier j then s else arriveBar s j := by
  obtain ⟨hj, hop⟩ := ht
  rw [barrierArrival, withJob_of_job hj, hop, hp]
  cases s.earlier j <;> rfl

/-- Its own change hides no earlier command of the queue. -/
theorem earlier_issued (s : State) (j : Job) : (s.setJob (issued j)).earlier (issued j) = s.earlier j := by
  simp only [State.earlier, setJob_jobs, List.any_map, Function.comp_def]
  congr 1
  funext x
  by_cases hx : x.take = j.take
  · simp [issued, hx]
  · simp [issued, hx]

theorem barrierRow_starts (ht : Taken s q n 0x31 j) (hm : MayStart s j) :
    barrierRow q n s = if s.earlier j then s.setJob (issued j) else arriveBar (s.setJob (issued j)) (issued j) := by
  obtain ⟨hj, hop⟩ := ht
  have hstart : (j.op != 0x31 || !mayStart s j) = false := by simp [hop, hm]
  rw [barrierRow, withJob_of_job hj, hstart, ← earlier_issued]
  rfl

/-- What one arrival makes of its barrier: the generation's count, and one arrival more. -/
def arrived (k : Barrier) (j : Job) : Barrier :=
  { k with
    count := fld (j.body 0) 8 6 + 1
    cascade := if k.count == 0 then bit (j.body 0) 16 else k.cascade
    arrivals := k.arrivals ++ [(j.q, j.n)] }

/-- A barrier stands at `b`. -/
def putBar (s : State) (b : Nat) (k : Barrier) : State := { s with sync := { s.sync with bars := s.sync.bars.put b k } }

theorem arriveBar_counted {k : Barrier} (hk : s.sync.bars.get (fld (j.body 0) 0 6) {} = k) (hin : k.arrivals.contains (j.q, j.n) = false)
    (hsent : k.sent = false) :
    arriveBar s j = if k.count != 0 && k.count != fld (j.body 0) 8 6 + 1 then malform s j 1 0x11 0
      else barrierFull (putBar s (fld (j.body 0) 0 6) (arrived k j)) (fld (j.body 0) 0 6) := by
  subst hk
  have hnone : ((s.sync.bars.get (fld (j.body 0) 0 6) {}).arrivals.contains (j.q, j.n) || (s.sync.bars.get (fld (j.body 0) 0 6) {}).sent) = false := by
    rw [hin, hsent]
    rfl
  unfold arriveBar
  dsimp only
  rw [hnone, if_neg Bool.false_ne_true]
  rfl

theorem bar_putBar (s : State) (b : Nat) (k : Barrier) : (putBar s b k).sync.bars.get b {} = k := get_put_self ..

theorem barrierFull_waits {b : Nat} {k : Barrier} (hlt : k.arrivals.length < k.count) : barrierFull (putBar s b k) b = putBar s b k := by
  simp [barrierFull, bar_putBar, hlt]

/-- The last arrival of a local barrier completes every one. -/
theorem barrierFull_last {b : Nat} {k : Barrier} (hd : TakesDistinct s) (hc : k.count ≠ 0) (hs : k.sent = false) (hl : k.count ≤ k.arrivals.length)
    (hloc : k.cascade = false) :
    let t := barrierFull (putBar s b k) b
    (t.sync.bars.get b {}).count = 0 ∧ (t.sync.bars.get b {}).arrivals = [] ∧ (∀ a ∈ k.arrivals, DoneAt t a) ∧
      t = { s with jobs := t.jobs, sync := t.sync } := by
  have hfull : barrierFull (putBar s b k) b = releaseBar (putBar s b k) b := by
    simp [barrierFull, bar_putBar, hc, hs, Nat.not_lt.2 hl, hloc]
  obtain ⟨-, hdone, heq⟩ := finishAll (s := putBar s b k) hd k.arrivals
  intro t
  have ht : t = releaseBar (putBar s b k) b := hfull
  clear_value t
  subst ht
  simp only [releaseBar, bar_putBar]
  refine ⟨by rw [get_put_self], by rw [get_put_self], fun a ha => hdone a (.inr ha), ?_⟩
  rw [heq]
  rfl

end

/-- Settles O18: the ordering commands complete once their conditions hold. -/
theorem orderingCommandsComplete : Obligations.OrderingCommandsComplete := by
  unfold Obligations.OrderingCommandsComplete
  refine ⟨fun q n s j hm hw => ⟨fun ht => ?_, fun ht hs => ?_, fun ht he hb => ?_, fun ht he => ?_, fun ht => ?_⟩, fun q n s s0 j c ht hc => ?_⟩
  · rw [exec_nop, nopRow_starts ht hm]
    rfl
  · rw [exec_fence, fenceRow_starts ht hm hs]
    rfl
  · rw [exec_signal, signalRow_starts ht hm hw he hb]
    rfl
  · rw [exec_signal, signalRow_waits ht he]
  · rw [exec_waitCmd, waitRow_starts ht hm hw]
    rfl
  · intro b m k
    have hs0 : TakesDistinct s → TakesDistinct s0 := by
      rcases hc with ⟨-, -, rfl⟩ | ⟨-, -, rfl⟩
      · exact fun h => takesDistinct_setJob h _
      · exact id
    have hexec : exec c s = .next (if s.earlier j then s0 else arriveBar s0 (issued j)) := by
      rcases hc with ⟨rfl, hm, rfl⟩ | ⟨rfl, hp, rfl⟩
      · rw [exec_barrier, barrierRow_starts ht hm]
        rfl
      · rw [exec_barrierArrival, barrierArrival_running ht hp, show issued j = j by rw [issued, ← hp]]
    have heq0 : ∃ l, s0 = { s with jobs := l } := by
      rcases hc with ⟨-, -, rfl⟩ | ⟨-, -, rfl⟩
      · exact ⟨_, rfl⟩
      · exact ⟨_, rfl⟩
    clear hc
    obtain ⟨l, rfl⟩ := heq0
    refine ⟨fun he => by rw [hexec, if_pos he], fun he hin hsent => ?_⟩
    have harr : arrived k (issued j) = { k with
        count := m, cascade := if k.count = 0 then bit (j.body 0) 16 else k.cascade, arrivals := k.arrivals ++ [(j.q, j.n)] } := by
      simp only [arrived, beq_iff_eq]
      rfl
    have hcond : (k.count != 0 && k.count != fld ((issued j).body 0) 8 6 + 1) = true ↔ k.count ≠ 0 ∧ k.count ≠ m := by
      simp only [Bool.and_eq_true, bne_iff_ne]
      rfl
    have hplace : fld ((issued j).body 0) 0 6 = b := rfl
    rw [hexec, he, if_neg Bool.false_ne_true, arriveBar_counted (s := { s with jobs := l }) (j := issued j) (k := k) rfl hin hsent]
    refine ⟨fun hcount hlt => ?_, fun h0 hne => ?_, fun hcount hle hloc hd => ?_⟩
    · rw [if_neg (fun h => by have := hcond.1 h; omega), hplace, barrierFull_waits, harr]
      · rfl
      rw [harr]
      simpa using hlt
    · rw [if_pos (hcond.2 ⟨h0, hne⟩)]
      rfl
    · rw [if_neg (fun h => by have := hcond.1 h; omega), hplace]
      have hlast := barrierFull_last (b := b) (k := arrived k (issued j)) (hs0 hd) (Nat.succ_ne_zero _) hsent
        (by rw [harr]; simpa using hle) (by rw [harr]; exact hloc)
      obtain ⟨hc0, ha0, hdone, heq⟩ := hlast
      exact ⟨_, rfl, hc0, ha0, fun a ha x hx => hdone a (by rw [harr]; exact ha) x hx, heq⟩

end Sys2Proof.Proofs
end

section
set_option Elab.async false
/-! Table reloads and epoch switches (08 R250-R255; 13 R421). -/
namespace Sys2Proof.Proofs
open Sys2Proof Sys2Proof.Machine Sys2Proof.Laws Sys2Proof.Safety

theorem exec_tableCmd (q : BitVec 6) (n : BitVec 16) (s : State) : exec (.tableCmd q n) s = .next (tableRow q n s) := rfl
theorem exec_tableReloadStart (q : BitVec 6) (n : BitVec 16) (s : State) : exec (.tableReloadStart q n) s = .next (tableReloadStart q n s) := rfl
theorem exec_epochSwitch (sfu : Bool) (s : State) : exec (.epochSwitch sfu) s = .next (epochSwitch sfu s) := rfl

theorem phase_of_mayStart {s : State} {j : Job} (h : MayStart s j) : j.phase = .waiting := by
  simp only [MayStart, mayStart, Bool.and_eq_true, beq_iff_eq] at h
  exact h.1.1.1.1.1

/-- Two folds whose steps agree on a list's elements come to the same. -/
theorem foldl_of_agree {α β : Type} {f g : β → α → β} : ∀ {l : List α} {b : β}, (∀ b, ∀ x ∈ l, f b x = g b x) → l.foldl f b = l.foldl g b
  | [], _, _ => rfl
  | x :: l, b, h => by
    rw [List.foldl_cons, List.foldl_cons, h b x List.mem_cons_self, foldl_of_agree fun b y hy => h b y (List.mem_cons_of_mem _ hy)]

/-- A command that is no step command and has fetched nothing reads T1 itself. -/
theorem readT1_plain {s : State} {x : Ctx} {j : Job} {a : Nat} (n : Nat) (hj : s.job x.q x.n = some j) (hstep : j.stepCmd = false)
    (hf : j.fetched = []) (ha : bit a 47 = false) : readT1 s x a n = s.t1.fetch a n := by
  simp [readT1, hj, hstep, hf, ha]

theorem earlierReload_setJob (s : State) {j k : Job} (ht : k.take = j.take) (hb : k.body 0 = j.body 0) :
    earlierReload (s.setJob k) k = earlierReload s j := by
  simp only [earlierReload, setJob_jobs, List.any_map, Function.comp_def, ht, hb]
  congr 1
  funext x
  by_cases hx : x.take = j.take
  · simp [hx, ht]
  · simp [hx]

/-- What the well-formed items of a TABLE make of its shadow bank. -/
def reloaded (s : State) (j : Job) : Memory :=
  (tblItems s j).foldl (fun m i => m.write i.off (s.t1.fetch i.src i.len).1) (bankOf s.tbl (bit (j.body 0) 0)
    (if tblItems s j = [] then !activeB s.tbl (bit (j.body 0) 0) else activeB s.tbl (bit (j.body 0) 0)))

/-- A TABLE whose switch is pending. -/
def switching (j : Job) : Job := { j with phase := .running, stage := 2 }

/-- A reload whose items are all writable, and whose function bank passes its check, awaits its switch. -/
theorem reload_ok {s : State} {j : Job} (hj : s.job j.q j.n = some j) (hstep : j.stepCmd = false) (hf : j.fetched = [])
    (hitems : ∀ i ∈ tblItems s j, bit i.src 47 = false ∧ i.outside (bit (j.body 0) 0) = none)
    (hbank : bit (j.body 0) 0 = true → bankBad (reloaded s j) = none) :
    reload s j = { s.setJob (switching j) with
      tbl := putPend (putBank s.tbl (bit (j.body 0) 0) (!activeB s.tbl (bit (j.body 0) 0)) (reloaded s j)) (bit (j.body 0) 0) true } := by
  have hok : ((tblItems s j).filter fun i => (i.outside (bit (j.body 0) 0)).isNone) = tblItems s j :=
    List.filter_eq_self.2 fun i hi => by simp [(hitems i hi).2]
  have hread : ((tblItems s j).foldl (fun (m : Memory) i => m.write i.off (readT1 s j.ctx i.src i.len).1) (bankOf s.tbl (bit (j.body 0) 0)
      (activeB s.tbl (bit (j.body 0) 0) == !(tblItems s j).isEmpty))) = reloaded s j := by
    have hinit : (activeB s.tbl (bit (j.body 0) 0) == !(tblItems s j).isEmpty) =
        if tblItems s j = [] then !activeB s.tbl (bit (j.body 0) 0) else activeB s.tbl (bit (j.body 0) 0) := by
      cases hl : tblItems s j <;> cases activeB s.tbl (bit (j.body 0) 0) <;> simp
    rw [hinit]
    exact foldl_of_agree fun m i hi => by rw [readT1_plain i.len hj hstep hf (hitems i hi).1]
  have hnone : ((tblItems s j).findSome? fun i => i.outside (bit (j.body 0) 0)) = none :=
    List.findSome?_eq_none_iff.2 fun i hi => (hitems i hi).2
  have hbad : (if bit (j.body 0) 0 then bankBad (reloaded s j) else none) = none := by
    split
    · exact hbank ‹_›
    · rfl
  unfold reload
  simp only [hok, hread, hnone, hbad]
  rfl

theorem tryReload_of_job {s : State} {j : Job} (hj : s.job j.q j.n = some j) (hop : j.op = 0x3C) (hp : j.phase = .running) (hst : j.stage = 0) :
    tryReload s j.q j.n = if earlierReload s j then s else reload s j := by
  rw [tryReload, withJob_of_job hj]
  cases earlierReload s j <;> simp [hop, hp, hst]

/-- Settles O19: a TABLE fills its shadow bank, and the switch makes it active once no earlier user is left. -/
theorem tablesReloadAndSwitch : Obligations.TablesReloadAndSwitch := by
  unfold Obligations.TablesReloadAndSwitch
  refine ⟨fun q n s j c ht hst hstep hf hc => ?_, fun sfu s j hfind => ?_⟩
  · obtain ⟨hj, hop⟩ := ht
    obtain ⟨-, hq, hn⟩ := job_mem hj
    intro sfu act items m hitems
    have hformed : ((tblItems s j).any fun i => !i.formed) = false := by
      simp only [List.any_eq_false, Bool.not_eq_true']
      exact fun i hi => by simp [(hitems i hi).1]
    obtain ⟨s0, hs0, hexec, hjob⟩ : ∃ s0, (s0 = s.setJob (issued j) ∧ j.phase ≠ .running ∨ s0 = s ∧ issued j = j) ∧
        exec c s = .next (tryReload s0 (issued j).q (issued j).n) ∧ s0.job (issued j).q (issued j).n = some (issued j) := by
      rcases hc with ⟨rfl, hm⟩ | ⟨rfl, ha, hp⟩
      · refine ⟨_, .inl ⟨rfl, ?_⟩, ?_, ?_⟩
        · rw [phase_of_mayStart hm]
          exact Phase.noConfusion
        · have hstart : (j.op != 0x3C || !mayStart s j) = false := by simp [hop, hm]
          rw [exec_tableCmd, tableRow, withJob_of_job hj, hstart, hformed]
          rfl
        · exact job_setJob s _ _ j (issued j) (by rwa [show (issued j).q = j.q from rfl, show (issued j).n = j.n from rfl, hq, hn]) rfl rfl rfl
      · have hrun : issued j = j := by rw [issued, ← hp]
        refine ⟨s, .inr ⟨rfl, hrun⟩, ?_, by rwa [hrun, hq, hn]⟩
        rw [exec_tableReloadStart, tableReloadStart, awake_of_awake ha, hrun, hq, hn]
        rfl
    have hearlier : earlierReload s0 (issued j) = earlierReload s j := by
      rcases hs0 with ⟨rfl, -⟩ | ⟨rfl, hrun⟩
      · exact earlierReload_setJob s rfl rfl
      · rw [hrun]
    rw [hexec, tryReload_of_job hjob hop rfl hst, hearlier]
    refine ⟨fun hno hbank => ?_, fun hyes => ?_⟩
    · rw [hno, if_neg Bool.false_ne_true]
      rcases hs0 with ⟨rfl, -⟩ | ⟨rfl, hrun⟩
      · rw [reload_ok hjob hstep hf (fun i hi => (hitems i hi).2) hbank, setJob_setJob s (j := issued j) (k := switching (issued j)) rfl]
        rfl
      · rw [hrun] at hjob ⊢
        rw [reload_ok hjob hstep hf (fun i hi => (hitems i hi).2) hbank]
        rfl
    · rw [hyes, if_pos rfl]
      rcases hs0 with ⟨rfl, hp⟩ | ⟨rfl, hrun⟩
      · rw [if_neg hp]
        rfl
      · rw [if_pos (by rw [← hrun]; rfl)]
  · rw [exec_epochSwitch, epochSwitch, hfind]
    refine ⟨fun hd => ?_, fun hd => ?_⟩
    · simp only [hd]
      cases sfu <;> rfl
    · simp only [hd]
      rfl

end Sys2Proof.Proofs
end

section
set_option Elab.async false
/-! Credits, responses and timeouts of transfers (12 R377-R379, R386, R387; 15 R484-R489, R514). -/
namespace Sys2Proof.Proofs
open Sys2Proof Sys2Proof.Machine Sys2Proof.Laws Sys2Proof.Safety

/-! ### When no stream waits for a tag -/

/-- No stream waits just when no command has a write or a read to issue, and no move a transfer. -/
theorem nothingWaits_iff (s : State) : NothingWaits s ↔
    (∀ j ∈ s.jobs, j.wq = [] ∧ j.ask.getD [] = []) ∧ (∀ f ∈ s.pg.falls, f.todo = []) ∧ ∀ r ∈ s.pg.rises, r.todo = [] := by
  simp only [NothingWaits, waiters, List.append_eq_nil_iff, List.map_eq_nil_iff, List.filter_eq_nil_iff, List.flatMap_eq_nil_iff,
    List.take_eq_nil_iff, Bool.or_eq_true, Bool.not_eq_true', not_or, List.isEmpty_eq_false_iff, Decidable.not_not, Nat.one_ne_zero, false_or]
  exact and_assoc

section
variable {s t : State}

/-- Changes that leave alone what commands and moves have still to issue. -/
theorem nothingWaits_of (h : NothingWaits s) (hj : t.jobs = s.jobs := by rfl) (hf : t.pg.falls = s.pg.falls := by rfl)
    (hr : t.pg.rises = s.pg.rises := by rfl) : NothingWaits t := by
  rw [nothingWaits_iff] at h ⊢
  rwa [hj, hf, hr]

theorem nothingWaits_setJob (h : NothingWaits s) {j k : Job} (hj : j ∈ s.jobs) (hw : k.wq = j.wq) (ha : k.ask = j.ask) :
    NothingWaits (s.setJob k) := by
  rw [nothingWaits_iff] at h ⊢
  obtain ⟨hjobs, hmoves⟩ := h
  refine ⟨fun x hx => ?_, hmoves⟩
  obtain ⟨y, hy, rfl⟩ := List.mem_map.1 hx
  split
  · rw [hw, ha]
    exact hjobs j hj
  · exact hjobs y hy

theorem nothingWaits_falls (h : NothingWaits s) {f : Fall → Fall} (hf : ∀ x, (f x).todo = x.todo) :
    NothingWaits { s with pg := { s.pg with falls := s.pg.falls.map f } } := by
  rw [nothingWaits_iff] at h ⊢
  obtain ⟨hjobs, hfalls, hrises⟩ := h
  refine ⟨hjobs, fun x hx => ?_, hrises⟩
  obtain ⟨y, hy, rfl⟩ := List.mem_map.1 hx
  exact (hf y).trans (hfalls y hy)

theorem nothingWaits_rises (h : NothingWaits s) {f : Rise → Rise} (hf : ∀ x, (f x).todo = x.todo) :
    NothingWaits { s with pg := { s.pg with rises := s.pg.rises.map f } } := by
  rw [nothingWaits_iff] at h ⊢
  obtain ⟨hjobs, hfalls, hrises⟩ := h
  refine ⟨hjobs, hfalls, fun x hx => ?_⟩
  obtain ⟨y, hy, rfl⟩ := List.mem_map.1 hx
  exact (hf y).trans (hrises y hy)

theorem dropTag_idle (h : NothingWaits s) (key : Nat) : dropTag s key = { s with str := { s.str with tags := s.str.tags.del key } } :=
  pumpWrites_idle (s := { s with str := { s.str with tags := s.str.tags.del key } }) h

end

/-! ### Credits -/

theorem pumpTags_idle {s : State} (h : AllSent s) : pumpTags s = s := by
  have hnone : (s.str.tags.filter fun p => !p.2.sent) = [] := by
    simp only [List.filter_eq_nil_iff, Bool.not_eq_true', Bool.not_eq_false]
    exact h
  rw [pumpTags, hnone]
  rfl

theorem pumpLink_idle {s : State} (h : s.cas.waiting = []) : pumpLink s = s := by
  have hnone : flushMsgs s.cas.waiting s.str.linkCas = ([], s.cas.waiting, s.str.linkCas) := by
    rw [h]
    rfl
  simp [pumpLink, hnone]

/-- The excess of a grant is logged, and no more. -/
theorem logExcess {s : State} (h : AllSent s) (hw : s.cas.waiting = []) (port old k top : Nat) :
    pumpTags (if old + k - top == 0 then s else portViol s port 0x05 (old + k - top)) =
        (if old + k ≤ top then s else portViol s port 0x05 (old + k - top)) ∧
      pumpTags (pumpLink (if old + k - top == 0 then s else portViol s port 0x05 (old + k - top))) =
        (if old + k ≤ top then s else portViol s port 0x05 (old + k - top)) := by
  have hviol : pumpTags (portViol s port 0x05 (old + k - top)) = portViol s port 0x05 (old + k - top) ∧
      pumpLink (portViol s port 0x05 (old + k - top)) = portViol s port 0x05 (old + k - top) := by
    refine ⟨pumpTags_idle ?_, pumpLink_idle ?_⟩
    · rw [portViol_eq]
      exact h
    · rw [portViol_eq]
      exact hw
  by_cases hle : old + k ≤ top
  · have h0 : (old + k - top == 0) = true := by simp only [beq_iff_eq]; omega
    simp only [h0, if_true, hle, pumpLink_idle hw, pumpTags_idle h, and_self]
  · have h0 : (old + k - top == 0) = false := by simp only [beq_eq_false_iff_ne, ne_eq]; omega
    simp only [h0, Bool.false_eq_true, if_false, hle, hviol.1, hviol.2, and_self]

theorem exec_streamCreditGrant (p : BitVec 2) (wdata : Bool) (k : BitVec 8) (s : State) :
    exec (.streamCreditGrant p wdata k) s = .next (streamCreditGrant p wdata k s) := rfl
theorem exec_linkCreditGrant (shelf : Bool) (k : BitVec 8) (s : State) :
    exec (.linkCreditGrant shelf k) s = .next (linkCreditGrant shelf k s) := rfl

/-- Settles O20: credits add up to their limit, and the excess is logged. -/
theorem creditsStopAtTheirLimits : Obligations.CreditsStopAtTheirLimits := by
  unfold Obligations.CreditsStopAtTheirLimits
  intro s k hrst hsent hwait
  refine ⟨fun p wdata => ?_, fun shelf => ?_⟩
  · intro old top t
    have hgrant : streamCreditGrant p wdata k s =
        pumpTags (if old + k.toNat - top == 0 then t else portViol t p.toNat 0x05 (old + k.toNat - top)) := by
      cases wdata <;> exact if_neg (by simp [hrst])
    have ht : AllSent t ∧ t.cas.waiting = [] := by cases wdata <;> exact ⟨hsent, hwait⟩
    rw [exec_streamCreditGrant, hgrant, (logExcess ht.1 ht.2 ..).1]
  · intro old t
    have hgrant : linkCreditGrant shelf k s = pumpTags (pumpLink
        (if old + k.toNat - 8192 == 0 then t else portViol t (if shelf then 4 else 5) 0x05 (old + k.toNat - 8192))) := by
      cases shelf <;> exact if_neg (by simp [hrst])
    have ht : AllSent t ∧ t.cas.waiting = [] := by cases shelf <;> exact ⟨hsent, hwait⟩
    rw [exec_linkCreditGrant, hgrant, (logExcess ht.1 ht.2 ..).2]

end Sys2Proof.Proofs
end

section
set_option Elab.async false
/-! Read data lands with its last unit (12 R386, R387; 15 R485, R488). -/
namespace Sys2Proof.Proofs
open Sys2Proof Sys2Proof.Machine Sys2Proof.Laws Sys2Proof.Safety

theorem tagKey_core {core tag : Nat} (h : tag < 512) : tagKey core tag / 512 = core := by
  unfold tagKey
  omega

theorem tagKey_tag {core tag : Nat} (h : tag < 512) : tagKey core tag % 512 = tag := by
  unfold tagKey
  omega

theorem fireInj_none {s : State} (h : s.mon.inj = []) (n : Nat) (p : Inject → Bool) : fireInj s n p = (false, s) := by
  simp [fireInj, h]

/-- A tag in flight on the channel of the response that names it. -/
structure Awaits (s : State) (ok : Tag → Bool) (id : Nat) (t : Tag) : Prop where
  ready : s.life.ready = true
  gen : s.str.gens.get (tagKey (fld id 11 8) (fld id 2 9)) 0 = fld id 0 2
  find : s.str.tags.find (tagKey (fld id 11 8) (fld id 2 9)) = some t
  sent : t.sent = true
  chan : ok t = true

/-- A unit that was asked for, and has not come before, is held; the last one ends the read. -/
theorem readUnit_asked {s : State} {port : Nat} {ok : Tag → Bool} {id unit : Nat} {err poison last : Bool} {data : List Byte} {t : Tag}
    (h : Awaits s ok id t) (hw : t.write = false) (hb : t.bad = false) (hinj : s.mon.inj = []) (hin : t.span.contains unit = true)
    (hnew : (t.units.any fun u => u.1 == unit) = false)
    (hall : last = true → (t.span.all fun u => u == unit || t.units.any fun v => v.1 == u) = true) :
    let t' := { t with units := t.units ++ [(unit, poison || err, data)] }
    readUnit s port ok id unit last err poison data =
      if last then endRead s (tagKey (fld id 11 8) (fld id 2 9)) t' t'.units
      else { s with str := { s.str with tags := s.str.tags.put (tagKey (fld id 11 8) (fld id 2 9)) t' } } := by
  obtain ⟨hready, hgen, hfind, hsent, hok⟩ := h
  have hlast : (last && !(t.span.all fun u => u == unit || t.units.any fun v => v.1 == u)) = false := by
    cases last
    · rfl
    · rw [hall rfl]
      rfl
  simp only [readUnit, hready, hgen, hfind, hsent, hok, hw, hb, hin, hnew, hlast, fireInj_none hinj, Bool.not_true, bne_self_eq_false,
    Bool.or_self, Bool.or_false, Bool.false_eq_true, if_false]

/-! ### What a landing changes -/

/-- The bytes of a unit that a read asked for; those of a bad one are zeros. -/
def landData (t : Tag) (u : Nat × Bool × List Byte) : List Byte :=
  if u.2.1 then List.replicate ((unitSpan t u.1).2 - (unitSpan t u.1).1) 0
  else (u.2.2.drop ((unitSpan t u.1).1 % 64)).take ((unitSpan t u.1).2 - (unitSpan t u.1).1)

/-- The streams' counts after a unit has come: a bad one counts as poison of its core. -/
def unitCounted (s : State) (core : Nat) (bad : Bool) : Streams := if bad then (count s core 11 1).str else s.str

/-- The streams' counts after a unit has landed in a core's buffer. -/
def unitLanded (s : State) (core : Nat) (stage bad : Bool) : Streams :=
  if stage then { unitCounted s core bad with stage := s.str.stage.put core (landNext s core true + 1) }
  else { unitCounted s core bad with place := s.str.place.put core (landNext s core false + 1) }

theorem unitCounted_keeps (s : State) (core : Nat) (bad : Bool) :
    unitCounted s core bad = { s.str with
      cnt := (unitCounted s core bad).cnt, wasteTotal := (unitCounted s core bad).wasteTotal, poisonTotal := (unitCounted s core bad).poisonTotal } := by
  unfold unitCounted count
  split
  · split <;> rfl
  · rfl

theorem counted_eq (s : State) (core : Nat) (bad : Bool) :
    (if bad then count s core 11 1 else s) = { s with str := unitCounted s core bad } := by
  cases bad
  · rfl
  · exact count_eq ..

theorem unitCounted_bad {s : State} (h : s.str.freeze = false) (core : Nat) :
    (unitCounted s core true).cnt.get (16 * core + 11) 0 = add64 (s.str.cnt.get (16 * core + 11) 0) 1 := by
  rw [unitCounted, if_pos rfl, count, h]
  exact get_put_self ..

/-- A command that knows of one more landing. -/
def withLanded (j : Job) (l : Landed) : Job := { j with fetched := j.fetched ++ [l] }

/-- A unit of a command's read lands in its core's T0, and the command knows where. -/
theorem landUnit_fetch {s : State} {core q n unit : Nat} {t : Tag} {j : Job} (hu : t.use = .fetch q n unit) (hj : s.job q n = some j)
    (u : Nat × Bool × List Byte) :
    landUnit core t s u = { s with
      jobs := (s.setJob (withLanded j ⟨unit, core, (unitSpan t u.1).1, landData t u, u.2.1, landNext s core t.stage, t.stage⟩)).jobs
      t0 := s.t0.store (landAt core t.stage (landNext s core t.stage) (unitSpan t u.1).1) (landData t u) (List.replicate (landData t u).length u.2.1)
      str := unitLanded s core t.stage u.2.1 } := by
  have hnext : landNext { s with str := unitCounted s core u.2.1 } core t.stage = landNext s core t.stage := by
    rw [landNext, landNext, unitCounted_keeps]
  have hland : ∀ d, landBytes { s with str := unitCounted s core u.2.1 } core t.stage (unitSpan t u.1).1 d u.2.1 = { s with
      t0 := s.t0.store (landAt core t.stage (landNext s core t.stage) (unitSpan t u.1).1) d (List.replicate d.length u.2.1)
      str := unitLanded s core t.stage u.2.1 } := fun d => by
    rw [landBytes, hnext, landPut, unitLanded, unitCounted_keeps]
    cases t.stage <;> rfl
  simp only [landUnit, hu, counted_eq, hland, hnext]
  exact (withJob_of_job (j := j) (by exact hj) _).trans rfl

theorem landUnit_fetch_idle {s : State} {core q n unit : Nat} {t : Tag} {j : Job} (hu : t.use = .fetch q n unit) (hj : s.job q n = some j)
    (u : Nat × Bool × List Byte) (h : NothingWaits s) : NothingWaits (landUnit core t s u) := by
  rw [landUnit_fetch hu hj]
  exact nothingWaits_of (nothingWaits_setJob (k := withLanded j _) h (job_mem hj).1 rfl rfl)

theorem landUnit_rise {s : State} {core d : Nat} {t : Tag} (hu : t.use = .rise d) (u : Nat × Bool × List Byte) :
    landUnit core t s u = { s with
      pg := { s.pg with rises := s.pg.rises.map fun r => if r.d == d then
        { r with body := r.body ++ [((unitSpan t u.1).1, landData t u)], poisoned := r.poisoned || u.2.1 } else r }
      str := unitCounted s core u.2.1 } := by
  simp only [landUnit, hu, counted_eq]
  rfl

theorem exec_streamReadData (p : BitVec 2) (id : BitVec 19) (unit : BitVec 2) (last err poison : Bool) (data : List Byte) (s : State) :
    exec (.streamReadData p id unit last err poison data) s =
      .next (readUnit s p.toNat (onPort p.toNat) id.toNat unit.toNat last err poison data) := rfl
theorem exec_shelfReadData (id : BitVec 19) (unit : BitVec 2) (last err poison : Bool) (data : List Byte) (s : State) :
    exec (.shelfReadData id unit last err poison data) s = .next (readUnit s 4 onShelf id.toNat unit.toNat last err poison data) := rfl

/-- The end of a read of one unit, when it serves no rise. -/
theorem endRead_one {s : State} {key core : Nat} {t : Tag} {u : Nat × Bool × List Byte} (hu : ∀ d, t.use ≠ .rise d) (hcore : key / 512 = core)
    (hidle : NothingWaits (landUnit core t s u)) :
    endRead s key t [u] = { landUnit core t s u with
      str := { (landUnit core t s u).str with tags := (landUnit core t s u).str.tags.del key } } := by
  subst hcore
  rw [endRead, List.foldl_cons, List.foldl_nil]
  cases huse : t.use with
  | rise d => exact absurd huse (hu d)
  | _ => exact dropTag_idle hidle key

/-- The end of a rise's read of one unit. -/
theorem endRead_rise {s : State} {key core d : Nat} {t : Tag} (hu : t.use = .rise d) (hcore : key / 512 = core) (hidle : NothingWaits s)
    (u : Nat × Bool × List Byte) :
    endRead s key t [u] = { s with
      pg := { s.pg with rises := s.pg.rises.map fun r => if r.d == d then
        { r with body := r.body ++ [((unitSpan t u.1).1, landData t u)], poisoned := r.poisoned || u.2.1, left := r.left - 1 } else r }
      str := { unitCounted s core u.2.1 with tags := (unitCounted s core u.2.1).tags.del key } } := by
  subst hcore
  rw [endRead, List.foldl_cons, List.foldl_nil, landUnit_rise hu, hu]
  have hmaps : (s.pg.rises.map fun r => if r.d == d then
      { r with body := r.body ++ [((unitSpan t u.1).1, landData t u)], poisoned := r.poisoned || u.2.1 } else r).map
        (fun r => if r.d == d then { r with left := r.left - 1 } else r) =
      s.pg.rises.map fun r => if r.d == d then
        { r with body := r.body ++ [((unitSpan t u.1).1, landData t u)], poisoned := r.poisoned || u.2.1, left := r.left - 1 } else r := by
    rw [List.map_map]
    refine List.map_congr_left fun r _ => ?_
    by_cases hr : r.d = d <;> simp [hr]
  dsimp only
  rw [hmaps]
  have hidle' := nothingWaits_rises hidle (f := fun r => if r.d == d then
    { r with body := r.body ++ [((unitSpan t u.1).1, landData t u)], poisoned := r.poisoned || u.2.1, left := r.left - 1 } else r)
    fun x => by split <;> rfl
  exact dropTag_idle (nothingWaits_of hidle') key

theorem unitLanded_keeps (s : State) (core : Nat) (stage bad : Bool) :
    (unitLanded s core stage bad).tags = s.str.tags ∧ (unitLanded s core stage bad).cnt = (unitCounted s core bad).cnt := by
  unfold unitLanded
  rw [unitCounted_keeps]
  split <;> exact ⟨rfl, rfl⟩

theorem fld_lt (x lo w : Nat) : fld x lo w < 2 ^ w := Nat.mod_lt _ (Nat.two_pow_pos w)

/-- Settles O21: units are held until the last one lands them. -/
theorem readUnitsLandWhenComplete : Obligations.ReadUnitsLandWhenComplete := by
  unfold Obligations.ReadUnitsLandWhenComplete
  intro p id unit last err poison data s t c core key hready hgen hfind hsent hc hw hb hinj hin hnew
  obtain ⟨port, ok, hexec, hok⟩ : ∃ port ok, exec c s = .next (readUnit s port ok id.toNat unit.toNat last err poison data) ∧ ok t = true := by
    rcases hc with ⟨rfl, hch⟩ | ⟨rfl, hch⟩
    · exact ⟨p.toNat, onPort p.toNat, exec_streamReadData .., by simp [onPort, hch]⟩
    · exact ⟨4, onShelf, exec_shelfReadData .., by simp [onShelf, hch]⟩
  have hawait : Awaits s ok id.toNat t := ⟨hready, hgen, hfind, hsent, hok⟩
  have hcore : key / 512 = core := tagKey_core (fld_lt id.toNat 2 9)
  refine ⟨fun hl => ?_, fun hl hspan hunits hidle => ?_⟩
  · subst hl
    rw [hexec, readUnit_asked hawait hw hb hinj hin hnew (fun h => by cases h)]
    rfl
  · subst hl
    intro bad a n got counts
    obtain ⟨t', htuse, hstage, hunit, hend⟩ : ∃ t', t'.use = t.use ∧ t'.stage = t.stage ∧ unitSpan t' = unitSpan t ∧
        exec c s = .next (endRead s key t' [(unit.toNat, bad, data)]) := by
      refine ⟨{ t with units := [(unit.toNat, bad, data)] }, rfl, rfl, rfl, ?_⟩
      rw [hexec, readUnit_asked hawait hw hb hinj hin hnew (fun _ => by simp [hspan]), hunits]
      rfl
    have hdata : landData t' (unit.toNat, bad, data) = got := by
      rw [landData, hunit]
    refine ⟨fun q m u j huse hj => ?_, fun d huse => ?_⟩
    · have htu := htuse.trans huse
      rw [hend, endRead_one (by simp [htu]) hcore (landUnit_fetch_idle htu hj _ hidle), landUnit_fetch htu hj, hstage, hunit, hdata]
      obtain ⟨htags, hcnt⟩ := unitLanded_keeps s core t.stage bad
      refine ⟨_, rfl, ⟨congrArg (Tab.del · key) htags, fun hg => hcnt.trans (by rw [hg]; rfl), fun hg hf => ?_⟩, rfl⟩
      exact (congrArg (Tab.get · _ _) hcnt).trans (by rw [hg]; exact unitCounted_bad hf core)
    · rw [hend, endRead_rise (htuse.trans huse) hcore hidle, hunit, hdata]
      refine ⟨_, rfl, ⟨congrArg (Tab.del · key) (by rw [unitCounted_keeps]), fun hg => by rw [hg]; rfl, fun hg hf => ?_⟩, ?_⟩
      · rw [hg]
        exact unitCounted_bad hf core
      · simp only [beq_iff_eq]
        rfl

end Sys2Proof.Proofs
end

section
set_option Elab.async false
/-! Write acknowledgements and stray responses (10 R320; 11 R351; 12 R379; 15 R486, R488, R514, R515). -/
namespace Sys2Proof.Proofs
open Sys2Proof Sys2Proof.Machine Sys2Proof.Laws Sys2Proof.Safety

/-! ### Falls at their commit point -/

/-- A fall that has nothing to commit: bytes of it are outstanding, a write of it was lost, or its descriptor says so already. -/
def Marked (s : State) (f : Fall) : Prop := f.left ≠ 0 ∨ f.cls = 9 ∨ (getDesc s f.d).commit = true

theorem commitFall_marked {s : State} {f : Fall} (h : Marked s f) : commitFall s f = s := by
  have hc : (f.left != 0 || f.cls == 9 || (getDesc s f.d).commit) = true := by
    simpa [Marked, or_assoc] using h
  unfold commitFall
  simp only [hc, if_true]

theorem commitFalls_marked {s : State} (h : FallsMarked s) : commitFalls s = s := by
  have hall : ∀ l : List Fall, (∀ f ∈ l, Marked s f) → l.foldl commitFall s = s := fun l hl => by
    induction l with
    | nil => rfl
    | cons f l ih =>
      rw [List.foldl_cons, commitFall_marked (hl f List.mem_cons_self)]
      exact ih fun g hg => hl g (List.mem_cons_of_mem _ hg)
  exact hall _ h

theorem putSide_eq (s : State) (d x : Nat) : putSide s d x = { s with t1 := (putSide s d x).t1 } := by
  unfold putSide
  split <;> rfl

/-- Commits write T1 alone. -/
theorem commitFall_eq (s : State) (f : Fall) : commitFall s f = { s with t1 := (commitFall s f).t1 } := by
  unfold commitFall
  dsimp only
  split
  · rfl
  · cases f.summary with
    | none => rfl
    | some k =>
      dsimp only
      rw [putSide_eq]
      rfl

theorem commitFalls_eq (s : State) : commitFalls s = { s with t1 := (commitFalls s).t1 } := by
  have hall : ∀ (l : List Fall) (t : State), l.foldl commitFall t = { t with t1 := (l.foldl commitFall t).t1 } := fun l => by
    induction l with
    | nil => exact fun _ => rfl
    | cons f l ih =>
      intro t
      rw [List.foldl_cons, ih, commitFall_eq]
  exact hall _ s

/-- The one fall that is left commits: its header stands in the side table, and its descriptor says so. -/
theorem commitFalls_one {s : State} {f : Fall} (hf : s.pg.falls = [f]) (hl : f.left = 0) (hc : f.cls ≠ 9) (hs : f.summary = none)
    (hx : (getDesc s f.d).commit = false) :
    commitFalls s = putDesc (s.wr (s.tier.sideBase + 32 * f.d) f.header) f.d { getDesc s f.d with commit := true } := by
  simp [commitFalls, hf, commitFall, hl, hc, hs, hx]

/-! ### Acknowledgements -/

theorem writeAck_taken {s : State} {port : Nat} {ok : Tag → Bool} {id : Nat} {err : Bool} {t : Tag} (h : Awaits s ok id t) (hw : t.write = true) :
    writeAck s port ok id err =
      dropTag (fallEnds (if err then loseWrite s (fld id 11 8) (fld id 2 9) t else s) t.use err) (tagKey (fld id 11 8) (fld id 2 9)) := by
  obtain ⟨hready, hgen, hfind, hsent, hok⟩ := h
  simp [writeAck, hready, hgen, hfind, hsent, hok, hw]

theorem fallEnds_other {u : TagFor} (h : ∀ d, u ≠ .fall d) (s : State) (lost : Bool) : fallEnds s u lost = s := by
  cases u with
  | fall d => exact absurd rfl (h d)
  | _ => rfl

/-- Fall `d` with one transfer less outstanding. -/
def oneLess (d : Nat) (f : Fall) : Fall := if f.d == d then { f with left := f.left - 1 } else f

theorem oneLess_eq (d : Nat) : oneLess d = fun f => if f.d = d then { f with left := f.left - 1 } else f := by
  funext f
  simp [oneLess]

theorem oneLess_todo (d : Nat) (f : Fall) : (oneLess d f).todo = f.todo := by
  unfold oneLess
  split <;> rfl

theorem fallEnds_good (s : State) (d : Nat) :
    fallEnds s (.fall d) false = { s with pg := { s.pg with falls := s.pg.falls.map (oneLess d) } } := rfl

/-- A command whose write is lost counts its elements as poison. -/
def poisoned (j : Job) (t : Tag) : Job := { j with poison := sat32 j.poison (elemsIn t.len t.ebits t.phase) }

/-- A command's write that is lost is logged and counted as poison of the command; the bytes in memory are open. -/
theorem loseWrite_job {s : State} {t : Tag} {q n : Nat} {j : Job} (hu : t.use = .write q n) (hj : s.job q n = some j) (core tag : Nat) :
    loseWrite s core tag t = { (viol s j.loc 0x0B core tag).setJob (poisoned j t) with
      t1 := (loseWrite s core tag t).t1, shelf := (loseWrite s core tag t).shelf, fresh := (loseWrite s core tag t).fresh } := by
  have howner : t.use.owner = some (q, n) := by rw [hu]; rfl
  have hviol : (viol s j.loc 0x0B core tag).job q n = some j := by
    rw [viol_eq]
    exact hj
  unfold loseWrite
  simp only [howner, hj, withJob_of_job hviol]
  split
  · cases t.chan <;> rfl
  · rfl

theorem exec_streamWriteAck (p : BitVec 2) (id : BitVec 19) (err : Bool) (s : State) :
    exec (.streamWriteAck p id err) s = .next (commitFalls (writeAck s p.toNat (onPort p.toNat) id.toNat err)) := rfl
theorem exec_shelfWriteAck (id : BitVec 19) (err : Bool) (s : State) :
    exec (.shelfWriteAck id err) s = .next (commitFalls (writeAck s 4 onShelf id.toNat err)) := rfl

/-! ### Responses that nothing awaits -/

/-- The code of a response's violation: a stale generation, no tag in flight on the channel, or a tag of the other kind (15 R514). -/
def strayCode (s : State) (ok : Tag → Bool) (write : Bool) (id : Nat) : Option Nat :=
  if s.str.gens.get (tagKey (fld id 11 8) (fld id 2 9)) 0 != fld id 0 2 then some 2
  else match s.str.tags.find (tagKey (fld id 11 8) (fld id 2 9)) with
    | none => some 1
    | some t => if !t.sent || !ok t then some 1 else if t.write != write then some 4 else none

theorem readUnit_stray {s : State} {port : Nat} {ok : Tag → Bool} {id unit code : Nat} {last err poison : Bool} {data : List Byte}
    (hready : s.life.ready = true) (h : strayCode s ok false id = some code) :
    readUnit s port ok id unit last err poison data = portViol s port code id := by
  unfold strayCode at h
  simp only [readUnit, hready, Bool.not_true, Bool.false_eq_true, if_false]
  split at h
  · rw [if_pos ‹_›]
    cases h
    rfl
  rw [if_neg ‹_›]
  cases hfind : s.str.tags.find (tagKey (fld id 11 8) (fld id 2 9)) with
  | none =>
    simp only [hfind] at h ⊢
    cases h
    rfl
  | some t =>
    simp only [hfind, Bool.bne_false] at h ⊢
    split at h
    · rw [if_pos ‹_›]
      cases h
      rfl
    rw [if_neg ‹_›]
    split at h
    · rw [if_pos ‹_›]
      cases h
      rfl
    · cases h

theorem writeAck_stray {s : State} {port : Nat} {ok : Tag → Bool} {id code : Nat} {err : Bool}
    (hready : s.life.ready = true) (h : strayCode s ok true id = some code) : writeAck s port ok id err = portViol s port code id := by
  unfold strayCode at h
  simp only [writeAck, hready, Bool.not_true, Bool.false_eq_true, if_false]
  split at h
  · rw [if_pos ‹_›]
    cases h
    rfl
  rw [if_neg ‹_›]
  cases hfind : s.str.tags.find (tagKey (fld id 11 8) (fld id 2 9)) with
  | none =>
    simp only [hfind] at h ⊢
    cases h
    rfl
  | some t =>
    simp only [hfind, Bool.bne_true] at h ⊢
    split at h
    · rw [if_pos ‹_›]
      cases h
      rfl
    rw [if_neg ‹_›]
    split at h
    · rw [if_pos ‹_›]
      cases h
      rfl
    · cases h

/-- With capture off a violation leaves T1. -/
theorem portViol_t1 {s : State} (h : s.mon.trOn = false) (port code aux : Nat) : (portViol s port code aux).t1 = s.t1 := by
  unfold portViol
  dsimp only
  split
  · rfl
  · exact (viol_traceOff _ _ _ _ _ (by exact h)).1

theorem commitFalls_portViol {s : State} (h : s.mon.trOn = false) (hm : FallsMarked s) (port code aux : Nat) :
    commitFalls (portViol s port code aux) = portViol s port code aux := by
  refine commitFalls_marked ?_
  rw [portViol_eq, portViol_t1 h]
  exact hm

/-- Settles O22: an acknowledgement frees its tag, and a response that nothing awaits is logged. -/
theorem writeAcksAndStrayResponses : Obligations.WriteAcksAndStrayResponses := by
  unfold Obligations.WriteAcksAndStrayResponses
  refine ⟨fun p id s t c => ?_, fun p id unit last err poison data s c port ok write hc => ?_⟩
  · intro key hready hgen hfind hsent hw hidle hmarked hc s0
    obtain ⟨port, ok, hexec, hok⟩ : ∃ port ok, exec c s = .next (commitFalls (writeAck s port ok id.toNat false)) ∧ ok t = true := by
      rcases hc with ⟨rfl, hch⟩ | ⟨rfl, hch⟩
      · exact ⟨p.toNat, onPort p.toNat, exec_streamWriteAck .., by simp [onPort, hch]⟩
      · exact ⟨4, onShelf, exec_shelfWriteAck .., by simp [onShelf, hch]⟩
    have hack := writeAck_taken (port := port) (err := false) ⟨hready, hgen, hfind, hsent, hok⟩ hw
    refine ⟨fun huse => ?_, fun d huse hleft => ?_, fun f huse hf hl hcls hsum hx => ?_, fun q n j huse hch hj htr => ?_⟩
    · rw [hexec, hack, fallEnds_other huse, if_neg Bool.false_ne_true, dropTag_idle hidle]
      exact congrArg _ (commitFalls_marked hmarked)
    · rw [hexec, hack, huse, if_neg Bool.false_ne_true, fallEnds_good, dropTag_idle (nothingWaits_falls hidle (oneLess_todo d))]
      refine congrArg _ (commitFalls_marked fun g hg => ?_) |>.trans (by rw [oneLess_eq])
      obtain ⟨f, hf, rfl⟩ := List.mem_map.1 hg
      by_cases hd : f.d = d
      · have := hleft f hf hd
        exact .inl (by simp only [oneLess, hd, beq_self_eq_true, if_true]; omega)
      · simp only [oneLess, beq_iff_eq, hd, if_false]
        exact hmarked f hf
    · have hmap : s.pg.falls.map (oneLess f.d) = [{ f with left := 0 }] := by simp [hf, oneLess, hl]
      rw [hexec, hack, huse, if_neg Bool.false_ne_true, fallEnds_good, dropTag_idle (nothingWaits_falls hidle (oneLess_todo f.d)), hmap]
      exact congrArg _ (commitFalls_one (f := { f with left := 0 }) rfl rfl hcls hsum hx)
    · have hawait : Awaits s (onPort p.toNat) id.toNat t := ⟨hready, hgen, hfind, hsent, by simp [onPort, hch]⟩
      have hlost := loseWrite_job huse hj (fld id.toNat 11 8) (fld id.toNat 2 9)
      have hidle' : NothingWaits (loseWrite s (fld id.toNat 11 8) (fld id.toNat 2 9) t) := by
        rw [hlost, viol_eq]
        exact nothingWaits_of (nothingWaits_setJob (k := poisoned j t) hidle (job_mem hj).1 rfl rfl)
      rw [exec_streamWriteAck, writeAck_taken hawait hw, if_pos rfl, fallEnds_other (by simp [huse]), dropTag_idle hidle', commitFalls_eq, hlost,
        viol_eq]
      exact ⟨_, rfl, rfl, rfl, rfl, rfl, rfl⟩
  · intro key hready htr
    have hexec : ∀ code, strayCode s ok write id.toNat = some code → exec c s = .next (portViol s port code id.toNat) := fun code hcode => by
      rcases hc with ⟨rfl, rfl, rfl, rfl⟩ | ⟨rfl, rfl, rfl, rfl, hm⟩ | ⟨rfl, rfl, rfl, rfl⟩ | ⟨rfl, rfl, rfl, rfl, hm⟩
      · rw [exec_streamReadData, readUnit_stray hready hcode]
      · rw [exec_streamWriteAck, writeAck_stray hready hcode, commitFalls_portViol htr hm]
      · rw [exec_shelfReadData, readUnit_stray hready hcode]
      · rw [exec_shelfWriteAck, writeAck_stray hready hcode, commitFalls_portViol htr hm]
    refine ⟨fun hgen => hexec 2 (if_pos (by simpa using hgen)), fun hgen => ?_⟩
    have hcode : strayCode s ok write id.toNat = match s.str.tags.find key with
        | none => some 1
        | some t => if !t.sent || !ok t then some 1 else if t.write != write then some 4 else none := if_neg (by simpa using hgen)
    refine ⟨fun hfind => hexec 1 (by rw [hcode, hfind]), fun t hfind => ?_⟩
    rw [hfind] at hcode
    exact ⟨fun hno => hexec 1 (hcode.trans (if_pos (by simpa using hno))),
      fun hsent hok hwr => hexec 4 (hcode.trans (by simp [hsent, hok, hwr]))⟩

end Sys2Proof.Proofs
end

section
set_option Elab.async false
/-! Timeouts of transfers (12 R379). -/
namespace Sys2Proof.Proofs
open Sys2Proof Sys2Proof.Machine Sys2Proof.Laws Sys2Proof.Safety

/-- What the end of a transfer leaves alone, but for the release of its tag: the time, the queues, the flags, the tags, and that no
stream waits. -/
structure EndsAlone (s t : State) : Prop where
  life : t.life = s.life
  qs : t.qs = s.qs
  flg : t.flg = s.flg
  tags : t.str.tags = s.str.tags
  gens : t.str.gens = s.str.gens
  timeouts : t.str.timeouts = s.str.timeouts
  waits : NothingWaits s → NothingWaits t

theorem EndsAlone.refl (s : State) : EndsAlone s s := ⟨rfl, rfl, rfl, rfl, rfl, rfl, id⟩

theorem EndsAlone.trans {s t u : State} (h : EndsAlone s t) (k : EndsAlone t u) : EndsAlone s u :=
  ⟨k.life.trans h.life, k.qs.trans h.qs, k.flg.trans h.flg, k.tags.trans h.tags, k.gens.trans h.gens, k.timeouts.trans h.timeouts,
    fun hs => k.waits (h.waits hs)⟩

theorem viol_endsAlone (s : State) (cmd cause detail aux : Nat) : EndsAlone s (viol s cmd cause detail aux) := by
  rw [viol_eq]
  exact ⟨rfl, rfl, rfl, rfl, rfl, rfl, nothingWaits_of⟩

theorem setJob_endsAlone {s : State} {j k : Job} (hj : j ∈ s.jobs) (hw : k.wq = j.wq) (ha : k.ask = j.ask) : EndsAlone s (s.setJob k) :=
  ⟨rfl, rfl, rfl, rfl, rfl, rfl, fun h => nothingWaits_setJob h hj hw ha⟩

theorem withJob_endsAlone {s : State} {q n : Nat} {f : Job → Job} (hf : ∀ j, (f j).wq = j.wq ∧ (f j).ask = j.ask) :
    EndsAlone s (s.withJob q n fun s j => s.setJob (f j)) := by
  cases hj : s.job q n with
  | none =>
    rw [withJob_of_none hj]
    exact .refl s
  | some j =>
    rw [withJob_of_job hj]
    exact setJob_endsAlone (job_mem hj).1 (hf j).1 (hf j).2

theorem withJob_t0 {s : State} {q n : Nat} {f : Job → Job} : (s.withJob q n fun s j => s.setJob (f j)).t0 = s.t0 := by
  unfold State.withJob
  split <;> rfl

/-- The command that a lost write belongs to, as the violation log names it. -/
def lostBy (s : State) (t : Tag) : Nat :=
  match t.use.owner with
  | some (q, n) => match s.job q n with | some j => j.loc | none => 0
  | none => 0

/-- A lost write counts as poison of its command. -/
def countLost (s : State) (t : Tag) : State :=
  match t.use.owner with
  | some (q, n) => s.withJob q n fun s j => s.setJob (poisoned j t)
  | none => s

/-- The bytes that a lost write may or may not have reached are open. -/
def openBytes (s : State) (t : Tag) : State :=
  if (t.sent && t.use != .sunk) || t.kept then
    match t.chan with
    | .port _ => { (freeNat s).2 with t1 := { (freeNat s).2.t1 with bytes := (freeNat s).2.t1.bytes.write t.addr (leBytes t.len (freeNat s).1) } }
    | .shelf => { (freeNat s).2 with shelf := { (freeNat s).2.shelf with bytes := (freeNat s).2.shelf.bytes.write t.addr (leBytes t.len (freeNat s).1) } }
    | .aper _ => s
  else s

theorem loseWrite_eq (s : State) (core tag : Nat) (t : Tag) :
    loseWrite s core tag t = openBytes (countLost (viol s (lostBy s t) 0x0B core tag) t) t := rfl

theorem countLost_endsAlone (s : State) (t : Tag) : EndsAlone s (countLost s t) ∧ (countLost s t).t0 = s.t0 := by
  unfold countLost
  split
  · exact ⟨withJob_endsAlone fun j => ⟨rfl, rfl⟩, withJob_t0⟩
  · exact ⟨.refl s, rfl⟩

theorem openBytes_endsAlone (s : State) (t : Tag) : EndsAlone s (openBytes s t) ∧ (openBytes s t).t0 = s.t0 := by
  unfold openBytes
  split
  · cases t.chan <;> exact ⟨⟨rfl, rfl, rfl, rfl, rfl, rfl, nothingWaits_of⟩, rfl⟩
  · exact ⟨.refl s, rfl⟩

theorem loseWrite_endsAlone (s : State) (core tag : Nat) (t : Tag) : EndsAlone s (loseWrite s core tag t) ∧ (loseWrite s core tag t).t0 = s.t0 := by
  obtain ⟨hcount, hcount0⟩ := countLost_endsAlone (viol s (lostBy s t) 0x0B core tag) t
  obtain ⟨hopen, hopen0⟩ := openBytes_endsAlone (countLost (viol s (lostBy s t) 0x0B core tag) t) t
  rw [loseWrite_eq]
  exact ⟨(viol_endsAlone ..).trans (hcount.trans hopen), hopen0.trans (hcount0.trans (by rw [viol_eq]))⟩

theorem fallEnds_endsAlone (s : State) (u : TagFor) (lost : Bool) : EndsAlone s (fallEnds s u lost) ∧ (fallEnds s u lost).t0 = s.t0 := by
  cases u with
  | fall d =>
    have hone : ∀ t : State, EndsAlone t { t with pg := { t.pg with falls := t.pg.falls.map (oneLess d) } } :=
      fun t => ⟨rfl, rfl, rfl, rfl, rfl, rfl, fun h => nothingWaits_falls h (oneLess_todo d)⟩
    cases lost with
    | false => exact ⟨hone s, rfl⟩
    | true =>
      have hspoil : EndsAlone s (spoilFall s d) := ⟨rfl, rfl, rfl, rfl, rfl, rfl, fun h =>
        nothingWaits_falls (f := fun f => if f.d == d then { f with cls := 9 } else f) h fun x => by split <;> rfl⟩
      exact ⟨hspoil.trans (hone _), rfl⟩
  | _ => exact ⟨.refl s, rfl⟩

theorem count_endsAlone (s : State) (core slot d : Nat) : EndsAlone s (count s core slot d) := by
  unfold count
  dsimp only
  split
  · exact .refl s
  split
  · exact ⟨rfl, rfl, rfl, rfl, rfl, rfl, nothingWaits_of⟩
  split <;> exact ⟨rfl, rfl, rfl, rfl, rfl, rfl, nothingWaits_of⟩

theorem landBytes_endsAlone (s : State) (core : Nat) (stage : Bool) (a : Nat) (d : List Byte) (bad : Bool) :
    EndsAlone s (landBytes s core stage a d bad) := by
  cases stage <;> exact ⟨rfl, rfl, rfl, rfl, rfl, rfl, nothingWaits_of⟩

theorem landUnit_endsAlone (core : Nat) (t : Tag) (s : State) (u : Nat × Bool × List Byte) : EndsAlone s (landUnit core t s u) := by
  have hcount : EndsAlone s (if u.2.1 then count s core 11 1 else s) := by
    split
    · exact count_endsAlone ..
    · exact .refl s
  cases huse : t.use with
  | fetch q n unit =>
    simp only [landUnit, huse]
    exact hcount.trans ((landBytes_endsAlone ..).trans (withJob_endsAlone (f := fun j => withLanded j _) fun j => ⟨rfl, rfl⟩))
  | rise d =>
    simp only [landUnit, huse]
    refine hcount.trans ⟨rfl, rfl, rfl, rfl, rfl, rfl, fun h => nothingWaits_rises (f := fun r => if r.d == d then _ else r) h fun x => ?_⟩
    split <;> rfl
  | sunk =>
    simp only [landUnit, huse]
    exact count_endsAlone ..
  | _ =>
    simp only [landUnit, huse]
    exact .refl s

theorem landUnits_endsAlone (core : Nat) (t : Tag) (l : List (Nat × Bool × List Byte)) (s : State) : EndsAlone s (l.foldl (landUnit core t) s) := by
  induction l generalizing s with
  | nil => exact .refl s
  | cons u l ih => exact (landUnit_endsAlone core t s u).trans (ih _)

/-- Where the units of a command's read land, from place `k` of its core's buffer on. -/
def landings (core unit : Nat) (t : Tag) (k : Nat) (l : List (Nat × Bool × List Byte)) : List Landed :=
  (l.zipIdx k).map fun v => ⟨unit, core, (unitSpan t v.1.1).1, landData t v.1, v.1.2.1, v.2, t.stage⟩

theorem landings_cons (core unit : Nat) (t : Tag) (k : Nat) (u : Nat × Bool × List Byte) (l : List (Nat × Bool × List Byte)) :
    landings core unit t k (u :: l) =
      ⟨unit, core, (unitSpan t u.1).1, landData t u, u.2.1, k, t.stage⟩ :: landings core unit t (k + 1) l := rfl

/-- A command that knows of more landings. -/
def withLandings (j : Job) (l : List Landed) : Job := { j with fetched := j.fetched ++ l }

theorem withLandings_withLanded (j : Job) (x : Landed) (l : List Landed) : withLandings (withLanded j x) l = withLandings j (x :: l) := by
  simp [withLandings, withLanded]

theorem landNext_landUnit {s : State} {core q n unit : Nat} {t : Tag} {j : Job} (hu : t.use = .fetch q n unit) (hj : s.job q n = some j)
    (u : Nat × Bool × List Byte) : landNext (landUnit core t s u) core t.stage = landNext s core t.stage + 1 := by
  rw [landUnit_fetch hu hj, landNext, unitLanded]
  cases t.stage <;> exact get_put_self ..

/-- The units of a command's read land one after another. -/
theorem landUnits_fetch {core q n unit : Nat} {t : Tag} (hu : t.use = .fetch q n unit) (l : List (Nat × Bool × List Byte)) {s : State} {j : Job}
    (hj : s.job q n = some j) (hl : l ≠ []) : (l.foldl (landUnit core t) s).jobs =
      (s.setJob (withLandings j (landings core unit t (landNext s core t.stage) l))).jobs := by
  induction l generalizing s j with
  | nil => exact absurd rfl hl
  | cons u l ih =>
    obtain ⟨-, hq, hn⟩ := job_mem hj
    have hland := landUnit_fetch (core := core) hu hj u
    rw [List.foldl_cons]
    cases l with
    | nil =>
      rw [List.foldl_nil, hland]
      rfl
    | cons v l =>
      have hj' := job_setJob s q n j
        (withLanded j ⟨unit, core, (unitSpan t u.1).1, landData t u, u.2.1, landNext s core t.stage, t.stage⟩) hj rfl hq hn
      have hjob : (landUnit core t s u).job q n = some (withLanded j
          ⟨unit, core, (unitSpan t u.1).1, landData t u, u.2.1, landNext s core t.stage, t.stage⟩) := by
        rw [hland]
        exact hj'
      rw [ih hjob (List.cons_ne_nil _ _), landNext_landUnit hu hj, withLandings_withLanded, hland, ← landings_cons]
      have hset := congrArg State.jobs <| setJob_setJob s (j := withLanded j ⟨unit, core, (unitSpan t u.1).1, landData t u, u.2.1, landNext s core t.stage, t.stage⟩)
        (k := withLandings j (landings core unit t (landNext s core t.stage) (u :: v :: l))) rfl
      exact hset

theorem endRead_plain {s : State} {key core : Nat} {t : Tag} {l : List (Nat × Bool × List Byte)} (hu : ∀ d, t.use ≠ .rise d)
    (hcore : key / 512 = core) (hidle : NothingWaits s) :
    endRead s key t l = { l.foldl (landUnit core t) s with
      str := { (l.foldl (landUnit core t) s).str with tags := (l.foldl (landUnit core t) s).str.tags.del key } } := by
  subst hcore
  have h := (landUnits_endsAlone (key / 512) t l s).waits hidle
  rw [endRead]
  cases huse : t.use with
  | rise d => exact absurd huse (hu d)
  | _ => exact dropTag_idle h key

theorem rises_endsAlone (s : State) {f : Rise → Rise} (hf : ∀ x, (f x).todo = x.todo) :
    EndsAlone s { s with pg := { s.pg with rises := s.pg.rises.map f } } :=
  ⟨rfl, rfl, rfl, rfl, rfl, rfl, fun h => nothingWaits_rises h hf⟩

/-- A tag that is released, after what the end of its transfer did. -/
def Released (s : State) (key : Nat) (t : State) : Prop :=
  ∃ u, EndsAlone s u ∧ t = { u with str := { u.str with tags := u.str.tags.del key } }

theorem dropTag_released {s u : State} (h : EndsAlone s u) (hidle : NothingWaits s) (key : Nat) : Released s key (dropTag u key) :=
  ⟨u, h, dropTag_idle (h.waits hidle) key⟩

theorem endRead_released {s : State} (hidle : NothingWaits s) (key : Nat) (t : Tag) (l : List (Nat × Bool × List Byte)) :
    Released s key (endRead s key t l) := by
  have h := landUnits_endsAlone (key / 512) t l s
  rw [endRead]
  cases huse : t.use with
  | rise d =>
    exact dropTag_released (h.trans (rises_endsAlone _ fun x => by split <;> rfl)) hidle key
  | _ => exact dropTag_released h hidle key

/-- The counts of a timeout. -/
def timedOut (s : State) (key : Nat) : State :=
  { s with str := { s.str with timeouts := add64 s.str.timeouts 1, gens := s.str.gens.put key ((s.str.gens.get key 0 + 1) % 4) } }

/-- A timeout counts, moves the generation on and releases the tag. -/
theorem timeOut_released {s : State} (hidle : NothingWaits s) (key : Nat) (t : Tag) : Released (timedOut s key) key (timeOut s key t) := by
  have hidle' : NothingWaits (timedOut s key) := nothingWaits_of hidle
  unfold timeOut
  dsimp only
  split
  · exact dropTag_released ((loseWrite_endsAlone _ _ _ t).1.trans (fallEnds_endsAlone _ _ _).1) hidle' key
  · cases huse : t.use with
    | sunk => exact dropTag_released (.refl _) hidle' key
    | rise d =>
      have hrise := rises_endsAlone (timedOut s key) (f := fun r => if r.d == d then { r with timedOut := true } else r)
        fun x => by split <;> rfl
      obtain ⟨u, hu, he⟩ := endRead_released (hrise.waits hidle') key t (timedUnits t)
      exact ⟨u, hrise.trans hu, he⟩
    | _ => exact endRead_released hidle' key t _

/-- What time changes of the streams: the stall counts alone. -/
theorem advance_str (s : State) (lt : Dword) :
    (At s lt).str = { s.str with seen := (At s lt).str.seen, cnt := (At s lt).str.cnt } := by
  unfold At advance
  split
  · rfl
  · simp only [passTime, stallTime]
    split <;> rfl

theorem exec_tagTimeout (core : BitVec 8) (tag : BitVec 9) (lt : Dword) (s : State) :
    exec (.tagTimeout core tag lt) s = .next (tagTimeout core tag lt s) := rfl

/-- Settles O23: a tag past its limit is freed with a new generation, and a command's read lands what is missing as poison. -/
theorem timeoutsFreeTheirTags : Obligations.TimeoutsFreeTheirTags := by
  unfold Obligations.TimeoutsFreeTheirTags
  intro core tag lt s t key hfind
  have hkey : key / 512 = core.toNat := tagKey_core tag.isLt
  have hstr := advance_str s lt
  have hat : tagTimeout core tag lt s = if t.due ≤ (At s lt).life.lt then timeOut (At s lt) key t else At s lt := by
    have hfind' : (At s lt).str.tags.find key = some t := by rw [hstr]; exact hfind
    simp only [tagTimeout, At] at hfind' ⊢
    rw [hfind']
    rfl
  refine ⟨fun hlt => by rw [exec_tagTimeout, hat, if_neg (by omega)], fun hle hidle => ?_⟩
  have hidle' : NothingWaits (At s lt) := nothingWaits_of hidle (by rw [At, advance_eq]) (by rw [At, advance_eq]) (by rw [At, advance_eq])
  rw [exec_tagTimeout, hat, if_pos hle]
  obtain ⟨u, hu, he⟩ := timeOut_released hidle' key t
  refine ⟨_, rfl, ?_, ?_, ?_, ?_, ?_, ?_, fun hw => ?_, fun q n m j huse hw hj hunits => ?_⟩
  · rw [he]
    exact find_del_self ..
  · rw [he]
    refine (congrArg (Tab.get · key 0) hu.gens).trans ((get_put_self ..).trans ?_)
    rw [hstr]
  · rw [he]
    refine hu.timeouts.trans ?_
    rw [timedOut, hstr]
  · rw [he]
    exact congrArg Life.lt hu.life
  · rw [he]
    exact hu.qs.trans (by rw [timedOut, At, advance_eq])
  · rw [he]
    exact hu.flg.trans (by rw [timedOut, At, advance_eq])
  · have hlost : timeOut (At s lt) key t =
        dropTag (fallEnds (loseWrite (timedOut (At s lt) key) (key / 512) (key % 512) t) t.use true) key := if_pos hw
    have hidle1 : NothingWaits (timedOut (At s lt) key) := nothingWaits_of hidle'
    have hl := loseWrite_endsAlone (timedOut (At s lt) key) (key / 512) (key % 512) t
    have hf := fallEnds_endsAlone (loseWrite (timedOut (At s lt) key) (key / 512) (key % 512) t) t.use true
    rw [hlost, dropTag_idle ((hl.1.trans hf.1).waits hidle1)]
    refine hf.2.trans (hl.2.trans ?_)
    rw [timedOut, At, advance_eq]
  · have hplain : timeOut (At s lt) key t = endRead (timedOut (At s lt) key) key t (timedUnits t) := by
      unfold timeOut
      simp only [hw, huse]
      rfl
    have hmissing : timedUnits t = t.span.map fun v => (v, true, []) := by simp [timedUnits, hunits]
    have hspan : t.span ≠ [] := by simp [Tag.span, tab, unitCount]
    have hj' : (timedOut (At s lt) key).job q n = some j := by
      rw [timedOut, At, advance_eq]
      exact hj
    rw [hplain, endRead_plain (by simp [huse]) hkey (nothingWaits_of hidle'), hmissing]
    refine (landUnits_fetch huse _ hj' (by simpa using hspan)).trans ?_
    have hnext : landNext (timedOut (At s lt) key) core.toNat t.stage = landNext s core.toNat t.stage := by
      unfold landNext
      rw [timedOut, hstr]
    have hland : landings core.toNat m t (landNext s core.toNat t.stage) (t.span.map fun v => (v, true, [])) = t.span.zipIdx.map fun v =>
        ⟨m, core.toNat, (unitSpan t v.1).1, List.replicate ((unitSpan t v.1).2 - (unitSpan t v.1).1) 0, true,
          landNext s core.toNat t.stage + v.2, t.stage⟩ := by
      rw [landings, List.zipIdx_map, List.zipIdx_eq_map_add]
      simp [Function.comp_def, landData]
    rw [hnext, hland, timedOut, At, advance_eq]
    rfl

end Sys2Proof.Proofs
end

section
set_option Elab.async false
/-! The array commands: what the placing of items leaves alone, and how a command starts (01 R34). -/
namespace Sys2Proof.Proofs
open Sys2Proof Sys2Proof.Machine Sys2Proof.Laws Sys2Proof.Safety

/-- The items that wait on core `k`: in its deque, or held until it has a place. -/
def itemsOn (s : State) (k : Nat) : List Item := (s.core k).deque ++ (s.core k).held

/-- `t` is `s` with items placed: only the cores change, and no core loses an item or what it runs or has saved. -/
structure Places (s t : State) : Prop where
  frame : t = { s with cores := t.cores }
  runs : ∀ k, (t.core k).run = (s.core k).run
  saves : ∀ k, (t.core k).saved = (s.core k).saved
  keeps : ∀ k, ∀ x ∈ itemsOn s k, x ∈ itemsOn t k

theorem Places.refl (s : State) : Places s s := ⟨rfl, fun _ => rfl, fun _ => rfl, fun _ _ => id⟩

theorem Places.trans {s t u : State} (h : Places s t) (k : Places t u) : Places s u where
  frame := by rw [k.frame, h.frame]
  runs c := (k.runs c).trans (h.runs c)
  saves c := (k.saves c).trans (h.saves c)
  keeps c x hx := k.keeps c x (h.keeps c x hx)



theorem core_setCore_ne (s : State) {c i : Nat} (k : Core) (h : i ≠ c) : (s.setCore c k).core i = s.core i := get_put_ne _ _ _ _ _ h

theorem placeItem_mem (s : State) (c : Nat) (it : Item) : it ∈ itemsOn (placeItem s c it) c := by
  rw [placeItem, itemsOn, core_setCore_self]
  split <;> simp

theorem placeItem_places (s : State) (c : Nat) (it : Item) : Places s (placeItem s c it) where
  frame := rfl
  runs k := by
    rw [placeItem]
    by_cases h : k = c
    · subst h
      rw [core_setCore_self]
      split <;> rfl
    · rw [core_setCore_ne _ _ h]
  saves k := by
    rw [placeItem]
    by_cases h : k = c
    · subst h
      rw [core_setCore_self]
      split <;> rfl
    · rw [core_setCore_ne _ _ h]
  keeps k x hx := by
    rw [placeItem, itemsOn]
    by_cases h : k = c
    · subst h
      rw [core_setCore_self]
      have hx' := List.mem_append.1 hx
      split <;> grind
    · rw [core_setCore_ne _ _ h]
      exact hx

theorem foldl_places {β : Type} {f : State → β → State} (hf : ∀ s x, Places s (f s x)) (l : List β) (s : State) :
    Places s (l.foldl f s) := by
  induction l generalizing s with
  | nil => exact .refl s
  | cons x l ih => exact (hf s x).trans (ih (f s x))

/-- Every item of a list of items to place is on its core in the end. -/
theorem foldl_placeItem_mem {β : Type} (c : β → Nat) (it : β → Item) (l : List β) (s : State) {x : β} (hx : x ∈ l) :
    it x ∈ itemsOn (l.foldl (fun s y => placeItem s (c y) (it y)) s) (c x) := by
  induction l generalizing s with
  | nil => cases hx
  | cons y l ih =>
    rcases List.mem_cons.1 hx with rfl | hx
    · exact (foldl_places (fun s y => placeItem_places s (c y) (it y)) l _).keeps _ _ (placeItem_mem ..)
    · exact ih _ hx

theorem served_eq (s : State) (j : Job) : s.served j = { s with turns := (s.served j).turns } := by
  unfold State.served
  split <;> rfl

theorem served_core (s : State) (j : Job) (k : Nat) : (s.served j).core k = s.core k := by rw [served_eq]; rfl

theorem served_job (s : State) (j : Job) (q n : Nat) : (s.served j).job q n = s.job q n := by rw [served_eq]; rfl

/-- A command with a tile still to come has not ended. -/
theorem settle_unfinished {s : State} {q n : Nat} {j : Job} (hj : s.job q n = some j) (h : j.finished ≠ j.total) : settle s q n = s := by
  rw [settle, withJob_of_job hj]
  simp [h]

theorem sendMsg_eq (s : State) (dry : Nat) (m : Msg) :
    sendMsg s dry m = { s with sent := (sendMsg s dry m).sent, str := (sendMsg s dry m).str, cas := (sendMsg s dry m).cas } := by
  unfold sendMsg
  dsimp only
  split <;> rfl

theorem foldl_sendMsg_eq {β : Type} (dry : Nat) (m : State → β → Msg) (l : List β) (s : State) :
    ∃ a b c, l.foldl (fun s x => sendMsg s dry (m s x)) s = { s with sent := a, str := b, cas := c } := by
  induction l generalizing s with
  | nil => exact ⟨_, _, _, rfl⟩
  | cons x l ih =>
    obtain ⟨a, b, c, h⟩ := ih (sendMsg s dry (m s x))
    exact ⟨a, b, c, by rw [List.foldl_cons, h, sendMsg_eq]⟩

/-- The opening of a bucket touches the link and the cascade. -/
theorem openBucket_eq (s : State) (j : Job) (word : Nat) :
    ∃ a b c, openBucket s j word = { s with sent := a, str := b, cas := c } := by
  unfold openBucket
  dsimp only
  obtain ⟨a, b, c, h⟩ := foldl_sendMsg_eq 0 (fun s (x : Nat × Nat) => mkMsg s 0x23 x.2 (fld word 0 8) 0 2 (0x20 + x.1 <<< 8) [])
    (s.cas.chunks.flatMap fun k => if k.tag == fld word 0 8 then k.terms.filterMap fun t =>
      if t.mode != b2n (bit word 8) + fld word 9 3 <<< 1 then some (k.num, t.rank) else none else []) s
  exact ⟨a, b, _, by rw [h]⟩

/-- `j` as it runs with `total` tiles to come, of the reduction attempt `attempt`. -/
def withTiles (j : Job) (total attempt : Nat) : Job :=
  { j with
    phase := .running
    tagWait := false
    attempt := attempt
    total := total
    finished := 0
    fail := none }

/-- The state in which an array command runs: its bucket is open, if it has one. -/
def opened (s : State) (j : Job) (o : ArrOp) : State := if o.reduce then openBucket s j (bw j.cmd 5) else s

theorem opened_eq (s : State) (j : Job) (o : ArrOp) : ∃ a b c, opened s j o = { s with sent := a, str := b, cas := c } := by
  unfold opened
  split
  · exact openBucket_eq ..
  · exact ⟨_, _, _, rfl⟩

/-- `s` with one item placed for each tile, or for each four tiles of Q16, of the command. -/
def placedItems (s : State) (j : Job) (o : ArrOp) : State :=
  (o.items o.tiles).foldl (fun s x => placeItem s (x % Config.cores) ⟨j.q, j.n, x, true⟩) s

/-- `j` issues its items, up to the tile that an operand does not let run. -/
def startItems (s : State) (j : Job) (o : ArrOp) (b : Option (Nat × (Nat × Nat × Nat))) : State :=
  let n := match b with | some f => f.1 | none => o.tiles
  let its := o.items n
  let s := s.setJob { j with
    phase := .running
    tagWait := false
    attempt := s.cas.attempt
    total := n
    finished := 0
    fail := b.map Prod.snd }
  let s := trace s 0x02 0 0xFF j.q j.n j.op its.length
  settle (its.foldl (fun s t => placeItem s (t % Config.cores) ⟨j.q, j.n, t, true⟩) s) j.q j.n

theorem runArray_eq (s : State) (j : Job) (o : ArrOp) : runArray s j o =
    if o.reduce && bucketWaits s (bw j.cmd 5) then s.setJob { j with tagWait := true }
    else withOperands s j j.ctx o.ins (o.parts j.ctx) fun s j => startItems (opened s j o) j o (o.firstBad (opened s j o) j.ctx) := rfl

/-- What an array command with its operands at hand does. -/
theorem runArray_atHand {s : State} {j : Job} {o : ArrOp} (hoff : s.mon.trOn = false) (hj : s.job j.q j.n = some j)
    (hwait : o.reduce = true → bucketWaits s (bw j.cmd 5) = false) (hat : AtHand s j j.ctx (o.parts j.ctx))
    (hbad : o.firstBad (opened s j o) j.ctx = none) (htiles : 0 < o.tiles) :
    runArray s j o =
      placedItems ((opened s j o).setJob (withTiles j o.tiles (opened s j o).cas.attempt)) j o := by
  have hnot : (o.reduce && bucketWaits s (bw j.cmd 5)) = false := by
    cases h : o.reduce
    · rfl
    · simpa using hwait h
  obtain ⟨a, b, c, hop⟩ := opened_eq s j o
  have hoff' : ((opened s j o).setJob (withTiles j o.tiles (opened s j o).cas.attempt)).mon.trOn = false := by rw [hop]; exact hoff
  have hjob : ((opened s j o).setJob (withTiles j o.tiles (opened s j o).cas.attempt)).job j.q j.n =
      some (withTiles j o.tiles (opened s j o).cas.attempt) :=
    job_setJob _ _ _ j _ (by rw [hop]; exact hj) rfl rfl rfl
  have hplaced : (placedItems ((opened s j o).setJob (withTiles j o.tiles (opened s j o).cas.attempt)) j o).job j.q j.n =
      some (withTiles j o.tiles (opened s j o).cas.attempt) := by
    rw [placedItems, (foldl_places (fun s x => placeItem_places s _ _) _ _).frame]
    exact hjob
  rw [runArray_eq, hnot, if_neg Bool.false_ne_true, withOperands_atHand _ _ _ _ _ _ hj hat, hbad, startItems]
  change settle (placedItems (trace ((opened s j o).setJob (withTiles j o.tiles (opened s j o).cas.attempt)) _ _ _ _ _ _ _) j o) j.q j.n = _
  rw [trace_off _ _ _ _ _ _ _ _ hoff']
  exact settle_unfinished hplaced (by simp only [withTiles]; omega)

theorem exec_mma (q : BitVec 6) (n : BitVec 16) (s : State) : exec (.mma q n) s = .next (arrayRow 0x01 q n s) := rfl
theorem exec_dmm (q : BitVec 6) (n : BitVec 16) (s : State) : exec (.dmm q n) s = .next (arrayRow 0x02 q n s) := rfl
theorem exec_conv (q : BitVec 6) (n : BitVec 16) (s : State) : exec (.conv q n) s = .next (arrayRow 0x03 q n s) := rfl

/-- Each command of the array is `arrayRow` with its opcode. -/
theorem exec_array {q : BitVec 6} {n : BitVec 16} {s : State} {j : Job} {c : Instr}
    (h : (c = .mma q n ∧ Taken s q n 0x01 j) ∨ (c = .dmm q n ∧ Taken s q n 0x02 j) ∨ (c = .conv q n ∧ Taken s q n 0x03 j)) :
    ∃ op, Taken s q n op j ∧ exec c s = .next (arrayRow op q n s) := by
  rcases h with ⟨rfl, h⟩ | ⟨rfl, h⟩ | ⟨rfl, h⟩
  · exact ⟨_, h, exec_mma ..⟩
  · exact ⟨_, h, exec_dmm ..⟩
  · exact ⟨_, h, exec_conv ..⟩

/-- Settles O24, by what a starting row answers in each case and what the placing of items leaves alone. -/
theorem arrayCommandsPlaceTheirTiles : Obligations.ArrayCommandsPlaceTheirTiles := by
  unfold Obligations.ArrayCommandsPlaceTheirTiles
  intro q n s j c hquiet hstart hc
  obtain ⟨op, ⟨hj, hop⟩, hexec⟩ := exec_array hc
  obtain ⟨hq, hn⟩ := job_names _ _ _ _ hj
  have hcas : (s.served j).cas = s.cas := by rw [served_eq]
  rw [hexec]
  refine ⟨fun b hb => ?_, fun o ho hred hw => ?_, fun o ho hw => ?_⟩
  · rw [arrayRow, startRow_error _ _ _ _ j b _ _ hj hop hstart hb]
  · rw [arrayRow, startRow_ok _ _ _ _ j o _ _ hj hop hstart ho, runArray, hred, bucketWaits, hcas]
    rw [bucketWaits] at hw
    rw [hw]
    rfl
  · intro s1 hat s0 hbad htiles
    have hoff : s1.mon.trOn = false := (congrArg (fun t : State => t.mon.trOn) (served_eq s j)).trans hquiet.1
    have hrun := runArray_atHand (s := s1) hoff
      (by rw [served_job, hq, hn]; exact hj) (fun h => by simpa only [bucketWaits, s1, hcas] using hw h) hat hbad htiles
    rw [arrayRow, startRow_ok _ _ _ _ j o _ _ hj hop hstart ho, hrun]
    have hp : Places ((opened s1 j o).setJob (withTiles j o.tiles (opened s1 j o).cas.attempt))
        (placedItems ((opened s1 j o).setJob (withTiles j o.tiles (opened s1 j o).cas.attempt)) j o) := foldl_places (fun s x => placeItem_places s _ _) _ _
    have hcores : ∀ k, s0.core k = s.core k := by
      obtain ⟨a, b, c, hop⟩ := opened_eq s1 j o
      intro k
      exact (congrArg (fun t : State => t.core k) hop).trans (served_core s j k)
    have hjobs : (placedItems ((opened s1 j o).setJob (withTiles j o.tiles (opened s1 j o).cas.attempt)) j o).jobs =
        ((opened s1 j o).setJob (withTiles j o.tiles (opened s1 j o).cas.attempt)).jobs := by rw [hp.frame]
    refine ⟨_, rfl, hjobs, fun x hx => ?_, fun k => ⟨(hp.runs k).trans ?_, (hp.saves k).trans ?_⟩, ?_⟩
    · exact foldl_placeItem_mem (fun x => x % Config.cores) (fun x => ⟨j.q, j.n, x, true⟩) _ _ hx
    · exact congrArg Core.run (hcores k)
    · exact congrArg Core.saved (hcores k)
    · conv => lhs; rw [hp.frame]
      rw [hjobs]
      rfl

end Sys2Proof.Proofs
end

section
set_option Elab.async false
/-! The commands whose tiles are computed when they start: their rows, and how each case ends (13 R403, R425, R440). -/
namespace Sys2Proof.Proofs
open Sys2Proof Sys2Proof.Machine Sys2Proof.Laws Sys2Proof.Safety

variable {q : BitVec 6} {n : BitVec 16} {s : State} {j : Job} {c : Instr} {op : Nat}

theorem exec_vec (q : BitVec 6) (n : BitVec 16) (s : State) : exec (.vec q n) s = .next (vecRow q n s) := rfl
theorem exec_sfn (q : BitVec 6) (n : BitVec 16) (s : State) : exec (.sfn q n) s = .next (sfnRow q n s) := rfl
theorem exec_norm (q : BitVec 6) (n : BitVec 16) (s : State) : exec (.norm q n) s = .next (normRow q n s) := rfl
theorem exec_smax (q : BitVec 6) (n : BitVec 16) (s : State) : exec (.smax q n) s = .next (smaxRow q n s) := rfl
theorem exec_topk (q : BitVec 6) (n : BitVec 16) (s : State) : exec (.topk q n) s = .next (topkRow q n s) := rfl
theorem exec_copy (q : BitVec 6) (n : BitVec 16) (s : State) : exec (.copy q n) s = .next (copyRow q n s) := rfl
theorem exec_fill (q : BitVec 6) (n : BitVec 16) (s : State) : exec (.fill q n) s = .next (fillRow q n s) := rfl
theorem exec_scan (q : BitVec 6) (n : BitVec 16) (s : State) : exec (.scan q n) s = .next (scanRow q n s) := rfl

/-- The checks of a command. -/
abbrev Checks := State → Ctx → List Byte → Except Bad Prep

/-- What a command without a sequence checks and runs: the row of the five commands of the vector and special function units. -/
def plainRow (op : Nat) (prep : Checks) (q : BitVec 6) (n : BitVec 16) (s : State) : State :=
  startRow op q.toNat n.toNat s (fun s j => prep s j.ctx j.cmd) (fun s j p => runPrep s j j.ctx p)

/-- The row of COPY and FILL. -/
def seqRow (op : Nat) (prep : Checks) (q : BitVec 6) (n : BitVec 16) (s : State) : State :=
  startRow op q.toNat n.toNat s (fun s j => prep s (seqCtx j) j.cmd) runSeqCopy

/-- A command of the vector and special function units whose checks end as `r` says. -/
theorem exec_plain {x : Ctx} {cmd : List Byte} {r : Except Bad Prep}
    (h : (c = .vec q n ∧ op = 0x10 ∧ prepVec s x cmd = r) ∨ (c = .sfn q n ∧ op = 0x11 ∧ prepSfn s x cmd = r) ∨
      (c = .norm q n ∧ op = 0x12 ∧ prepNorm s x cmd = r) ∨ (c = .smax q n ∧ op = 0x13 ∧ prepSmax s x cmd = r) ∨
      (c = .topk q n ∧ op = 0x14 ∧ prepTopk s x cmd = r)) :
    ∃ prep : Checks, exec c s = .next (plainRow op prep q n s) ∧ prep s x cmd = r := by
  rcases h with ⟨rfl, rfl, h⟩ | ⟨rfl, rfl, h⟩ | ⟨rfl, rfl, h⟩ | ⟨rfl, rfl, h⟩ | ⟨rfl, rfl, h⟩
  · exact ⟨prepVec, exec_vec .., h⟩
  · exact ⟨prepSfn, exec_sfn .., h⟩
  · exact ⟨prepNorm, exec_norm .., h⟩
  · exact ⟨prepSmax, exec_smax .., h⟩
  · exact ⟨prepTopk, exec_topk .., h⟩

/-- A COPY or FILL whose checks end as `r` says. -/
theorem exec_seq {x : Ctx} {cmd : List Byte} {r : Except Bad Prep}
    (h : (c = .copy q n ∧ op = 0x18 ∧ prepCopy s x cmd = r) ∨ (c = .fill q n ∧ op = 0x19 ∧ prepFill s x cmd = r)) :
    ∃ prep : Checks, exec c s = .next (seqRow op prep q n s) ∧ prep s x cmd = r := by
  rcases h with ⟨rfl, rfl, h⟩ | ⟨rfl, rfl, h⟩
  · exact ⟨prepCopy, exec_copy .., h⟩
  · exact ⟨prepFill, exec_fill .., h⟩

theorem job_taken (h : Taken s q n op j) : s.job j.q j.n = some j := by
  obtain ⟨hq, hn⟩ := job_names _ _ _ _ h.1
  rw [hq, hn]
  exact h.1

theorem vec_plain {k : Job} (h : k.op = 0x10) : k.plain = true := by simp [Job.plain, h]

theorem untouched_of {k : Job} (ha : k.ask = none) (ht : k.tagWait = false) (hr : s.pg.rises = []) : k.untouched s = true := by
  simp [Job.untouched, ha, ht, hr]

/-- A VEC that comes behind a ready one is not placed. -/
theorem outranked_vec {k : Job} (hop : j.op = 0x10) (ha : j.ask = none) (ht : j.tagWait = false) (hk : k ∈ s.jobs) (hkop : k.op = 0x10)
    (hkm : MayStart s k) (hka : k.ask = none) (hkt : k.tagWait = false) (hr : s.pg.rises = []) (hfirst : comesFirst s k j = true) :
    outranked s j = true := by
  have hplaces : j.places = true := by rw [Job.places, vec_plain hop, Bool.true_or]
  rw [outranked, hplaces, untouched_of ha ht hr, Bool.true_and, Bool.true_and, List.any_eq_true]
  refine ⟨k, hk, ?_⟩
  rw [hfirst, vec_plain hkop, untouched_of hka hkt hr, show mayStart s k = true from hkm]
  rfl

theorem placeTiles_places (s : State) (q n : Nat) (ts : List Tile) : Places s (placeTiles s q n ts) :=
  foldl_places (fun s _ => foldl_places (fun s _ => placeItem_places s _ _) _ s) _ _

/-- A command that runs with the tiles `tiles`. -/
def running (j : Job) (tiles : List Tile) (fail : Option (Nat × Nat × Nat)) : Job := { j.run tiles with fail := fail }

/-- With a tile to commit, a command starts by the placing of its items. -/
theorem runTiles_starts (hoff : s.mon.trOn = false) (hj : s.job j.q j.n = some j) {tiles : List Tile} (ht : tiles ≠ [])
    (fail : Option (Nat × Nat × Nat)) : runTiles s j tiles fail = placeTiles (s.setJob (running j tiles fail)) j.q j.n tiles := by
  have hjob : (placeTiles (s.setJob (running j tiles fail)) j.q j.n tiles).job j.q j.n = some (running j tiles fail) := by
    rw [(placeTiles_places ..).frame]
    exact job_setJob s _ _ j _ hj rfl rfl rfl
  have hlen : tiles.length ≠ 0 := by simpa using ht
  rw [runTiles, trace_off]
  · exact settle_unfinished hjob (by simp only [running, Job.run]; omega)
  · exact hoff

/-- A command with its operands at hand runs its program. -/
theorem runPrep_starts {x : Ctx} {p : Prep} (hoff : s.mon.trOn = false) (hj : s.job j.q j.n = some j) (hat : AtHand s j x p.parts)
    (ht : (p.run s).1 ≠ []) :
    runPrep s j x p = placeTiles (s.setJob (running j (p.run s).1 (p.run s).2)) j.q j.n (p.run s).1 := by
  rw [runPrep, withOperands_atHand _ _ _ _ _ _ hj hat]
  exact runTiles_starts hoff hj ht _

/-- `j` with the note of the sequence that it works on. -/
def working (j : Job) (w : List Nat) : Job := { j with work := w }

theorem job_working (hj : s.job j.q j.n = some j) (w : List Nat) : ((s.served j).setJob (working j w)).job j.q j.n = some (working j w) :=
  job_setJob _ _ _ j _ (by rw [served_job]; exact hj) rfl rfl rfl

theorem served_mon (s : State) (j : Job) : (s.served j).mon = s.mon := by rw [served_eq]

theorem seqStill_served (s : State) (x : Ctx) (j : Job) : seqStill (s.served j) x = seqStill s x := by
  rw [served_eq]
  rfl

/-- What a COPY or FILL notes of the sequence that its output belongs to. -/
def seqWork (s : State) (x : Ctx) (dst : Tensor) : List Nat :=
  match x.sid with
  | some sid => if dst.space = 2 then [sid, b2n (dst.addr == 0 && decide (stateSize s x ≤ dst.dense))] else []
  | none => []

/-- The same note, as the row finds it. -/
def seqNote (s : State) (x : Ctx) (p : Prep) : List Nat :=
  let dst := p.outs.headD ⟨.fp32, 0, 0, false, 0, false, 0, 0, 0, 1, 1, 1, 1, [], 0, false⟩
  let whole := dst.addr == 0 && decide (stateSize s x ≤ dst.dense)
  match x.sid with | some sid => if dst.space == 2 then [sid, b2n whole] else [] | none => []

theorem seqNote_eq {x : Ctx} {p : Prep} {dst : Tensor} (hd : p.outs.head? = some dst) : seqNote s x p = seqWork s x dst := by
  have hdst : ∀ d, p.outs.headD d = dst := fun d => by rw [List.headD_eq_head?_getD, hd]; rfl
  unfold seqNote seqWork
  simp only [hdst, beq_iff_eq]

theorem runSeqCopy_eq (s : State) (j : Job) (p : Prep) : runSeqCopy s j p =
    if !seqStill s (seqCtx j) then s
    else runPrep (s.setJob (working j (seqNote s (seqCtx j) p))) (working j (seqNote s (seqCtx j) p)) (seqCtx j) p := rfl

theorem runSeqCopy_still {p : Prep} {dst : Tensor} (hs : seqStill s (seqCtx j) = true) (hd : p.outs.head? = some dst) :
    runSeqCopy s j p = runPrep (s.setJob (working j (seqWork s (seqCtx j) dst))) (working j (seqWork s (seqCtx j) dst)) (seqCtx j) p := by
  rw [runSeqCopy_eq, hs, seqNote_eq hd]
  rfl

theorem scanCtx_unbound (h : bit (j.body 0x10) 52 = false) : (scanCtx j).sid = none := by simp [scanCtx, h]

/-- A SCAN without a sequence prepares its operands at once. -/
theorem runScan_unbound {o : ScanOp} (h : bit (j.body 0x10) 52 = false) (hj : s.job j.q j.n = some j) :
    runScan s j o = withOperands (s.setJob (working j [])) (working j []) (scanCtx j) o.ins o.parts fun s k =>
      if o.chunked then startChunks s k o else runTiles s k (seqTiles (scanCtx j) o s).1 (seqTiles (scanCtx j) o s).2 := by
  unfold runScan
  simp only [scanCtx_unbound h, Bool.not_true, Bool.false_eq_true, if_false, withJob_some _ _ _ _ _ hj]
  rfl

/-- A read as it is taken: with its generation, its limit and its place in the order. -/
def tookTag (s : State) (key : Nat) (t : Tag) : Tag :=
  { t with
    gen := (s.str.gens.get key 0 + 1) % 4
    due := s.life.lt + max s.str.timeout 1000
    seq := s.str.order
    asked := s.life.lt }

/-- `s` with the tag `key` taken for `t`. -/
def withTag (s : State) (key : Nat) (t : Tag) : State :=
  { s with str := { s.str with
    tags := s.str.tags.put key (tookTag s key t)
    gens := s.str.gens.put key ((s.str.gens.get key 0 + 1) % 4)
    order := s.str.order + 1 } }

theorem takeTag_free {core k : Nat} (t : Tag) (h : freeTag s core = some k) :
    takeTag s core t = some (sendTag (withTag s (tagKey core k) t) (tagKey core k)) := by
  rw [takeTag, h]
  rfl

/-- A read of a stream port goes out when the port has a request credit. -/
theorem sendTag_read {key p : Nat} {t : Tag} (hf : s.str.tags.find key = some t) (hs : t.sent = false) (hw : t.write = false)
    (hc : t.chan = .port p) :
    ∃ str, sendTag s key = { s with str := str } ∧
      str.tags.find key = some { t with sent := decide (s.str.portReq.get p 0 ≠ 0) } := by
  unfold sendTag
  simp only [hf, hs, hw, hc, Bool.false_eq_true, if_false, Bool.false_and, Bool.or_false, beq_iff_eq]
  by_cases h : s.str.portReq.get p 0 = 0
  · refine ⟨s.str, by rw [if_pos h], ?_⟩
    rw [hf]
    obtain ⟨_⟩ := t
    simp_all
  · refine ⟨_, by rw [if_neg h], ?_⟩
    rw [find_put_self]
    simp [h]

/-- The read that asks for one piece of a command's operands. -/
def pieceTag (j : Job) (p : Piece) : Tag :=
  { (readTag (.port (fld p.addr 8 2)) p.addr p.len (.fetch j.q j.n p.unit)).ranked (if j.phase == .running then 0 else 1) j with
    stage := p.stage }

theorem askPieces_local {p : Piece} {k : Nat} (hb : bit p.addr 47 = false) (hk : freeTag s p.core = some k) :
    askPieces s j [p] = (sendTag (withTag s (tagKey p.core k) (pieceTag j p)) (tagKey p.core k), []) := by
  have hreach : reach s p.addr p.len = .here p.addr := by simp [reach, hb]
  simp only [askPieces, hreach]
  rw [takeTag_free _ hk]
  rfl

/-- `j` with its pieces asked for, those of `l` still to be issued. -/
def asking (j : Job) (parts l : List Piece) : Job := { j with ask := some l, parts := parts, ahead := false }

theorem find_some_mem {α : Type} {t : Tab α} {k : Nat} {a : α} (h : t.find k = some a) : (k, a) ∈ t := by
  induction t with
  | nil => simp [Tab.find] at h
  | cons p t ih =>
    obtain ⟨i, b⟩ := p
    rw [Tab.find] at h
    split at h
    · rename_i e
      rw [e, Option.some.inj h]
      exact List.mem_cons_self
    · exact List.mem_cons_of_mem _ (ih h)

/-- The one transfer of a command's operands takes a tag. -/
theorem fetchAll_one {l : Unit → List Piece} {p : Piece} {k : Nat} (hj : s.job j.q j.n = some j) (ha : j.ask = none) (hp : j.parts = [])
    (hl : l () = [p]) (hb : bit p.addr 47 = false) (hk : freeTag s p.core = some k) :
    ∃ t, fetchAll s j l = (false, t) ∧ t = { s with jobs := (s.setJob (asking j [p] [])).jobs, str := t.str } ∧
      t.str.tags.find (tagKey p.core k) = some { tookTag s (tagKey p.core k) (pieceTag j p) with
        sent := decide (s.str.portReq.get (fld p.addr 8 2) 0 ≠ 0) } := by
  have hjob : (s.setJob (asking j [p] [p])).job j.q j.n = some (asking j [p] [p]) := job_setJob s _ _ j _ hj rfl rfl rfl
  obtain ⟨str, hstr, hfind⟩ := sendTag_read (s := withTag (s.setJob (asking j [p] [p])) (tagKey p.core k) (pieceTag (asking j [p] [p]) p))
    (key := tagKey p.core k) (t := tookTag s (tagKey p.core k) (pieceTag j p)) (find_put_self ..) rfl rfl rfl
  have hissue : issueReads (s.setJob (asking j [p] [p])) j.q j.n =
      { s.setJob (asking j [p] []) with str := str } := by
    rw [issueReads, withJob_some _ _ _ _ _ hjob]
    have hk' : freeTag (s.setJob (asking j [p] [p])) p.core = some k := hk
    have hask := askPieces_local (j := asking j [p] [p]) hb hk'
    rw [hstr] at hask
    change (askPieces _ (asking j [p] [p]) [p]).1.withJob _ _ (fun s k => s.setJob { k with ask := some (askPieces _ (asking j [p] [p]) [p]).2 }) = _
    rw [hask]
    have hjob' : ({ withTag (s.setJob (asking j [p] [p])) (tagKey p.core k) (pieceTag (asking j [p] [p]) p) with str := str }).job j.q j.n =
      some (asking j [p] [p]) := hjob
    refine (withJob_some _ _ _ _ _ hjob').trans ?_
    exact congrArg (fun t : State => { t with str := str }) (setJob_setJob s (j := asking j [p] [p]) (k := asking j [p] []) rfl)
  have hstart : fetchAll s j l = ((match (issueReads (s.setJob (asking j [p] [p])) j.q j.n).job j.q j.n with
      | some j => (j.ask.getD []).isEmpty | none => false) && !fetching (issueReads (s.setJob (asking j [p] [p])) j.q j.n) j.q j.n,
      issueReads (s.setJob (asking j [p] [p])) j.q j.n) := by
    unfold fetchAll
    simp only [ha, hl, hp]
    rfl
  have hfetching : fetching { s.setJob (asking j [p] []) with str := str } j.q j.n = true := by
    rw [fetching, List.any_eq_true]
    exact ⟨_, find_some_mem hfind, by simp [TagFor.reads, tookTag, pieceTag, readTag, Tag.ranked]⟩
  refine ⟨_, by rw [hstart, hissue, hfetching, Bool.not_true, Bool.and_false], rfl, hfind⟩

/-- A command whose one transfer has not been made takes a tag for it and stays. -/
theorem withOperands_one {x : Ctx} {ins : List Tensor} {ps : List Part} {go : State → Job → State} {p : Piece} {k : Nat}
    (hj : s.job j.q j.n = some j) (ht : touchParts s j x ps = (true, s)) (ha : j.ask = none) (hp : j.parts = [])
    (hl : (ps.flatMap fun v => v.pieces s x) = [p]) (hb : bit p.addr 47 = false) (hk : freeTag s p.core = some k) :
    ∃ t, withOperands s j x ins ps go = t ∧ t = { s with jobs := (s.setJob (asking j [p] [])).jobs, str := t.str } ∧
      t.str.tags.find (tagKey p.core k) = some { tookTag s (tagKey p.core k) (pieceTag j p) with
        sent := decide (s.str.portReq.get (fld p.addr 8 2) 0 ≠ 0) } := by
  obtain ⟨t, hfetch, h⟩ := fetchAll_one (l := fun _ => ps.flatMap fun v => v.pieces s x) hj ha hp hl hb hk
  refine ⟨t, ?_, h⟩
  simp [withOperands, ht, hj, hfetch]

theorem viol_traceless (s : State) (cmd cause detail aux : Nat) (h : s.mon.trOn = false) :
    viol s cmd cause detail aux = { s with flt := (viol s cmd cause detail aux).flt, evt := (viol s cmd cause detail aux).evt } := by
  have ht := viol_traceOff s cmd cause detail aux h
  conv => lhs; rw [viol_eq, ht.1, ht.2]

/-- A command that is rejected for the first time ends MALFORMED, with one entry in the log. -/
theorem reject_ends (hj : s.job j.q j.n = some j) (hl : j.vlogged = false) (ht : s.mon.trOn = false) (cause detail aux : Nat) :
    ∃ x, (reject s j cause detail aux).job j.q j.n = some x ∧ x.phase = .done ∧ x.fl = 0 ∧ x.idx = none ∧ x.tiles = [] ∧
      x.wq = j.wq ∧ statusRank x.status = 0 ∧
      (reject s j cause detail aux).flt.vlog.find s.flt.vnext =
        some ⟨j.loc, cause + (detail % 2 ^ 24) <<< 8, aux % 2 ^ 32, s.life.lt % 2 ^ 32⟩ ∧
      reject s j cause detail aux = { s with
        jobs := (reject s j cause detail aux).jobs
        flt := (reject s j cause detail aux).flt
        evt := (reject s j cause detail aux).evt } := by
  have hviol := viol_traceless s j.loc cause detail aux ht
  rw [reject_fresh hl]
  have hsame : (rejected j).take = j.take ∧ (rejected j).q = j.q ∧ (rejected j).n = j.n ∧ (rejected j).fl = 0 ∧ (rejected j).idx = none ∧
      (rejected j).wq = j.wq := by
    simp only [rejected, Job.mark, Job.end]
    split <;> exact ⟨rfl, rfl, rfl, rfl, rfl, rfl⟩
  obtain ⟨htake, hq, hn, hfl, hidx, hwq⟩ := hsame
  refine ⟨rejected j, job_setJob _ _ _ j _ (by rw [hviol]; exact hj) htake hq hn, rfl, hfl, hidx, rfl, hwq, ?_, ?_, ?_⟩
  · simp only [rejected, Job.mark, Job.end]
    split
    · rfl
    · rename_i h
      exact Nat.le_zero.1 (Nat.not_lt.1 h)
  · rw [setJob_flt, viol_flt]
    exact find_put_self ..
  · have hjobs : (viol s j.loc cause detail aux).jobs = s.jobs := by rw [hviol]
    conv => lhs; rw [hviol]
    rw [setJob_jobs, hjobs]
    rfl

/-- Settles O25, by what a starting row answers in each case and what the placing of items leaves alone. -/
theorem tiledCommandsRunOrAreRejected : Obligations.TiledCommandsRunOrAreRejected := by
  unfold Obligations.TiledCommandsRunOrAreRejected
  refine ⟨?_, ?_, ?_, ?_⟩
  · intro q n s j k ht ha htag hk hkop hkm hka hkt hr hfirst
    have hcomes : comesFirst s k j = true := by
      rcases hfirst with h | h | h <;> simp [comesFirst, h]
    have hout := outranked_vec ht.2 ha htag hk hkop hkm hka hkt hr hcomes
    rw [exec_vec, vecRow, startRow_stays]
    intro j' hj'
    obtain rfl : j = j' := Option.some.inj (ht.1.symm.trans hj')
    exact Or.inr (by simp [mayRun, hout])
  · intro q n s s1 j c op x ps run w hquiet hstart ht hcase hat r hr
    have hj := job_taken ht
    obtain ⟨hq, hn⟩ := job_names _ _ _ _ ht.1
    have hoff : (s.served j).mon.trOn = false := by rw [served_mon]; exact hquiet.1
    have hjob := job_working hj w
    rw [← hq, ← hn]
    rcases hcase with ⟨p, rfl, rfl, hcase⟩ | ⟨o, rfl, rfl, rfl, hb, hchk, hch, rfl, rfl, rfl, rfl⟩
    · rcases hcase with ⟨rfl, rfl, rfl, hcase⟩ | ⟨rfl, hstill, rfl, ⟨dst, hdst, hw⟩, hcase⟩
      · obtain ⟨prep, hexec, hprep⟩ := exec_plain hcase
        rw [hexec, plainRow, startRow_ok _ _ _ _ j p _ _ ht.1 ht.2 hstart hprep]
        exact congrArg _ (runPrep_starts hoff (by rw [served_job]; exact hj) hat hr)
      · obtain ⟨prep, hexec, hprep⟩ := exec_seq hcase
        have hnote : seqWork (s.served j) (seqCtx j) dst = w := by
          rw [hw, served_eq]
          rfl
        rw [hexec, seqRow, startRow_ok _ _ _ _ j p _ _ ht.1 ht.2 hstart hprep,
          runSeqCopy_still (by rw [seqStill_served]; exact hstill) hdst, hnote]
        exact congrArg _ (runPrep_starts hoff hjob hat hr)
    · rw [exec_scan, scanRow, startRow_ok _ _ _ _ j o _ _ ht.1 ht.2 hstart hchk, runScan_unbound hb (by rw [served_job]; exact hj),
        withOperands_atHand ((s.served j).setJob (working j [])) (working j []) (scanCtx j) _ _ _ hjob hat, hch, if_neg Bool.false_ne_true]
      exact congrArg _ (runTiles_starts (s := (s.served j).setJob (working j [])) (j := working j []) hoff hjob hr _)
  · intro q n s j c op p u core a len k stage hstart ht hcase s1 htouch ha hp hl hb hk port
    obtain ⟨prep, hexec, hprep⟩ := exec_plain hcase
    obtain ⟨hq, hn⟩ := job_names _ _ _ _ ht.1
    have hs1 : s1 = { s with turns := s1.turns } := served_eq s j
    have hfree : freeTag s1 core = some k := by rw [hs1]; exact hk
    obtain ⟨t, hrun, hframe, hfind⟩ := withOperands_one (s := s1) (ins := p.ins) (go := fun s j => runTiles s j (p.run s).1 (p.run s).2)
      (by rw [served_job]; exact job_taken ht) htouch ha hp hl hb hfree
    rw [hexec, plainRow, startRow_ok _ _ _ _ j p _ _ ht.1 ht.2 hstart hprep, runPrep]
    have hjobs : t.jobs = (s.setJob (asking j [⟨u, core, a, len, stage⟩] [])).jobs := by
      rw [hframe, hs1]
      rfl
    refine ⟨t, _, congrArg _ hrun, hfind, rfl, rfl, rfl, rfl, rfl, ?_, ?_, hjobs, ?_⟩
    · rw [hs1]; rfl
    · rw [hs1]
    · conv => lhs; rw [hframe]
      rw [hframe]
  · intro q n s j c op b hstart ht hv hoff hcase
    obtain ⟨hq, hn⟩ := job_names _ _ _ _ ht.1
    have hexec : exec c s = .next (reject s j b.cause b.detail b.aux) := by
      rcases hcase with ⟨rfl, rfl, h⟩ | ⟨rfl, rfl, h⟩ | ⟨rfl, rfl, h⟩ | ⟨rfl, rfl, h⟩ | ⟨rfl, rfl, h⟩ | ⟨rfl, rfl, h⟩ | ⟨rfl, rfl, h⟩ |
          ⟨rfl, rfl, h⟩ <;>
        exact congrArg Host.Outcome.next (startRow_error _ _ _ _ j b _ _ ht.1 ht.2 hstart h)
    obtain ⟨x, hx, h⟩ := reject_ends (job_taken ht) hv hoff b.cause b.detail b.aux
    rw [hq, hn] at hx
    exact ⟨_, x, hexec, hx, h⟩

end Sys2Proof.Proofs
end

section
set_option Elab.async false
/-! What the streams and the moves of pages leave alone, when transfers that wait take tags (12 R378; 10 R320). -/
namespace Sys2Proof.Proofs
open Sys2Proof Sys2Proof.Machine Sys2Proof.Laws Sys2Proof.Safety

/-- The command `k` is `j` but for its transfers and what has landed of them. -/
def Like (j k : Job) : Prop :=
  k = { j with wq := k.wq, ask := k.ask, fetched := k.fetched, poison := k.poison, riseDry := k.riseDry }

theorem Like.refl (j : Job) : Like j j := rfl

theorem Like.trans {j k l : Job} (h : Like j k) (h' : Like k l) : Like j l := by
  rw [Like, h', h]

theorem Like.take {j k : Job} (h : Like j k) : k.take = j.take := by rw [h]
theorem Like.q {j k : Job} (h : Like j k) : k.q = j.q := by rw [h]
theorem Like.n {j k : Job} (h : Like j k) : k.n = j.n := by rw [h]

/-- `j` is the command that `q` and `n` name, and no other has its take number. -/
def Sole (s : State) (q n : Nat) (j : Job) : Prop := s.job q n = some j ∧ ∀ x ∈ s.jobs, x.take = j.take → x = j

/-- What the streams and the moves of pages may do to a state: to the memories, the tags, the log, the messages, the page records, and of a
command to its transfers alone. -/
structure Stirs (a s : State) : Prop where
  rest : s = { a with
    jobs := s.jobs, str := s.str, t0 := s.t0, t1 := s.t1, shelf := s.shelf, flt := s.flt, evt := s.evt, mon := s.mon, sent := s.sent
    cas := s.cas, pg := s.pg, tier := s.tier, fresh := s.fresh }
  job : ∀ q n j, Sole a q n j → ∃ k, Sole s q n k ∧ Like j k

theorem Stirs.refl (a : State) : Stirs a a := ⟨rfl, fun _ _ j h => ⟨j, h, .refl j⟩⟩

theorem Stirs.trans {a b c : State} (h : Stirs a b) (k : Stirs b c) : Stirs a c where
  rest := by rw [k.rest, h.rest]
  job q n j hj := by
    obtain ⟨j', hj', hl⟩ := h.job q n j hj
    obtain ⟨j'', hj'', hl'⟩ := k.job q n j' hj'
    exact ⟨j'', hj'', hl.trans hl'⟩

variable {a s t : State}

/-- An update of what the streams own. -/
theorem Stirs.frame {str t0 t1 shelf flt evt mon sent cas pg tier fresh} (h : Stirs a s) :
    Stirs a { s with
      str := str, t0 := t0, t1 := t1, shelf := shelf, flt := flt, evt := evt, mon := mon, sent := sent, cas := cas, pg := pg, tier := tier
      fresh := fresh } :=
  h.trans ⟨rfl, fun _ _ j hj => ⟨j, hj, .refl j⟩⟩

theorem stirs_ite {c : Prop} [Decidable c] (hs : Stirs a s) (ht : Stirs a t) : Stirs a (if c then s else t) := by
  split
  · exact hs
  · exact ht

theorem stirs_foldl {β : Type} {f : State → β → State} {l : List β} (hf : ∀ s x, Stirs a s → Stirs a (f s x)) (h : Stirs a s) :
    Stirs a (l.foldl f s) := by
  induction l generalizing s with
  | nil => exact h
  | cons x l ih => exact ih (hf s x h)

/-- A change of a command that another number names leaves the command. -/
theorem job_setJob_other {q n : Nat} {j k k' : Job} (hj : s.job q n = some j) (hk : s.job k.q k.n = some k) (hne : k.take ≠ j.take)
    (ht : k'.take = k.take) (hq : k'.q = k.q) (hn : k'.n = k.n) : (s.setJob k').job q n = some j := by
  have hname : (k'.q == q && k'.n == n) = false := by
    refine Classical.byContradiction fun h => ?_
    simp only [Bool.not_eq_false, Bool.and_eq_true, beq_iff_eq] at h
    rw [hq, hn] at h
    rw [h.1, h.2, hj] at hk
    exact hne (congrArg Job.take (Option.some.inj hk)).symm
  rw [← ht] at hne
  unfold State.job at hj ⊢
  rw [setJob_jobs]
  generalize s.jobs = l at hj
  induction l with
  | nil => cases hj
  | cons x l ih =>
    rw [List.map_cons, List.find?_cons]
    rw [List.find?_cons] at hj
    by_cases hx : (x.take == k'.take) = true
    · rw [if_pos hx, hname]
      cases hxn : (x.q == q && x.n == n) with
      | true =>
        rw [hxn] at hj
        obtain rfl : x = j := Option.some.inj hj
        exact absurd (beq_iff_eq.1 hx).symm hne
      | false =>
        rw [hxn] at hj
        exact ih hj
    · rw [if_neg hx]
      cases hxn : (x.q == q && x.n == n) with
      | true =>
        rw [hxn] at hj
        exact hj
      | false =>
        rw [hxn] at hj
        exact ih hj

/-- A change of a command's transfers. -/
theorem Stirs.setJob {k k' : Job} (h : Stirs a s) (hk : s.job k.q k.n = some k) (hl : Like k k') : Stirs a (s.setJob k') := by
  refine h.trans ⟨rfl, fun q n j hj => ?_⟩
  by_cases ht : k.take = j.take
  · obtain rfl : k = j := hj.2 k (job_mem hk).1 ht
    obtain ⟨hq, hn⟩ := job_names _ _ _ _ hj.1
    refine ⟨k', ⟨Laws.job_setJob _ _ _ k _ hj.1 hl.take (hl.q.trans hq) (hl.n.trans hn), fun x hx hxt => ?_⟩, hl⟩
    obtain ⟨y, -, rfl⟩ := List.mem_map.1 hx
    split at hxt <;> rename_i hy
    · rw [if_pos hy]
    · exact absurd (beq_iff_eq.2 hxt) hy
  · refine ⟨j, ⟨job_setJob_other hj.1 hk ht hl.take hl.q hl.n, fun x hx hxt => ?_⟩, .refl j⟩
    obtain ⟨y, hy, rfl⟩ := List.mem_map.1 hx
    split at hxt <;> rename_i hyt
    · exact absurd (hl.take.symm.trans hxt) ht
    · rw [if_neg hyt]
      exact hj.2 y hy hxt

theorem Stirs.withJob {q n : Nat} {f : State → Job → State} (h : Stirs a s)
    (hf : ∀ s j, Stirs a s → s.job j.q j.n = some j → Stirs a (f s j)) : Stirs a (s.withJob q n f) := by
  unfold State.withJob
  split
  · exact h
  · rename_i j hj
    refine hf s j h ?_
    obtain ⟨hq, hn⟩ := job_names _ _ _ _ hj
    rw [hq, hn]
    exact hj

theorem viol_stirs {cmd cause detail aux : Nat} (h : Stirs a s) : Stirs a (viol s cmd cause detail aux) := by
  rw [viol_eq]
  exact h.frame

theorem count_stirs {core slot d : Nat} (h : Stirs a s) : Stirs a (count s core slot d) := by
  rw [count_eq]
  exact h.frame

theorem sendMsg_stirs {dry : Nat} {m : Msg} (h : Stirs a s) : Stirs a (sendMsg s dry m) := by
  rw [sendMsg_eq]
  exact h.frame

theorem sendTag_stirs {key : Nat} (h : Stirs a s) : Stirs a (sendTag s key) := by
  unfold sendTag
  split
  · exact h
  · refine stirs_ite h ?_
    dsimp only
    split
    · exact stirs_ite h h.frame
    · exact stirs_ite h h.frame
    · exact sendMsg_stirs h.frame

theorem takeTag_stirs {core : Nat} {t' : Tag} (h : Stirs a s) (e : takeTag s core t' = some t) : Stirs a t := by
  unfold takeTag at e
  split at e
  · cases e
  · cases e
    exact sendTag_stirs h.frame

theorem loseWrite_stirs {core tag : Nat} {t' : Tag} (h : Stirs a s) : Stirs a (loseWrite s core tag t') := by
  rw [loseWrite_eq]
  have hcount : Stirs a (countLost (viol s (lostBy s t') 0x0B core tag) t') := by
    unfold countLost
    split
    · exact Stirs.withJob (viol_stirs h) fun s j h hj => h.setJob hj rfl
    · exact viol_stirs h
  unfold openBytes
  split
  · cases t'.chan <;> exact hcount.frame
  · exact hcount

theorem issueOne_stirs {j : Job} (h : Stirs a s) (hj : s.job j.q j.n = some j) (e : issueOne s j = some t) : Stirs a t := by
  unfold issueOne at e
  dsimp only at e
  have hset : ∀ w, Stirs a (s.setJob { j with wq := w }) := fun w => h.setJob hj rfl
  split at e
  · cases e
  · split at e
    · exact takeTag_stirs (hset _) e
    · exact takeTag_stirs (hset _) e
    · cases e
      exact loseWrite_stirs (hset _)

theorem issueWrites_stirs {k q n : Nat} (h : Stirs a s) : Stirs a (issueWrites k s q n) := by
  induction k generalizing s with
  | zero => exact h
  | succ k ih =>
    unfold issueWrites
    split
    · exact h
    · rename_i j hj
      split
      · exact h
      · rename_i e
        obtain ⟨hq, hn⟩ := job_names _ _ _ _ hj
        exact ih (issueOne_stirs h (by rw [hq, hn]; exact hj) e)

theorem landUnit_stirs {core : Nat} {t' : Tag} {u : Nat × Bool × List Byte} (h : Stirs a s) : Stirs a (landUnit core t' s u) := by
  have hcount : Stirs a (if u.2.1 then count s core 11 1 else s) := stirs_ite (count_stirs h) h
  unfold landUnit
  dsimp only
  split
  · exact Stirs.withJob hcount.frame fun s j h hj => h.setJob hj rfl
  · exact hcount.frame
  · exact count_stirs h
  · exact h

theorem askPieces_stirs {j : Job} {l : List Piece} (h : Stirs a s) : Stirs a (askPieces s j l).1 := by
  induction l generalizing s with
  | nil => exact h
  | cons p ps ih =>
    unfold askPieces
    dsimp only
    split
    · split
      · exact h
      · rename_i e
        exact ih (takeTag_stirs h e)
    · split
      · exact h
      · rename_i e
        exact ih (takeTag_stirs h e)
    · exact ih (stirs_foldl (fun _ _ h => landUnit_stirs h) h)

theorem issueReads_stirs {q n : Nat} (h : Stirs a s) : Stirs a (issueReads s q n) := by
  unfold issueReads
  refine Stirs.withJob h fun s j h _ => ?_
  split
  · exact Stirs.withJob (askPieces_stirs h) fun s j h hj => h.setJob hj rfl
  · exact h

theorem issueTags_stirs {core : Nat} {l : List Tag} (h : Stirs a s) : Stirs a (issueTags core l s).2 := by
  induction l generalizing s with
  | nil => exact h
  | cons t l ih =>
    unfold issueTags
    split
    · exact h
    · rename_i e
      exact ih (takeTag_stirs h e)

theorem issueFall_stirs {d : Nat} (h : Stirs a s) : Stirs a (issueFall s d) := by
  unfold issueFall
  split
  · exact h
  · exact (issueTags_stirs h).frame

theorem issueRise_stirs {d : Nat} (h : Stirs a s) : Stirs a (issueRise s d) := by
  unfold issueRise
  split
  · exact h
  · exact (issueTags_stirs h).frame

theorem pumpWrites_stirs (h : Stirs a s) : Stirs a (pumpWrites s) := by
  unfold pumpWrites
  refine stirs_foldl (fun s w h => ?_) h
  split
  · exact issueReads_stirs (issueWrites_stirs h)
  · exact issueFall_stirs h
  · exact issueRise_stirs h

theorem sinkTags_stirs {p : TagFor → Bool} (h : Stirs a s) : Stirs a (sinkTags s p) := pumpWrites_stirs h.frame

theorem putDesc_stirs {d : Nat} {x : Desc} (h : Stirs a s) : Stirs a (putDesc s d x) := h.frame

theorem popPool_stirs {f : Nat} (h : Stirs a s) (e : popPool s = some (f, t)) : Stirs a t := by
  unfold popPool at e
  split at e
  · cases e
  · cases e
    exact h.frame

theorem startRise_stirs {d core cls : Nat} {job : Option (Nat × Nat)} (h : Stirs a s) (e : startRise s d core cls job = some t) :
    Stirs a t := by
  unfold startRise at e
  split at e
  · cases e
  · rename_i e1
    cases e
    exact issueRise_stirs (putDesc_stirs (popPool_stirs h e1)).frame

theorem noteDry_stirs {job : Option (Nat × Nat)} {b : Bool} (h : Stirs a s) : Stirs a (noteDry s job b) := by
  unfold noteDry
  split
  · exact h
  · exact Stirs.withJob h fun s j h hj => h.setJob hj rfl

theorem pushShelf_stirs {x : Nat} (h : Stirs a s) : Stirs a (pushShelf s x) := by
  unfold pushShelf
  exact h.frame

theorem pushNeap_stirs {x : Nat} (h : Stirs a s) : Stirs a (pushNeap s x) := by
  unfold pushNeap
  exact h.frame

theorem dropFall_stirs {d : Nat} (h : Stirs a s) : Stirs a (dropFall s d) := by
  unfold dropFall
  exact h.frame

theorem stopFall_stirs {d : Nat} (h : Stirs a s) : Stirs a (stopFall s d) := by
  unfold stopFall
  split
  · exact h
  · refine sinkTags_stirs (dropFall_stirs ?_)
    split
    · exact pushNeap_stirs (pushShelf_stirs h)
    · exact pushShelf_stirs h

theorem touchPage_stirs {core d : Nat} {job : Option (Nat × Nat)} (h : Stirs a s) : Stirs a (touchPage s core job d).2 := by
  unfold touchPage
  dsimp only
  split
  · exact stirs_ite h (putDesc_stirs h)
  · split
    · exact stirs_ite (noteDry_stirs h) h
    · rename_i e
      exact noteDry_stirs (startRise_stirs h e)
  · split
    · exact h
    · exact putDesc_stirs (stopFall_stirs h)
  · exact h

theorem touchVpn_stirs {core root vpn : Nat} {job : Option (Nat × Nat)} {p : Bool × State} (h : Stirs a p.2) :
    Stirs a (touchVpn core job root p vpn).2 := by
  unfold touchVpn
  split
  · exact h
  · exact touchPage_stirs h

theorem touchAll_stirs {core : Nat} {job : Option (Nat × Nat)} {l : List (Nat × Nat)} (h : Stirs a s) :
    Stirs a (touchAll s core job l).2 := by
  have hfold : ∀ (l : List (Nat × Nat)) (p : Bool × State), Stirs a p.2 → Stirs a (l.foldl (fun (a : Bool × State) p =>
      match seqRec a.2 p.1 with
      | none => a
      | some x => touchVpn core job x.root a p.2) p).2 := by
    intro l
    induction l with
    | nil => exact fun _ h => h
    | cons x l ih =>
      intro p hp
      refine ih _ ?_
      dsimp only
      split
      · exact hp
      · exact touchVpn_stirs hp
  exact hfold l (true, s) h

end Sys2Proof.Proofs
end

section
set_option Elab.async false
/-! The spans of a chunked SCAN (06 R204-R207). -/
namespace Sys2Proof.Proofs
open Sys2Proof Sys2Proof.Machine Sys2Proof.Laws Sys2Proof.Safety

variable {s : State} {j : Job} {o : ScanOp}

theorem sole_setJob {q n : Nat} {k : Job} (hj : s.job q n = some j) (ht : k.take = j.take) (hq : k.q = j.q) (hn : k.n = j.n) :
    Sole (s.setJob k) q n k := by
  obtain ⟨hjq, hjn⟩ := job_names _ _ _ _ hj
  refine ⟨job_setJob _ _ _ j _ hj ht (hq.trans hjq) (hn.trans hjn), fun x hx hxt => ?_⟩
  obtain ⟨y, -, rfl⟩ := List.mem_map.1 hx
  split at hxt <;> rename_i hy
  · rw [if_pos hy]
  · exact absurd (beq_iff_eq.2 hxt) hy

theorem Places.sole {t : State} (h : Places s t) {q n : Nat} (hj : Sole s q n j) : Sole t q n j := by
  rw [h.frame]
  exact hj

/-- What span `k` of sequence `seq` computes from its carry. -/
def spanOf (s : State) (j : Job) (o : ScanOp) (seq k : Nat) (span : List Nat) : SpanRun :=
  let i := if k == 0 then initCarry s (scanCtx j) o seq else (readCarry s (scanCtx j) o seq (span.headD 0), Rep.nil)
  runSpan s (scanCtx j) o seq span i.1 (k == 0 && o.init.isNone) i.2

/-- The final states known when the span has run. -/
def finalsWith (s : State) (j : Job) (o : ScanOp) (seq k : Nat) (span : List Nat) : List (Nat × List Lane) :=
  if k + 1 == o.spans.length then j.finals ++ [(seq, (spanOf s j o seq k span).last.map Hel.stored)] else j.finals

/-- The tiles of the span that the command is to commit. -/
def spanNew (s : State) (j : Job) (o : ScanOp) (seq k : Nat) (span : List Nat) : List Tile :=
  (spanOf s j o seq k span).tiles.filter fun t => decide (t.num < j.total)

/-- The same tiles, the last of all with the final states. -/
def spanTiles (s : State) (j : Job) (o : ScanOp) (seq k : Nat) (span : List Nat) : List Tile :=
  if j.finished + j.tiles.length + (spanNew s j o seq k span).length == o.seqs * o.chunks && j.fail.isNone then
    (match (spanNew s j o seq k span).reverse with
    | t :: ts => (chunkFinals s (scanCtx j) o (finalsWith s j o seq k span) t :: ts).reverse
    | [] => [])
  else spanNew s j o seq k span

/-- `j` with the span's tiles to commit. -/
def spanned (s : State) (j : Job) (o : ScanOp) (seq k : Nat) (span : List Nat) : Job :=
  { j with
    tiles := j.tiles ++ spanTiles s j o seq k span
    finals := finalsWith s j o seq k span
    spans := j.spans.set seq (k + 1) }

/-- `s` with the span's tiles to commit, and their items on the cores. -/
def withSpan (s : State) (j : Job) (o : ScanOp) (seq k : Nat) (span : List Nat) : State :=
  placeTiles (s.setJob (spanned s j o seq k span)) j.q j.n (spanTiles s j o seq k span)

theorem openSpan_eq {q n : Nat} {seq k : Nat} {span : List Nat} (hj : s.job q n = some j) (hs : o.spans[k]? = some span) :
    openSpan s q n o seq k = match o.spans[k + 1]? with
      | none => withSpan s j o seq k span
      | some next => pumpWrites (queueWr (withSpan s j o seq k span) q n
          (cutWr (withSpan s j o seq k span) false (o.home (span.headD 0)) (o.carryWrite seq (next.headD 0) (spanOf s j o seq k span).next))) := by
  obtain ⟨rfl, rfl⟩ := job_names _ _ _ _ hj
  rw [openSpan, withJob_some _ _ _ _ _ hj]
  simp only [hs]
  rfl

/-- The tiles that a span adds are as many as it has to commit. -/
theorem spanTiles_length (s : State) (j : Job) (o : ScanOp) (seq k : Nat) (span : List Nat) :
    (spanTiles s j o seq k span).length = (spanNew s j o seq k span).length := by
  unfold spanTiles
  split
  · split
    · rename_i h
      rw [List.length_reverse, List.length_cons, ← List.length_cons (a := ‹Tile›), ← h, List.length_reverse]
    · rename_i h
      rw [List.reverse_eq_nil_iff.1 h]
  · rfl

/-- What the run of a span leaves of the rest of the engine, and what it makes of the command. -/
theorem openSpan_runs {q n : Nat} {seq k : Nat} {span : List Nat} (hj : s.job q n = some j) (hs : o.spans[k]? = some span) :
    (∃ y, Sole (openSpan s q n o seq k) q n y ∧ Like (spanned s j o seq k span) y) ∧
      (openSpan s q n o seq k).qs = s.qs ∧ (openSpan s q n o seq k).slots = s.slots ∧
      (o.spans[k + 1]? = none → openSpan s q n o seq k =
        { s with jobs := (openSpan s q n o seq k).jobs, cores := (openSpan s q n o seq k).cores }) := by
  have hp : Places (s.setJob (spanned s j o seq k span)) (withSpan s j o seq k span) := placeTiles_places ..
  have hsole : Sole (withSpan s j o seq k span) q n (spanned s j o seq k span) := hp.sole (sole_setJob hj rfl rfl rfl)
  have hqs : (withSpan s j o seq k span).qs = s.qs := by rw [hp.frame]; rfl
  have hslots : (withSpan s j o seq k span).slots = s.slots := by rw [hp.frame]; rfl
  rw [openSpan_eq hj hs]
  split
  · refine ⟨⟨_, hsole, .refl _⟩, hqs, hslots, fun _ => ?_⟩
    have hjobs : (withSpan s j o seq k span).jobs = (s.setJob (spanned s j o seq k span)).jobs := by rw [hp.frame]
    conv => lhs; rw [hp.frame]
    rw [hjobs]
    rfl
  · rename_i next hnext
    have hstir : Stirs (withSpan s j o seq k span) (pumpWrites (queueWr (withSpan s j o seq k span) q n
        (cutWr (withSpan s j o seq k span) false (o.home (span.headD 0)) (o.carryWrite seq (next.headD 0) (spanOf s j o seq k span).next)))) :=
      pumpWrites_stirs (Stirs.withJob (.refl _) fun s j h hj => h.setJob hj rfl)
    refine ⟨hstir.job _ _ _ hsole, ?_, ?_, fun h => by rw [h] at hnext; cases hnext⟩
    · rw [hstir.rest]; exact hqs
    · rw [hstir.rest]; exact hslots

theorem served_frame (s : State) (j : Job) : (s.served j).qs = s.qs ∧ (s.served j).slots = s.slots := by
  rw [served_eq]
  exact ⟨rfl, rfl⟩

/-- The first spans of the sequences below `m` run. -/
theorem openSpans_run {q n : Nat} {span : List Nat} (hs : o.spans[0]? = some span) {y0 : Job} (hy0 : Sole s q n y0)
    (hsp : y0.spans = List.replicate o.seqs 0) (m : Nat) (hm : m ≤ o.seqs) :
    ∃ y, Sole ((List.range m).foldl (fun s k => openSpan s q n o k 0) s) q n y ∧ y.phase = y0.phase ∧ y.total = y0.total ∧
      y.finished = y0.finished ∧ y.spans = List.replicate m 1 ++ List.replicate (o.seqs - m) 0 ∧
      ((List.range m).foldl (fun s k => openSpan s q n o k 0) s).qs = s.qs ∧
      ((List.range m).foldl (fun s k => openSpan s q n o k 0) s).slots = s.slots ∧
      (o.spans[1]? = none → (List.range m).foldl (fun s k => openSpan s q n o k 0) s =
        { s with
          jobs := ((List.range m).foldl (fun s k => openSpan s q n o k 0) s).jobs
          cores := ((List.range m).foldl (fun s k => openSpan s q n o k 0) s).cores }) := by
  induction m with
  | zero => exact ⟨y0, hy0, rfl, rfl, rfl, by simpa using hsp, rfl, rfl, fun _ => rfl⟩
  | succ m ih =>
    obtain ⟨y, hy, hph, htot, hfin, hspans, hqs, hslots, hlast⟩ := ih (by omega)
    obtain ⟨⟨z, hz, hl⟩, hqs', hslots', hlast'⟩ := openSpan_runs (seq := m) hy.1 hs
    simp only [List.range_succ, List.foldl_append, List.foldl_cons, List.foldl_nil]
    refine ⟨z, hz, ?_, ?_, ?_, ?_, hqs'.trans hqs, hslots'.trans hslots, fun h => ?_⟩
    · rw [hl]; exact hph
    · rw [hl]; exact htot
    · rw [hl]; exact hfin
    · rw [hl]
      change y.spans.set m (0 + 1) = _
      rw [hspans]
      obtain ⟨d, hd⟩ : ∃ d, o.seqs - m = d + 1 := ⟨o.seqs - m - 1, by omega⟩
      have hd' : o.seqs - (m + 1) = d := by omega
      rw [hd, hd', List.set_append_right _ _ (by simp), List.replicate_succ' (n := m)]
      simp [List.replicate_succ (n := d)]
    · rw [hlast' h, hlast h]

/-- `j` as it starts in chunks: every sequence waits for its first span. -/
def chunking (j : Job) (o : ScanOp) : Job :=
  { (j.run []) with fetched := j.fetched, total := o.seqs * o.chunks, fail := none, spans := List.replicate o.seqs 0 }

theorem startChunks_good (hoff : s.mon.trOn = false) (hbad : scanBad s (scanCtx j) o = none) : startChunks s j o =
    settle ((List.range o.seqs).foldl (fun s k => openSpan s j.q j.n o k 0) (s.setJob (chunking j o))) j.q j.n := by
  unfold startChunks
  simp only [hbad]
  rw [trace_off]
  · rfl
  · exact hoff

theorem spans_nonempty (h : 0 < o.chunks) : ∃ span, o.spans[0]? = some span := by
  have hne : o.home 0 ∈ (((List.range o.chunks).map o.home).eraseDups) :=
    List.mem_eraseDups.2 (List.mem_map_of_mem (List.mem_range.2 h))
  have hlen : 0 < o.spans.length := by
    rw [ScanOp.spans, List.length_map]
    exact List.length_pos_of_mem hne
  exact ⟨_, List.getElem?_eq_getElem hlen⟩

theorem exec_seamCarryReady (q : BitVec 6) (n : BitVec 16) (seq : BitVec 12) (chunk : BitVec 24) (s : State) :
    exec (.seamCarryReady q n seq chunk) s = .next (seamCarryReady q n seq chunk s) := rfl

/-- SEAM_CARRY_READY of the span that comes next. -/
theorem seamCarryReady_next {q : BitVec 6} {n : BitVec 16} {seq : BitVec 12} {chunk : BitVec 24} {k : Nat} {span : List Nat}
    (ht : Taken s q n 0x08 j) (hp : j.phase = .running) (ha : Awake s) (hs : s.stopped = false) (hk : j.spans[seq.toNat]? = some k)
    (hk0 : k ≠ 0) (hchk : chkScan s j = .ok o) (hspan : o.spans[k]? = some span) (hc : span.headD 0 = chunk.toNat) :
    seamCarryReady q n seq chunk s =
      if written s j (o.carryAt seq.toNat chunk.toNat) (4 * o.size) then carryOn s j o seq.toNat chunk.toNat k else s := by
  rw [seamCarryReady, withJob_some _ _ _ _ _ ht.1]
  simp only [ht.2, hp, awake_of_awake ha, hs, hk, hchk, hspan, Option.map_some, hc]
  cases written s j (o.carryAt seq.toNat chunk.toNat) (4 * o.size) <;> simp [hk0]

/-- A command that a commit may end keeps what it asked for. -/
theorem settle_parts {q n : Nat} (hj : s.job q n = some j) : ∃ y, (settle s q n).job q n = some y ∧ y.parts = j.parts := by
  obtain ⟨hq, hn⟩ := job_names _ _ _ _ hj
  rw [settle, withJob_some _ _ _ _ _ hj]
  split
  · split
    · have hviol : ∀ b : Bool, (if b then s else viol s j.loc ‹Nat × Nat × Nat›.1 ‹Nat × Nat × Nat›.2.1 ‹Nat × Nat × Nat›.2.2).job q n = some j := by
        intro b
        cases b
        · rw [if_neg Bool.false_ne_true, viol_eq]
          exact hj
        · exact hj
      refine ⟨_, job_setJob _ _ _ j _ (hviol _) ?_ ?_ ?_, ?_⟩ <;> simp only [Job.mark, Job.end] <;> split <;> simp [hq, hn]
    · exact ⟨_, job_setJob _ _ _ j _ hj rfl hq hn, rfl⟩
  · exact ⟨j, hj, rfl⟩

/-- `j` with the carry's transfers asked for. -/
def askingCarry (j : Job) (o : ScanOp) (seq c : Nat) : Job :=
  { j with ask := some (j.ask.getD [] ++ o.carryPieces seq c), parts := j.parts ++ o.carryPieces seq c }

/-- `j` without what it fetched of the carry, which it has used. -/
def usedCarry (j : Job) (o : ScanOp) (seq c : Nat) : Job := { j with fetched := j.fetched.filter fun f => f.unit != o.carryUnit seq c }

theorem carryOn_eq (s : State) (j : Job) (o : ScanOp) (seq c k : Nat) : carryOn s j o seq c k =
    (askCarry s j o seq c).withJob j.q j.n fun s j =>
      let a := touchAll s (o.home c) (some (j.q, j.n)) ((o.ins.flatMap fun t => t.pages s (scanCtx j)).eraseDups)
      if !landedOn s j (o.carryUnit seq c) (o.home c) || !a.1 then a.2
      else (openSpan a.2 j.q j.n o seq k).withJob j.q j.n fun s j => settle (s.setJob (usedCarry j o seq c)) j.q j.n := rfl

/-- The first call for a carry leaves its transfers with the command, whatever follows. -/
theorem carryOn_asks {q n seq c k : Nat} (hj : s.job q n = some j) (hnew : (j.parts.any fun p => p.unit == o.carryUnit seq c) = false) :
    ∃ y, (carryOn s j o seq c k).job q n = some y ∧ y.parts = j.parts ++ o.carryPieces seq c := by
  obtain ⟨rfl, rfl⟩ := job_names _ _ _ _ hj
  have hask : askCarry s j o seq c = issueReads (s.setJob (askingCarry j o seq c)) j.q j.n := by
    rw [askCarry, hnew]
    rfl
  have hstir : Stirs (s.setJob (askingCarry j o seq c)) (askCarry s j o seq c) := by
    rw [hask]
    exact issueReads_stirs (.refl _)
  obtain ⟨j', hj', hl⟩ := hstir.job _ _ _ (sole_setJob (k := askingCarry j o seq c) hj rfl rfl rfl)
  obtain ⟨hq, hn⟩ := job_names _ _ _ _ hj'.1
  have hparts : j'.parts = j.parts ++ o.carryPieces seq c := by rw [hl]; rfl
  rw [carryOn_eq, withJob_some _ _ _ _ _ hj'.1]
  dsimp only
  obtain ⟨j'', hj'', hl'⟩ := (touchAll_stirs (core := o.home c) (job := some (j'.q, j'.n))
    (l := (o.ins.flatMap fun t => t.pages (askCarry s j o seq c) (scanCtx j')).eraseDups) (.refl (askCarry s j o seq c))).job _ _ _ hj'
  have hparts' : j''.parts = j.parts ++ o.carryPieces seq c := by rw [hl']; exact hparts
  generalize (touchAll (askCarry s j o seq c) (o.home c) (some (j'.q, j'.n))
    (o.ins.flatMap fun t => t.pages (askCarry s j o seq c) (scanCtx j')).eraseDups) = a at hj''
  split
  · exact ⟨j'', hj''.1, hparts'⟩
  · rw [hq, hn]
    have hopen : ∃ y, (openSpan a.2 j.q j.n o seq k).job j.q j.n = some y ∧ y.parts = j.parts ++ o.carryPieces seq c := by
      cases hspan : o.spans[k]? with
      | none =>
        refine ⟨j'', ?_, hparts'⟩
        rw [openSpan, withJob_some _ _ _ _ _ hj''.1]
        simp only [hspan]
        exact hj''.1
      | some span =>
        obtain ⟨⟨y, hy, hly⟩, -⟩ := openSpan_runs (seq := seq) hj''.1 hspan
        exact ⟨y, hy.1, by rw [hly]; exact hparts'⟩
    obtain ⟨y, hy, hyp⟩ := hopen
    obtain ⟨hyq, hyn⟩ := job_names _ _ _ _ hy
    rw [withJob_some _ _ _ _ _ hy, hyq, hyn]
    obtain ⟨z, hz, hzp⟩ := settle_parts (job_setJob (openSpan a.2 j.q j.n o seq k) j.q j.n y (usedCarry y o seq c) hy rfl hyq hyn)
    exact ⟨z, hz, hzp.trans hyp⟩

/-- Once the carry has landed, the span runs. -/
theorem carryOn_runs {q n seq c k : Nat} (hj : s.job q n = some j) (hold : (j.parts.any fun p => p.unit == o.carryUnit seq c) = true)
    (hland : landedOn s j (o.carryUnit seq c) (o.home c) = true)
    (htouch : touchAll s (o.home c) (some (j.q, j.n)) ((o.ins.flatMap fun t => t.pages s (scanCtx j)).eraseDups) = (true, s)) :
    carryOn s j o seq c k =
      (openSpan s q n o seq k).withJob q n fun s j => settle (s.setJob (usedCarry j o seq c)) j.q j.n := by
  obtain ⟨rfl, rfl⟩ := job_names _ _ _ _ hj
  have hask : askCarry s j o seq c = s := by rw [askCarry, if_pos hold]
  rw [carryOn_eq, hask, withJob_some _ _ _ _ _ hj]
  simp [hland, htouch]

/-- Settles O26: what the run of a span leaves, for the first spans in turn and for a later one. -/
theorem spansRunFromTheirCarry : Obligations.SpansRunFromTheirCarry := by
  unfold Obligations.SpansRunFromTheirCarry
  refine ⟨?_, ?_⟩
  · intro q n s j o hquiet hstart ht hb hchk hch hpos j1 s1 hat hbad
    obtain ⟨hq, hn⟩ := job_names _ _ _ _ ht.1
    have hj : (s.served j).job j.q j.n = some j := by rw [served_job]; exact job_taken ht
    have hjob : s1.job j.q j.n = some j1 := job_working (job_taken ht) []
    have hoff : s1.mon.trOn = false := (congrArg (fun m : Monitor => m.trOn) (served_mon s j)).trans hquiet.1
    obtain ⟨span, hspan⟩ := spans_nonempty (o := o) (Nat.pos_of_mul_pos_left hpos)
    obtain ⟨y, hy, hph, htot, hfin, hspans, hqs, hslots, hlast⟩ := openSpans_run (s := s1.setJob (chunking j1 o)) hspan
      (sole_setJob (k := chunking j1 o) hjob rfl rfl rfl) rfl o.seqs (Nat.le_refl _)
    have hrun : exec (.scan q n) s = .next ((List.range o.seqs).foldl (fun s k => openSpan s j.q j.n o k 0) (s1.setJob (chunking j1 o))) := by
      rw [exec_scan, scanRow, startRow_ok _ _ _ _ j o _ _ ht.1 ht.2 hstart hchk, runScan_unbound hb hj]
      refine congrArg _ ((withOperands_atHand s1 j1 (scanCtx j) _ _ _ hjob hat).trans ?_)
      have hbad' : scanBad s1 (scanCtx j1) o = none := hbad
      rw [if_pos hch, startChunks_good hoff hbad']
      exact settle_unfinished hy.1 (by rw [hfin, htot]; exact Nat.ne_of_lt hpos)
    rw [hq, hn] at hy
    refine ⟨_, y, hrun, ?_, hph, htot, hfin, ?_, hqs.trans ?_, hslots.trans ?_, fun h => ?_⟩
    · simpa only [hq, hn] using hy.1
    · rw [hspans, Nat.sub_self]
      exact List.append_nil _
    · exact (served_frame s j).1
    · exact (served_frame s j).2
    · exact (hlast h).trans rfl
  · intro q n seq chunk s j o k span ht hp ha hs hk hk0 hchk hspan hc x a u
    obtain ⟨hq, hn⟩ := job_names _ _ _ _ ht.1
    have hexec := seamCarryReady_next ht hp ha hs hk hk0 hchk hspan hc
    refine ⟨fun hw => ?_, fun hw hnew => ?_, fun hw hold hland htouch hlt => ?_⟩
    · rw [exec_seamCarryReady, hexec, if_neg (by rw [hw]; exact Bool.false_ne_true)]
    · rw [exec_seamCarryReady, hexec, if_pos hw]
      obtain ⟨y, hy, hyp⟩ := carryOn_asks (seq := seq.toNat) (c := chunk.toNat) (k := k) ht.1 hnew
      exact ⟨_, y, rfl, hy, hyp⟩
    · intro r new
      rw [exec_seamCarryReady, hexec, if_pos hw, carryOn_runs ht.1 hold hland htouch]
      obtain ⟨⟨y, hy, hl⟩, hqs, hslots, hlast⟩ := openSpan_runs (seq := seq.toNat) ht.1 hspan
      obtain ⟨hyq, hyn⟩ := job_names _ _ _ _ hy.1
      rw [withJob_some _ _ _ _ _ hy.1, hyq, hyn]
      have hused : ((openSpan s q.toNat n.toNat o seq.toNat k).setJob (usedCarry y o seq.toNat chunk.toNat)).job q.toNat n.toNat =
          some (usedCarry y o seq.toNat chunk.toNat) := job_setJob _ _ _ y _ hy.1 rfl hyq hyn
      have hnew : spanNew s j o seq.toNat k span = new := by
        simp only [spanNew, spanOf, new, r, hc, beq_eq_false_iff_ne.2 hk0]
        rfl
      have htiles : y.tiles = j.tiles ++ spanTiles s j o seq.toNat k span := by rw [hl]; rfl
      rw [settle_unfinished hused (by rw [hl]; exact Nat.ne_of_lt hlt)]
      refine ⟨_, _, rfl, hused, ?_, ?_, fun hmore => ?_, hqs, hslots, fun h => ?_⟩
      · change y.spans = _
        rw [hl]
        rfl
      · change y.tiles.length = _
        rw [htiles, List.length_append, spanTiles_length, hnew]
      · change y.tiles = _
        rw [htiles, spanTiles, hnew, if_neg (by simp [Nat.ne_of_lt hmore])]
      · conv => lhs; rw [hlast h]
        rfl

end Sys2Proof.Proofs
end

section
set_option Elab.async false
/-! Stealing (01 R35, R36). -/
namespace Sys2Proof.Proofs
open Sys2Proof Sys2Proof.Machine Sys2Proof.Laws Sys2Proof.Safety

variable {s t : State}

theorem ite_mon {c : Prop} [Decidable c] {u : State} (hs : s.mon = u.mon) (ht : t.mon = u.mon) : (if c then s else t).mon = u.mon := by
  split
  · exact hs
  · exact ht

theorem sendTag_mon (s : State) (key : Nat) : (sendTag s key).mon = s.mon := by
  unfold sendTag
  split
  · rfl
  · refine ite_mon rfl ?_
    dsimp only
    split
    · exact ite_mon rfl rfl
    · exact ite_mon rfl rfl
    · rw [sendMsg_eq]

theorem takeTag_mon {core : Nat} {g : Tag} (e : takeTag s core g = some t) : t.mon = s.mon := by
  unfold takeTag at e
  split at e
  · cases e
  · cases e
    rw [sendTag_mon]

theorem withJob_mon {q n : Nat} {f : State → Job → State} (hf : ∀ s j, (f s j).mon = s.mon) : (s.withJob q n f).mon = s.mon := by
  unfold State.withJob
  split
  · rfl
  · exact hf ..

theorem landUnit_mon (s : State) (core : Nat) (g : Tag) (u : Nat × Bool × List Byte) : (landUnit core g s u).mon = s.mon := by
  have hcount : (if u.2.1 then count s core 11 1 else s).mon = s.mon := by
    split
    · rw [count_eq]
    · rfl
  unfold landUnit
  dsimp only
  split
  · refine Eq.trans (withJob_mon ?_) hcount
    exact fun _ _ => rfl
  · exact hcount
  · rw [count_eq]
  · rfl

theorem landUnits_mon {β : Type} (s : State) (core : Nat) (g : Tag) (u : β → Nat × Bool × List Byte) (l : List β) :
    (l.foldl (fun s x => landUnit core g s (u x)) s).mon = s.mon := by
  induction l generalizing s with
  | nil => rfl
  | cons x l ih => rw [List.foldl_cons, ih, landUnit_mon]

theorem askPieces_mon (s : State) (j : Job) (l : List Piece) : (askPieces s j l).1.mon = s.mon := by
  induction l generalizing s with
  | nil => rfl
  | cons p ps ih =>
    unfold askPieces
    dsimp only
    split
    · split
      · rfl
      · rename_i e
        rw [ih, takeTag_mon e]
    · split
      · rfl
      · rename_i e
        rw [ih, takeTag_mon e]
    · rw [ih]
      exact landUnits_mon _ _ _ (fun u => (u, true, [])) _

theorem issueReads_mon (s : State) (q n : Nat) : (issueReads s q n).mon = s.mon := by
  unfold issueReads
  refine withJob_mon fun s j => ?_
  split
  · refine Eq.trans (withJob_mon ?_) (askPieces_mon ..)
    exact fun _ _ => rfl
  · rfl

theorem at_awake (h : Awake s) (lt : Dword) : Awake (At s lt) := by
  obtain ⟨hr, hp, hm⟩ := h
  unfold At advance
  split
  · exact ⟨hr, hp, hm⟩
  · exact ⟨hr, hp, hm⟩

/-- `v` is a victim of `l`: it has two stealable items, and none has more, nor as many at a lower index. -/
def IsBest (s : State) (l : List Nat) (v : Nat) : Prop :=
  v ∈ l ∧ 2 ≤ (s.core v).loot ∧ ∀ w ∈ l, (s.core w).loot < (s.core v).loot ∨ ((s.core w).loot = (s.core v).loot ∧ v ≤ w)

/-- What the search answers on `l`: none has two, or the best. -/
def Answers (s : State) (l : List Nat) : Option Nat → Prop
  | none => ∀ w ∈ l, (s.core w).loot < 2
  | some v => IsBest s l v

/-- The better of the best so far and `v`. -/
def better (s : State) (b : Option Nat) (v : Nat) : Option Nat :=
  let n := (s.core v).loot
  if n < 2 then b
  else match b with
    | none => some v
    | some w => if (s.core w).loot < n || ((s.core w).loot == n && decide (v < w)) then some v else b

theorem bestVictim_eq (s : State) (l : List Nat) : bestVictim s l = l.foldl (better s) none := rfl

theorem isBest_append_self {l : List Nat} {v : Nat} (h2 : 2 ≤ (s.core v).loot)
    (h : ∀ w ∈ l, (s.core w).loot < (s.core v).loot ∨ ((s.core w).loot = (s.core v).loot ∧ v ≤ w)) : IsBest s (l ++ [v]) v := by
  refine ⟨by simp, h2, fun w hw => ?_⟩
  rcases List.mem_append.1 hw with hw | hw
  · exact h w hw
  · rw [List.mem_singleton.1 hw]
    exact Or.inr ⟨rfl, Nat.le_refl _⟩

theorem better_answers {l : List Nat} {b : Option Nat} (h : Answers s l b) (v : Nat) : Answers s (l ++ [v]) (better s b v) := by
  unfold better
  dsimp only
  split
  · rename_i hv
    cases b with
    | none =>
      intro w hw
      rcases List.mem_append.1 hw with hw | hw
      · exact h w hw
      · rw [List.mem_singleton.1 hw]
        exact hv
    | some u =>
      obtain ⟨hu, h2, hall⟩ := h
      refine ⟨List.mem_append_left _ hu, h2, fun w hw => ?_⟩
      rcases List.mem_append.1 hw with hw | hw
      · exact hall w hw
      · rw [List.mem_singleton.1 hw]
        exact Or.inl (by omega)
  · rename_i hv
    cases b with
    | none => exact isBest_append_self (by omega) fun w hw => Or.inl (by have := h w hw; omega)
    | some u =>
      obtain ⟨hu, h2, hall⟩ := h
      dsimp only
      split
      · rename_i hbetter
        simp only [Bool.or_eq_true, Bool.and_eq_true, decide_eq_true_eq, beq_iff_eq] at hbetter
        exact isBest_append_self (by omega) fun w hw => by have := hall w hw; omega
      · rename_i hbetter
        simp only [Bool.or_eq_true, Bool.and_eq_true, decide_eq_true_eq, beq_iff_eq] at hbetter
        refine ⟨List.mem_append_left _ hu, h2, fun w hw => ?_⟩
        rcases List.mem_append.1 hw with hw | hw
        · exact hall w hw
        · rw [List.mem_singleton.1 hw]
          omega

theorem foldl_better_answers (l m : List Nat) (b : Option Nat) (h : Answers s m b) : Answers s (m ++ l) (l.foldl (better s) b) := by
  induction l generalizing m b with
  | nil => simpa using h
  | cons v l ih =>
    have := ih (m ++ [v]) (better s b v) (better_answers h v)
    simpa using this

theorem bestVictim_answers (s : State) (l : List Nat) : Answers s l (bestVictim s l) := by
  rw [bestVictim_eq]
  exact foldl_better_answers l [] none fun w hw => by cases hw

theorem bestVictim_mem {l : List Nat} {v : Nat} (h : bestVictim s l = some v) : v ∈ l := by
  have := bestVictim_answers s l
  rw [h] at this
  exact this.1

theorem clusterCores_div {k v : Nat} (h : v ∈ clusterCores k) : v / 16 = k := by
  obtain ⟨i, hi, rfl⟩ := List.mem_map.1 h
  have := List.mem_range.1 hi
  omega

/-- `s` with the item `it` gone from the victim `v`, and alone on the thief `c`. -/
def robbed (s : State) (c v : Nat) (it : Item) : State :=
  (s.setCore v ((s.core v).without it)).setCore c { (s.setCore v ((s.core v).without it)).core c with deque := [it], idleSince := 0 }

theorem fetchStolen_rest (s : State) (c : Nat) (it : Item) : (fetchStolen s c it).cores = s.cores ∧ (fetchStolen s c it).mon = s.mon := by
  have hstir : Stirs s (fetchStolen s c it) := by
    unfold fetchStolen
    exact Stirs.withJob (.refl s) fun s j h hj => issueReads_stirs (h.setJob hj rfl)
  refine ⟨by rw [hstir.rest], ?_⟩
  unfold fetchStolen
  exact withJob_mon fun s j => issueReads_mon ..

theorem robCore_robs {c v : Nat} {it : Item} (hoff : s.mon.trOn = false) (hit : (s.core v).deque.find? Item.steal = some it) :
    robCore s c v = fetchStolen (robbed s c v it) c it := by
  rw [robCore, hit]
  refine trace_off _ _ _ _ _ _ _ _ ?_
  exact (congrArg Monitor.trOn (fetchStolen_rest (robbed s c v it) c it).2).trans hoff

theorem exec_steal (c : BitVec 8) (s : State) : exec (.steal c) s = .next (stealRow c s) := rfl
theorem exec_clusterPoll (c : BitVec 8) (lt : Dword) (s : State) : exec (.clusterPollTimeout c lt) s = .next (clusterPoll c lt s) := rfl

/-- The poll of a cluster reads the cores only. -/
theorem bestVictim_cores (h : t.cores = s.cores) (l : List Nat) : bestVictim t l = bestVictim s l := by
  unfold bestVictim State.core
  rw [h]

theorem core_at (s : State) (lt : Dword) (k : Nat) : (At s lt).core k = s.core k := by
  rw [At, advance_eq]
  rfl

/-- Settles O27, by the search for the fullest victim and what a robbery leaves alone. -/
theorem idleCoresSteal : Obligations.IdleCoresSteal := by
  unfold Obligations.IdleCoresSteal
  refine ⟨fun s l v h => ?_, fun s l h => ?_, ?_⟩
  · have := bestVictim_answers s l
    rw [h] at this
    exact this
  · have := bestVictim_answers s l
    rw [h] at this
    exact this
  · intro c lt s s0 i v it hawake hoff hstop hempty hsaved hcase hit
    have hrob : exec i s = .next (robCore s0 c.toNat v) ∧ v ≠ c.toNat ∧ s0.mon = s.mon ∧ s0.cores = s.cores := by
      rcases hcase with ⟨rfl, rfl, hv⟩ | ⟨rfl, rfl, hnone, hidle, hlate, hv⟩
      · refine ⟨?_, ?_, rfl, rfl⟩
        · rw [exec_steal, stealRow]
          simp [awake_of_awake hawake, hstop, hempty, hsaved, hv]
        · simpa using (List.mem_filter.1 (bestVictim_mem hv)).2
      · have hcores : (At s lt).cores = s.cores := by rw [At, advance_eq]
        refine ⟨?_, ?_, by rw [At, advance_eq], hcores⟩
        · have hidle' : ((At s lt).core c.toNat).idleSince ≠ 0 := by rw [core_at]; exact hidle
          have hlate' : ¬ (At s lt).life.lt + 1 < ((At s lt).core c.toNat).idleSince + 32 := by rw [core_at]; omega
          have hcl : ∀ l, bestVictim (At s lt) l = bestVictim s l := bestVictim_cores hcores
          have hup := awake_of_awake (at_awake hawake lt)
          rw [exec_clusterPoll, clusterPoll]
          unfold At at *
          simp [hup, hstop, hempty, hsaved, hcl, hnone, hv, hidle', hlate']
        · obtain ⟨k, hk, hkv⟩ := List.exists_of_findSome?_eq_some hv
          obtain ⟨a, ha, rfl⟩ := List.mem_map.1 hk
          have ha' := List.mem_range.1 ha
          have hdiv := clusterCores_div (bestVictim_mem hkv)
          have := c.isLt
          intro h
          subst h
          omega
    obtain ⟨hexec, hne, hmon, hcores⟩ := hrob
    have hcore : ∀ k, s0.core k = s.core k := fun k => by rw [State.core, hcores]; rfl
    have hfetch := fetchStolen_rest (robbed s0 c.toNat v it) c.toNat it
    have htcore : ∀ k, (fetchStolen (robbed s0 c.toNat v it) c.toNat it).core k = (robbed s0 c.toNat v it).core k := fun k => by
      rw [State.core, hfetch.1]
      rfl
    have hthief : (robbed s0 c.toNat v it).core c.toNat = { s0.core c.toNat with deque := [it], idleSince := 0 } := by
      rw [robbed, core_setCore_self, core_setCore_ne _ _ hne.symm]
    rw [hexec, robCore_robs (by rw [hmon]; exact hoff) (by rw [hcore]; exact hit)]
    refine ⟨_, rfl, ?_, ?_, ?_, fun k hk hkv => ?_, ?_⟩
    · rw [htcore, hthief]
    · rw [htcore, hthief]
    · rw [htcore, robbed, core_setCore_ne _ _ hne, core_setCore_self, hcore]
    · rw [htcore, robbed, core_setCore_ne _ _ hk, core_setCore_ne _ _ hkv, hcore]
    · rw [hfetch.1]
      rfl

end Sys2Proof.Proofs
end

section
set_option Elab.async false
/-! The open sets of a core: how they swap and run, resolve and drain (04 R131-R139; 05 R160). -/
namespace Sys2Proof.Proofs
open Sys2Proof Sys2Proof.Machine Sys2Proof.Laws Sys2Proof.Safety

variable {s : State} {j : Job} {o : ArrOp}

theorem withOp_ok {q n : Nat} {f : State → Job → ArrOp → State} (hj : s.job q n = some j) (ho : prepArray s j.ctx j.cmd = .ok o) :
    withOp s q n f = f s j o := by
  rw [withOp, withJob_some _ _ _ _ _ hj, ho]

theorem exec_swap (c : BitVec 8) (s : State) : exec (.swap c) s = .next (swapRow c s) := rfl
theorem exec_saturationEvent (c : BitVec 8) (s : State) : exec (.saturationEvent c) s = .next (saturationRow c s) := rfl
theorem exec_openSetDrain (c : BitVec 8) (s : State) : exec (.openSetDrain c) s = .next (drainRow c s) := rfl

theorem swapRow_runs {c : BitVec 8} (ha : Awake s) (hs : s.coreStopped c.toNat = false) :
    swapRow c s = runCore (loadItem s c.toNat) c.toNat := by
  simp [swapRow, awake_of_awake ha, hs]

theorem retire_none {k : Core} (h : k.run = none) : k.retire = k := by simp [Core.retire, h]

theorem retire_ready {k : Core} {r : Running} (h : k.run = some r) (hr : r.sets.any OpenSet.ready = true) : k.retire = k := by
  have hnot : r.sets.all OpenSet.ended = false := by
    obtain ⟨st, hst, hready⟩ := List.any_eq_true.1 hr
    rw [List.all_eq_false]
    refine ⟨st, hst, ?_⟩
    simp only [OpenSet.ready, Bool.and_eq_true, decide_eq_true_eq] at hready
    simp [OpenSet.ended, Nat.ne_of_lt hready.2]
  simp [Core.retire, h, hnot]

/-- The core as it looks for its next item. -/
theorem loadItem_eq (s : State) (c : Nat) (hret : (s.core c).retire = s.core c) : loadItem s c =
    match (s.core c).run, s.nextTile c with
    | none, some it =>
      withOp s it.q it.n fun s j o =>
        if landedOn s j (j.unitOf it) c && mayOpen s o (s.core c).half (s.core c).draining then
          s.setCore c { (s.core c).without it with
            run := some ⟨it, openSets o j.total it.tile (s.core c).half⟩
            half := (s.core c).half != o.shadow
            idleSince := 0 }
        else s
    | _, _ => s := by
  unfold loadItem
  rw [hret, ite_self]
  rfl

theorem runCore_none {c : Nat} (h : (s.core c).run = none) : runCore s c = s := by simp [runCore, h]

/-- A set after its turn: it has run its next K-group if it may. -/
def Turned (s : State) (x : Ctx) (o : ArrOp) (st st' : OpenSet) : Prop := if st.ready then ∃ u, st' = o.runKg s x u st else st' = st

/-- One set's turn. -/
def swapStep (s : State) (x : Ctx) (o : ArrOp) (it : Item) (nb : Option StayBlock) (u : Core × List OpenSet) (st : OpenSet) :
    Core × List OpenSet :=
  if st.ready && (o.shadow || groupsFree s o (o.streams (o.box st.tile)) u.1.draining) then
    let v := swapSet s x o it nb u.1 st
    (v.1, u.2 ++ [v.2])
  else (u.1, u.2 ++ [st])

theorem swapSet_runs (s : State) (x : Ctx) (o : ArrOp) (it : Item) (nb : Option StayBlock) (k : Core) (st : OpenSet) :
    (∃ u, (swapSet s x o it nb k st).2 = o.runKg s x u st) ∧ (swapSet s x o it nb k st).1.draining = k.draining ∧
      (swapSet s x o it nb k st).1.deque = k.deque := ⟨⟨_, rfl⟩, rfl, rfl⟩

theorem load_onB (b : Banks) (x : Option StayBlock) : (b.load x).onB = b.onB := by
  unfold Banks.load
  split <;> rfl

theorem swapSet_swaps {s : State} {x : Ctx} {o : ArrOp} {it : Item} {nb : Option StayBlock} {k : Core} {st : OpenSet} (h : o.stat ≠ 1) :
    ((swapSet s x o it nb k st).1.banks.get (o.quad it st.tile) {}).onB = !(k.banks.get (o.quad it st.tile) {}).onB := by
  unfold swapSet
  simp only [ArrOp.refeed, get_put_self, beq_eq_false_iff_ne.2 h, Bool.false_eq_true, if_false, load_onB, Banks.swap]
  split
  · rfl
  · rw [load_onB]

/-- Two lists of one length whose elements are related place by place. -/
inductive Pointwise {α β : Type} (P : α → β → Prop) : List α → List β → Prop
  | nil : Pointwise P [] []
  | cons {a b l l'} : P a b → Pointwise P l l' → Pointwise P (a :: l) (b :: l')

theorem Pointwise.length_eq {α β : Type} {P : α → β → Prop} {l : List α} {l' : List β} (h : Pointwise P l l') : l.length = l'.length := by
  induction h with
  | nil => rfl
  | cons _ _ ih => rw [List.length_cons, List.length_cons, ih]

theorem swapStep_turns (s : State) (x : Ctx) (o : ArrOp) (it : Item) (nb : Option StayBlock) (l : List OpenSet) (k : Core)
    (done : List OpenSet) (hk : k.draining = []) :
    ∃ l', (l.foldl (swapStep s x o it nb) (k, done)).2 = done ++ l' ∧ Pointwise (Turned s x o) l l' ∧
      (l.foldl (swapStep s x o it nb) (k, done)).1.deque = k.deque := by
  induction l generalizing k done with
  | nil => exact ⟨[], by simp, .nil, rfl⟩
  | cons st l ih =>
    have hfree : groupsFree s o (o.streams (o.box st.tile)) k.draining = true := by rw [hk]; rfl
    rw [List.foldl_cons, swapStep, hfree, Bool.or_true, Bool.and_true]
    cases hst : st.ready with
    | true =>
      obtain ⟨hrun, hdrain, hdeque⟩ := swapSet_runs s x o it nb k st
      obtain ⟨l', hl', hall, hd⟩ := ih (swapSet s x o it nb k st).1 (done ++ [(swapSet s x o it nb k st).2]) (hdrain.trans hk)
      exact ⟨(swapSet s x o it nb k st).2 :: l', by simpa using hl', .cons (by rw [Turned, if_pos hst]; exact hrun) hall, hd.trans hdeque⟩
    | false =>
      obtain ⟨l', hl', hall, hd⟩ := ih k (done ++ [st]) hk
      exact ⟨st :: l', by simpa using hl', .cons (by rw [Turned, if_neg (by simp [hst])]) hall, hd⟩

theorem runCore_turns {c : Nat} {r : Running} (hr : (s.core c).run = some r) (hready : r.sets.any OpenSet.ready = true)
    (hj : s.job r.item.q r.item.n = some j) (ho : prepArray s j.ctx j.cmd = .ok o)
    (ht : touchAll s c (some (j.q, j.n)) ((o.ins.flatMap fun t => t.pages s j.ctx).eraseDups) = (true, s)) :
    runCore s c = s.setCore c { (r.sets.foldl (swapStep s j.ctx o r.item (nextBlock s c)) (s.core c, [])).1 with
      run := some { r with sets := (r.sets.foldl (swapStep s j.ctx o r.item (nextBlock s c)) (s.core c, [])).2 } } := by
  rw [runCore, hr]
  dsimp only
  rw [hready, Bool.not_true, if_neg Bool.false_ne_true, withOp_ok hj ho, ht]
  rfl

theorem Pointwise.getElem? {α β : Type} {P : α → β → Prop} {l : List α} {l' : List β} (h : Pointwise P l l') {i : Nat} {a : α}
    (ha : l[i]? = some a) : ∃ b, l'[i]? = some b ∧ P a b := by
  induction h generalizing i with
  | nil => simp at ha
  | cons hab _ ih =>
    cases i with
    | zero =>
      simp only [List.getElem?_cons_zero, Option.some.injEq] at ha
      subst ha
      exact ⟨_, rfl, hab⟩
    | succ i => exact ih (by simpa using ha)

theorem saturationRow_runs {c : BitVec 8} (ha : Awake s) (h : s.inp.thermHalt = false) : saturationRow c s = resolveCore s c.toNat := by
  simp [saturationRow, awake_of_awake ha, h]

theorem drainRow_runs {c : BitVec 8} (ha : Awake s) (h : s.inp.thermHalt = false) : drainRow c s = drainCore s c.toNat := by
  simp [drainRow, awake_of_awake ha, h]

/-- One set that drains makes one tile. -/
theorem drainCore_one {c : Nat} {it : Item} {st : OpenSet} (hd : (s.core c).drains = some (it, [st])) (hj : s.job it.q it.n = some j)
    (ho : prepArray s j.ctx j.cmd = .ok o) :
    let s1 := s.setCore c (s.core c).drained
    let d := o.drain s1 j.ctx c ⟨j.drained, j.ranks, j.finished + j.tiles.length⟩ st
    drainCore s c = s1.setJob { j with tiles := j.tiles ++ [d.1], drained := d.2.vals, ranks := d.2.ranks } := by
  obtain ⟨hq, hn⟩ := job_names _ _ _ _ hj
  intro s1 d
  rw [drainCore, hd]
  dsimp only
  rw [withOp_ok hj ho]
  have hj1 : s1.job j.q j.n = some j := by rw [hq, hn]; exact hj
  rw [List.foldl_cons, List.foldl_nil, drainSet]
  exact withJob_some _ _ _ _ _ hj1

theorem count_self (s : State) {core slot d : Nat} (h : s.str.freeze = false) :
    (count s core slot d).str.cnt.get (16 * core + slot) 0 = add64 (s.str.cnt.get (16 * core + slot) 0) d ∧
      (count s core slot d).str.freeze = false ∧
      ∀ k, k ≠ 16 * core + slot → (count s core slot d).str.cnt.get k 0 = s.str.cnt.get k 0 := by
  unfold count
  rw [h, if_neg Bool.false_ne_true]
  dsimp only
  split
  · exact ⟨get_put_self .., h, fun k hk => get_put_ne _ _ _ _ _ hk⟩
  · split <;> exact ⟨get_put_self .., h, fun k hk => get_put_ne _ _ _ _ _ hk⟩

theorem any_false {α : Type} {l : List α} {p : α → Bool} (h : ∀ x ∈ l, p x = false) : l.any p = false := by
  rw [List.any_eq_false]
  intro x hx
  simp [h x hx]

/-- Settles O28, by the turns of a core's sets, and what resolving and draining leave alone. -/
theorem openSetsRunResolveAndDrain : Obligations.OpenSetsRunResolveAndDrain := by
  unfold Obligations.OpenSetsRunResolveAndDrain
  refine ⟨?_, ?_, ?_⟩
  · intro c s j o ha hs ho k
    have hexec : exec (.swap c) s = .next (runCore (loadItem s c.toNat) c.toNat) := by rw [exec_swap, swapRow_runs ha hs]
    refine ⟨fun it hrun hdr hit hj hland => ?_, fun it hrun hdr hit hj hland => ?_, fun r hrun hdr hj hready ht => ?_, fun hrun hnone => ?_⟩
    · have hopen : mayOpen s o (s.core c.toNat).half (s.core c.toNat).draining = true := by
        rw [show (s.core c.toNat).draining = [] from hdr]
        rfl
      rw [hexec, loadItem_eq _ _ (retire_none hrun), show (s.core c.toNat).run = none from hrun, hit]
      dsimp only
      rw [withOp_ok hj ho, hland, hopen]
      rfl
    · rw [hexec, loadItem_eq _ _ (retire_none hrun), show (s.core c.toNat).run = none from hrun, hit]
      dsimp only
      rw [withOp_ok hj ho, hland, Bool.false_and, if_neg Bool.false_ne_true, runCore_none hrun]
    · have hload : loadItem s c.toNat = s := by
        rw [loadItem_eq _ _ (retire_ready hrun hready), show (s.core c.toNat).run = some r from hrun]
      rw [hexec, hload, runCore_turns hrun hready hj ho ht]
      obtain ⟨l', hl', hall, hdeque⟩ := swapStep_turns s j.ctx o r.item (nextBlock s c.toNat) r.sets (s.core c.toNat) [] hdr
      refine ⟨_, l', rfl, ?_, hall.length_eq.symm, fun i st hi => hall.getElem? hi, fun st hst hstat => ?_, ?_, rfl⟩
      · rw [core_setCore_self, hl', List.nil_append]
      · rw [core_setCore_self, hst]
        have hst' : st.ready = true := by simpa [hst] using hready
        have hfree : groupsFree s o (o.streams (o.box st.tile)) (s.core c.toNat).draining = true := by
          rw [show (s.core c.toNat).draining = [] from hdr]
          rfl
        simp only [List.foldl_cons, List.foldl_nil, swapStep, hst', hfree, Bool.or_true, Bool.and_true, if_true]
        exact swapSet_swaps hstat
      · rw [core_setCore_self]
        exact hdeque
    · have hload : loadItem s c.toNat = s := by
        rw [loadItem_eq _ _ (retire_none hrun), show (s.core c.toNat).run = none from hrun, hnone]
      rw [hexec, hload, runCore_none hrun]
  · intro c s r j o ha hth hrun hj ho k
    refine ⟨fun hsat => ?_, fun hsat => ?_, fun st hdr hst hend => ?_, fun hdr hend => ?_⟩
    · intro l n
      rw [exec_saturationEvent, saturationRow_runs ha hth, resolveCore, hrun]
      dsimp only
      rw [hsat, Bool.not_true, if_neg Bool.false_ne_true, withOp_ok hj ho]
      have hcore : ∀ t : State, ((count (count t c.toNat 14 n.length) c.toNat 15 (n.foldl (· + ·) 0)).core c.toNat) = t.core c.toNat := fun t => by
        rw [count_eq, count_eq]
        rfl
      refine ⟨_, rfl, ?_, fun hfr => ?_, ?_⟩
      · rw [hcore, core_setCore_self]
        split <;> rfl
      · generalize ht : s.setCore c.toNat (if n.isEmpty then _ else _) = t
        have hstr : t.str = s.str := by rw [← ht]; rfl
        rw [← hstr] at hfr ⊢
        obtain ⟨h14, hfr', hne⟩ := count_self t (core := c.toNat) (slot := 14) (d := n.length) hfr
        obtain ⟨h15, -, hne'⟩ := count_self (count t c.toNat 14 n.length) (core := c.toNat) (slot := 15) (d := n.foldl (· + ·) 0) hfr'
        refine ⟨?_, ?_⟩
        · rw [hne' _ (by omega), h14]
        · rw [h15, hne _ (by omega)]
      · rw [count_eq, count_eq]
        rfl
    · rw [exec_saturationEvent, saturationRow_runs ha hth, resolveCore, hrun]
      simp [hsat]
    · intro s1 d
      have hdrains : (s.core c.toNat).drains = some (r.item, [st]) := by
        simp [Core.drains, show (s.core c.toNat).draining = [] from hdr, hrun, hst, hend]
      have hdrained : (s.core c.toNat).drained = { k with run := none } := by
        simp [Core.drained, show (s.core c.toNat).draining = [] from hdr, hrun, hst, hend, k]
      rw [exec_openSetDrain, drainRow_runs ha hth]
      have := drainCore_one hdrains hj ho
      rw [hdrained] at this
      exact congrArg _ this
    · have hdrains : (s.core c.toNat).drains = none := by
        simp only [Core.drains, show (s.core c.toNat).draining = [] from hdr, hrun, any_false hend]
        rfl
      rw [exec_openSetDrain, drainRow_runs ha hth, drainCore, hdrains]
  · intro c s it st j o ha hth hdr hj ho s1 d
    have hdrains : (s.core c.toNat).drains = some (it, [st]) := by simp [Core.drains, hdr]
    have hdrained : (s.core c.toNat).drained = { s.core c.toNat with draining := [] } := by simp [Core.drained, hdr]
    rw [exec_openSetDrain, drainRow_runs ha hth]
    have := drainCore_one hdrains hj ho
    rw [hdrained] at this
    exact congrArg _ this

end Sys2Proof.Proofs
end

section
set_option Elab.async false
/-! Preemption and resumption of matrix items (04 R144-R148; 13 R434-R437). -/
namespace Sys2Proof.Proofs
open Sys2Proof Sys2Proof.Machine Sys2Proof.Laws Sys2Proof.Safety

variable {s : State}

theorem exec_preemption (c : BitVec 8) (q : BitVec 6) (n : BitVec 16) (s : State) :
    exec (.preemption c q n) s = .next (preemptRow c q n s) := rfl
theorem exec_itemResume (c : BitVec 8) (s : State) : exec (.itemResume c) s = .next (resumeRow c s) := rfl

/-- `s` with the image of the running item in its save slot, and the item among the core's saved ones. -/
def savedItem (s : State) (c : Nat) (o : ArrOp) (r : Running) : State :=
  { s with t1 := s.t1.put (saveSlot s r.item.q c) (imageBytes o r.item (savedSets o r.sets)) }.setCore c
    { (s.core c).flush (fun _ => true) with run := none, saved := (s.core c).saved ++ [(r.item, r.half)] }

theorem saveRunning_saves {c : Nat} {r : Running} {j : Job} {o : ArrOp} (hoff : s.mon.trOn = false) (hrun : (s.core c).run = some r)
    (hsat : r.sets.any OpenSet.satHit = false) (hj : s.job r.item.q r.item.n = some j) (ho : prepArray s j.ctx j.cmd = .ok o) :
    saveRunning s c = savedItem s c o r := by
  have hres : resolveCore s c = s := by simp [resolveCore, hrun, hsat]
  have hsave : saveRunning s c = saveCore s c := by simp [saveRunning, hrun]
  rw [hsave, saveCore, hres, hrun]
  dsimp only
  rw [withOp_ok hj ho]
  exact trace_off _ _ _ _ _ _ _ _ hoff

theorem without_run (k : Core) (it : Item) : (k.without it).run = k.run := by
  unfold Core.without Core.refill
  rfl

/-- What PREEMPTION does with the item, once the victim's is saved. -/
def startThere (s : State) (c : Nat) (it : Item) : State :=
  if s.isTile it && (s.core c).run.isNone then
    withOp s it.q it.n fun s j o =>
      s.setCore c { s.core c with
        run := some ⟨it, openSets o j.total it.tile (s.core c).half⟩
        half := (s.core c).half != o.shadow }
  else s.setCore c ((s.core c).takeNext it)

theorem preemptRow_preempts {c : BitVec 8} {q : BitVec 6} {n : BitVec 16} {r : Running} {h : Nat} {it : Item} (ha : Awake s)
    (hs : s.coreStopped c.toNat = false) (hrun : (s.core c.toNat).run = some r)
    (hfind : ((List.range 256).findSome? fun h => ((s.core h).deque.find? fun i => i.q == q.toNat && i.n == n.toNat).map fun i => (h, i)) =
      some (h, it))
    (hv : if it.steal then ((List.range 256).any fun d => (s.core d).empty) = false ∧ lowestCore s = some c.toNat else h = c.toNat)
    (hp : itemPrio s r.item < itemPrio s it) (hsave : (s.queue r.item.q).save ≠ 0) (hb : r.atBoundary s = true)
    (hd : drainDone s c.toNat = true) (hn : ((s.core c.toNat).saved.any fun i => i.1.q == q.toNat) = false) :
    preemptRow c q n s = startThere ((saveRunning s c.toNat).setCore h (((saveRunning s c.toNat).core h).without it)) c.toNat it := by
  have hwork : s.atWork c.toNat = some r.item := by simp [State.atWork, hrun]
  have hvictim : (if it.steal then !((List.range 256).any fun d => (s.core d).empty) && lowestCore s == some c.toNat else h == c.toNat) = true := by
    split at hv <;> rename_i hst
    · simp [hst, hv.1, hv.2]
    · simp [hst, hv]
  have hsave' : ((s.queue r.item.q).save == 0) = false := beq_eq_false_iff_ne.2 hsave
  unfold preemptRow
  simp only [hwork, Config.cores, hfind, hrun, hvictim, awake_of_awake ha, hs, hp, hsave', hb, hd, hn, Bool.not_true, Bool.or_false,
    decide_true, Bool.and_true, Bool.false_eq_true, if_false]
  rfl

/-- Settles O29, by what the save and the taking up of an item do. -/
theorem preemptedItemsAreSavedAndResumed : Obligations.PreemptedItemsAreSavedAndResumed := by
  unfold Obligations.PreemptedItemsAreSavedAndResumed
  refine ⟨?_, ?_⟩
  · intro c q n s r h it j j2 o o2 hquiet ha hs hrun hfind hv hp hsave hb hd hsat hj ho k hn s1 s2 k2
    have hrow : preemptRow c q n s = startThere s2 c.toNat it := by
      rw [preemptRow_preempts ha hs hrun hfind hv hp hsave hb hd hn, saveRunning_saves hquiet.1 hrun hsat hj ho]
      rfl
    have hfree : (s2.core c.toNat).run = none := by
      have hself : (s1.core c.toNat).run = none := by rw [core_setCore_self]
      by_cases hc : c.toNat = h
      · subst hc
        rw [core_setCore_self, without_run]
        exact hself
      · rw [core_setCore_ne _ _ hc]
        exact hself
    have htile : s2.isTile it = s.isTile it := rfl
    rw [exec_preemption, hrow, startThere, hfree, htile]
    refine ⟨fun hj2 harr ho2 => ?_, fun hnot => ?_⟩
    · have hj2' : s2.job it.q it.n = some j2 := hj2
      have htile' : s.isTile it = true := by rw [State.isTile, hj2]; exact harr
      rw [htile', withOp_ok hj2' ho2]
      rfl
    · rw [hnot]
      rfl
  · intro c s it j o sets hquiet ha hs k s1 hrun hdr hlast hdeque hj harr ho himg
    have htile : s.isTile it.1 = true := by rw [State.isTile, hj]; exact harr
    have hrow : resumeRow c s = restoreItem s c.toNat c.toNat it := by
      unfold resumeRow
      simp only [awake_of_awake ha, hs, show (s.core c.toNat).run = none from hrun, show (s.core c.toNat).draining = [] from hdr,
        show (s.core c.toNat).saved.getLast? = some it from hlast, Bool.not_true, Option.isSome_none, List.isEmpty_nil, Bool.or_self,
        Bool.false_eq_true, if_false]
      rw [show ((s.core c.toNat).deque.any fun i => decide (itemPrio s it.1 < itemPrio s i)) = false from hdeque]
      rfl
    have himg' : readImage s1 o it.2 (saveSlot s1 it.1.q c.toNat) j.total it.1 = some sets := himg
    have hhalf : (s1.core c.toNat).half = k.half := by rw [core_setCore_self]
    rw [exec_itemResume, hrow, restoreItem, htile, Bool.not_true, if_neg Bool.false_ne_true, withOp_ok hj ho]
    change Host.Outcome.next (match readImage s1 o it.2 (saveSlot s1 it.1.q c.toNat) j.total it.1 with | none => _ | some sets => _) = _
    rw [himg']
    dsimp only
    refine congrArg _ ((trace_off _ _ _ _ _ _ _ _ ?_).trans ?_)
    · exact hquiet.1
    · exact congrArg (fun h => s1.setCore c.toNat { s1.core c.toNat with
        run := some ⟨it.1, sets⟩
        half := if o.shadow then !it.2 else h
        idleSince := 0 }) hhalf

end Sys2Proof.Proofs
end

section
set_option Elab.async false
/-! STEP and the issue of its members (09 R300, R301; 10 R325-R330). -/
namespace Sys2Proof.Proofs
open Sys2Proof Sys2Proof.Machine Sys2Proof.Laws Sys2Proof.Safety

variable {s : State} {j : Job} {q : BitVec 6} {n : BitVec 16}

theorem exec_stepCmd (q : BitVec 6) (n : BitVec 16) (s : State) : exec (.stepCmd q n) s = .next (stepRow q n s) := rfl
theorem exec_memberIssue (q : BitVec 6) (n : BitVec 16) (r : BitVec 12) (s : State) :
    exec (.memberIssue q n r) s = .next (memberIssue q n r s) := rfl

theorem served_unplaced (h : j.places = false) (s : State) : s.served j = s := by simp [State.served, h]

theorem bind_ok {ε α β : Type} {x : Except ε α} {f : α → Except ε β} {b : β} (h : (x >>= f) = .ok b) : ∃ a, x = .ok a ∧ f a = .ok b := by
  cases x with
  | error e => cases h
  | ok a => exact ⟨a, rfl, h⟩

theorem check_ok {b : Bool} {e : Bad} {u : Unit} (h : check b e = .ok u) : b = true := by
  unfold check at h
  split at h
  · assumption
  · cases h

/-- A STEP that passes its checks has a member. -/
theorem chkStep_nonempty {sids : List Nat} (h : chkStep s j = .ok sids) : sids ≠ [] := by
  obtain ⟨t, -, h⟩ := bind_ok h
  obtain ⟨u, hcheck, h⟩ := bind_ok h
  have hlen : 1 ≤ (if j.members.isEmpty then t.ints s j.ctx else j.members.map Member.sid).length := by
    have := check_ok hcheck
    simp only [Bool.and_eq_true, decide_eq_true_eq] at this
    exact this.1.1
  have hsids : sids = if j.members.isEmpty then t.ints s j.ctx else j.members.map Member.sid := by
    generalize (if j.members.isEmpty then t.ints s j.ctx else j.members.map Member.sid) = l at h
    dsimp only at h
    split at h
    · obtain ⟨_, -, h⟩ := bind_ok h
      obtain ⟨_, -, h⟩ := bind_ok h
      obtain ⟨_, -, h⟩ := bind_ok h
      exact (Except.ok.inj h).symm
    · obtain ⟨_, -, h⟩ := bind_ok h
      obtain ⟨_, -, h⟩ := bind_ok h
      exact (Except.ok.inj h).symm
  rw [hsids]
  exact List.ne_nil_of_length_pos hlen

theorem memberOf_fresh (s : State) (a : Nat) : (memberOf s a).sid = a ∧ (memberOf s a).phase = .waiting := by
  unfold memberOf
  split <;> exact ⟨rfl, rfl⟩

/-- `j` with the members of its set. -/
def withSet (s : State) (j : Job) (sids : List Nat) : Job :=
  { j with members := sids.map (memberOf s), total := sids.length, finished := 0 }

theorem liveSids_withSet (s : State) (j : Job) (sids : List Nat) : (withSet s j sids).liveSids = sids := by
  have hlive : ((sids.map (memberOf s)).filter fun m => m.phase != .ended) = sids.map (memberOf s) := by
    rw [List.filter_eq_self]
    intro m hm
    obtain ⟨a, -, rfl⟩ := List.mem_map.1 hm
    rw [(memberOf_fresh s a).2]
    rfl
  rw [Job.liveSids, withSet, hlive, List.map_map]
  exact (List.map_congr_left fun a _ => (memberOf_fresh s a).1).trans (List.map_id _)

/-- `j` with its wait for a slot over. -/
def seated (j : Job) : Job := { j with slotWait := false, stage := if j.slotWait || j.stage == 1 then 0 else j.stage }

theorem seated_of_not (h : (j.slotWait || j.stage == 1) = false) : seated j = j := by
  have hwait : j.slotWait = false := (Bool.or_eq_false_iff.1 h).1
  rw [seated, h, if_neg Bool.false_ne_true, ← hwait]

/-- With every named sequence in a slot, a command waits for none. -/
theorem unparkAll_seated {sids named : List Nat} (hp : parkedOf s sids = []) :
    unparkAll (s.setJob j) j sids named = (true, s.setJob (seated j)) := by
  have hp' : parkedOf (s.setJob j) sids = [] := hp
  unfold unparkAll
  simp only [hp', List.isEmpty_nil, if_true]
  cases h : j.slotWait || j.stage == 1 with
  | true =>
    rw [if_pos rfl, seated, h, if_pos rfl]
    exact congrArg _ (setJob_setJob s rfl)
  | false => rw [if_neg Bool.false_ne_true, seated_of_not h]

/-- `j` with its members waiting for their issue. -/
def issuing (j : Job) : Job := { j with phase := .running, slotWait := false }

theorem runStep_eq (s : State) (j : Job) (sids : List Nat) : runStep s j sids =
    (withMembers s j sids).withJob j.q j.n fun s j =>
      if !(unparkAll s j j.liveSids j.liveSids).1 then (unparkAll s j j.liveSids j.liveSids).2
      else (unparkAll s j j.liveSids j.liveSids).2.withJob j.q j.n fun s j =>
        settle (trace (s.setJob (issuing j)) 0x02 0 0xFF j.q j.n j.op sids.length) j.q j.n := rfl

/-- A STEP whose members all stand in slots runs. -/
theorem runStep_starts {sids : List Nat} (hoff : s.mon.trOn = false) (hj : s.job j.q j.n = some j) (hm : j.members = [])
    (hp : parkedOf s sids = []) (hne : sids ≠ []) : runStep s j sids = s.setJob (issuing (seated (withSet s j sids))) := by
  have hset : (s.setJob (withSet s j sids)).job j.q j.n = some (withSet s j sids) := job_setJob _ _ _ j _ hj rfl rfl rfl
  have hseat : (s.setJob (seated (withSet s j sids))).job j.q j.n = some (seated (withSet s j sids)) :=
    job_setJob _ _ _ j _ hj rfl rfl rfl
  have hrun : (s.setJob (issuing (seated (withSet s j sids)))).job j.q j.n = some (issuing (seated (withSet s j sids))) :=
    job_setJob _ _ _ j _ hj rfl rfl rfl
  have hwith : withMembers s j sids = s.setJob (withSet s j sids) := by rw [withMembers, hm]; rfl
  have hover : (s.setJob (seated (withSet s j sids))).setJob (issuing (seated (withSet s j sids))) =
      s.setJob (issuing (seated (withSet s j sids))) := setJob_setJob s rfl
  rw [runStep_eq, hwith, withJob_some _ _ _ _ _ hset, liveSids_withSet, unparkAll_seated hp, Bool.not_true, if_neg Bool.false_ne_true]
  refine (withJob_some _ _ _ _ _ hseat).trans ?_
  rw [hover, trace_off]
  · exact settle_unfinished hrun fun h => hne (List.length_eq_zero_iff.1 h.symm)
  · exact hoff

/-- Member `m` as it looks up its slot `y`. -/
def placed (m : Member) (y : Slot) : Member := { m with core := y.core, pos := y.pos }

/-- `j` with member `i` changed. -/
def withMember (j : Job) (i : Nat) (m : Member) : Job := { j with members := j.members.set i m }

theorem setMember_of_job {i : Nat} {m : Member} (f : Member → Member) (hj : s.job j.q j.n = some j) (hm : j.members[i]? = some m) :
    setMember s j.q j.n i f = s.setJob (withMember j i (f m)) := by
  rw [setMember, withJob_some _ _ _ _ _ hj]
  simp only [hm]
  rfl

theorem member_withMember {i : Nat} {m : Member} (hm : j.members[i]? = some m) (m' : Member) : (withMember j i m').members[i]? = some m' := by
  obtain ⟨hlt, -⟩ := List.getElem?_eq_some_iff.1 hm
  exact List.getElem?_set_self hlt

/-- What is done for a member once its pages are reached. -/
def fetchAndIssue (s : State) (j : Job) (x : Ctx) (i : Nat) (m : Member) (k : Nat) (y : Slot) (es : List Entry) : State :=
  let f := fetchMember s j x i m es
  if !f.1 then f.2
  else f.2.withJob j.q j.n fun s j => issueMember (noteLanded s j.q j.n) j i m k y es

/-- What is done for a member whose slot `k` is `IDLE`. -/
def tryIdle (s : State) (j : Job) (i : Nat) (m : Member) (k : Nat) (y : Slot) : State :=
  let s := setMember s j.q j.n i fun m => placed m y
  let x := { j.memberCtx i m.sid with core := y.core }
  match prepProgram s j x with
  | .error b => breakStep s j.q j.n (b.cause, b.detail, b.aux)
  | .ok es =>
    let r := reachMember s j x y (placed m y) es
    if !r.1 then r.2
    else r.2.withJob j.q j.n fun s j =>
      fetchAndIssue s j x i { placed m y with asked := match j.members[i]? with | some m => m.asked | none => false } k y es

theorem tryMember_idle {i k : Nat} {m : Member} {y : Slot} (hrec : seqRec s m.sid = some y) (hpos : y.pos ≠ 4194304)
    (hslot : slotOf s m.sid = some (k, y)) (hst : y.state = 1) (hbusy : seqBusy s m.sid = false) :
    tryMember s j i m = tryIdle s j i m k y := by
  unfold tryMember
  simp only [hrec, beq_eq_false_iff_ne.2 hpos, hslot, hst, hbusy]
  rfl

/-- A member between the checks of its slot and its issue. -/
theorem tryMember_reaches {i k : Nat} {m : Member} {y : Slot} {es : List Entry} (hj : s.job j.q j.n = some j)
    (hm : j.members[i]? = some m) (hrec : seqRec s m.sid = some y) (hpos : y.pos ≠ 4194304) (hslot : slotOf s m.sid = some (k, y))
    (hst : y.state = 1) (hbusy : seqBusy s m.sid = false) :
    let j1 := withMember j i (placed m y)
    let s1 := s.setJob j1
    let x := j1.memberCtx i m.sid
    prepProgram s1 j x = .ok es → reachMember s1 j x y (placed m y) es = (true, s1) → m.asked = true → j.ask = some [] →
      landedOn s1 j1 i y.core = true → s.t0.inj = [] → tryMember s j i m = issueMember s1 j1 i (placed m y) k y es := by
  intro j1 s1 x hprep hreach hasked hask hland hinj
  have hset : setMember s j.q j.n i (fun m => placed m y) = s1 := setMember_of_job (fun m => placed m y) hj hm
  have hx : ({ j.memberCtx i m.sid with core := y.core } : Ctx) = x := by
    simp only [x, Job.memberCtx, j1, member_withMember hm]
    rfl
  have hj1 : s1.job j.q j.n = some j1 := job_setJob _ _ _ j _ hj rfl rfl rfl
  have hm1 : j1.members[i]? = some (placed m y) := member_withMember hm _
  have hmask : ({ placed m y with asked := true } : Member) = placed m y := by rw [placed, ← hasked]
  have hissue : issueReads s1 j1.q j1.n = s1 := issueReads_done s1 _ _ j1 hj1 hask
  have hfetch : fetchMember s1 j1 x i (placed m y) es = (true, s1) := by
    unfold fetchMember
    have hold : (placed m y).asked = true := hasked
    simp only [hold, if_true, hissue, show s1.job j1.q j1.n = some j1 from hj1]
    exact congrArg (·, s1) hland
  have hnote : noteLanded s1 j.q j.n = s1 := by
    have hinj1 : s1.t0.inj = [] := hinj
    rw [noteLanded, hj1]
    simp [hinj1]
  have hdone : fetchAndIssue s1 j1 x i (placed m y) k y es = issueMember s1 j1 i (placed m y) k y es := by
    unfold fetchAndIssue
    simp only [hfetch, Bool.not_true, Bool.false_eq_true, if_false]
    refine (withJob_some _ _ _ _ j1 hj1).trans ?_
    rw [show noteLanded s1 j1.q j1.n = s1 from hnote]
  rw [tryMember_idle hrec hpos hslot hst hbusy, tryIdle, hset]
  simp only [hx, hprep, hreach, Bool.not_true, Bool.false_eq_true, if_false]
  refine (withJob_some _ _ _ _ j1 hj1).trans ?_
  simp only [hm1]
  rw [show (placed m y).asked = true from hasked, hmask]
  exact hdone

/-- What is done for a member whose program has run: what it has left of its need, and what it reports. -/
def ranMember (tok : Bool) (l : Layers) (neap : Bool) (m : Member) : Member :=
  { m with
    phase := .issued
    frames := (l.s.pg.allot.getD ([], [])).1
    descs := (l.s.pg.allot.getD ([], [])).2
    token := tok
    rep := l.rep
    floor := l.floor
    masked := l.masked
    bad := l.bad
    poison := l.poison
    neap := neap }

/-- The state of a command whose member `i` has run. -/
def ranLayers (l : Layers) (j : Job) (i : Nat) : State :=
  ({ l.s with pg := { l.s.pg with allot := none } } : State).withJob j.q j.n fun s j =>
    s.setJob { j with fetched := j.fetched.filter fun f => f.unit != i }

/-- A member whose pages are not to be had stalls. -/
theorem issueMember_dry {i k : Nat} {m : Member} {y : Slot} {es : List Entry}
    (h : takeNeed s j i m.core (max m.need (pageNeed s (memberWrites s (j.memberCtx i m.sid) y es))) = none) :
    issueMember s j i m k y es = setMember s j.q j.n i fun a =>
      { a with phase := .dry, need := max m.need (pageNeed s (memberWrites s (j.memberCtx i m.sid) y es)) } := by
  unfold issueMember
  simp only [h]

/-- A member that has its pages runs its program. -/
theorem issueMember_runs {i k : Nat} {m : Member} {y : Slot} {es : List Entry} {tok : Bool} {fs ds : List Nat} {s2 : State} {l : Layers}
    (h : takeNeed s j i m.core (max m.need (pageNeed s (memberWrites s (j.memberCtx i m.sid) y es))) = some (tok, fs, ds, s2)) :
    let s3 := setSlotState s2 k y 2
    runEntries j.q j.n m.core y j (programOf s j.cmd).zipIdx
        ⟨{ s3 with pg := { s3.pg with allot := some (fs, ds) } }, j.memberCtx i m.sid, Rep.nil, 0, 0, 0, false⟩ = .ok l →
      ∃ b, issueMember s j i m k y es = pumpWrites (setMember (ranLayers l j i) j.q j.n i (ranMember tok l b)) := by
  intro s3 hrun
  unfold issueMember
  simp only [h]
  rw [hrun]
  exact ⟨_, rfl⟩

/-- Settles O31, by the way of a member from its slot to its issue. -/
theorem stepsIssueTheirMembers : Obligations.StepsIssueTheirMembers := by
  unfold Obligations.StepsIssueTheirMembers
  refine ⟨?_, ?_⟩
  · intro q n s j sids hquiet hstart ht
    have hplaces : j.places = false := by simp [Job.places, Job.plain, ht.2]
    refine ⟨fun b hb => ?_, fun hok hm hp => ?_⟩
    · rw [exec_stepCmd, stepRow, startRow_error _ _ _ _ j b _ _ ht.1 ht.2 hstart hb]
    · rw [exec_stepCmd, stepRow, startRow_ok _ _ _ _ j sids _ _ ht.1 ht.2 hstart hok, served_unplaced hplaces,
        runStep_starts hquiet.1 (job_taken ht) hm hp (chkStep_nonempty hok)]
      rfl
  · intro q n r s j m y k ha ht hp hm hmp hstop hrec
    have hj := job_taken ht
    have hphase : (m.phase == .waiting || m.phase == .dry) = true := by
      rcases hmp with h | h <;> rw [h] <;> rfl
    have hrow : exec (.memberIssue q n r) s = .next (if actBefore s j.take m.sid then s else tryMember s j r.toNat m) := by
      rw [exec_memberIssue, memberIssue, withJob_some _ _ _ _ _ ht.1]
      simp [hm, ht.2, hp, hphase, awake_of_awake ha, hstop]
    refine ⟨fun hact => ?_, fun hact hpos => ?_, fun hact hpos hslot hst hbusy => ?_⟩
    · rw [hrow, if_pos hact]
    · rw [hrow, if_neg (by simp [hact]), tryMember]
      simp [hrec, hpos]
    · intro m1 j1 s1 x es hprep hreach hasked hask hland hinj need
      have htry := tryMember_reaches hj hm hrec hpos hslot hst hbusy hprep hreach hasked hask hland hinj
      have hj1 : s1.job j1.q j1.n = some j1 := job_setJob _ _ _ j _ hj rfl rfl rfl
      rw [hrow, if_neg (by simp [hact]), htry]
      refine ⟨fun hneed => ?_, fun tok fs ds s2 l hneed => ?_⟩
      · rw [issueMember_dry hneed]
        refine congrArg _ ((setMember_of_job _ hj1 (member_withMember hm _)).trans ?_)
        refine (setJob_setJob s (j := j1) (k := withMember j1 r.toNat { m1 with phase := .dry, need := need }) rfl).trans (congrArg s.setJob ?_)
        exact congrArg (fun l => ({ j with members := l } : Job)) (List.set_set ..)
      · intro s3 hrun s4
        obtain ⟨b, hb⟩ := issueMember_runs (s := s1) (j := j1) (i := r.toNat) (k := k) (m := m1) (y := y) (es := es) hneed hrun
        exact ⟨b, congrArg _ hb⟩

end Sys2Proof.Proofs
end

section
set_option Elab.async false
/-! The commits and the ends of a STEP's members (09 R302, R304; 10 R331). -/
namespace Sys2Proof.Proofs
open Sys2Proof Sys2Proof.Machine Sys2Proof.Laws Sys2Proof.Safety

variable {s : State} {j : Job} {m : Member} {x : Slot} {i k : Nat}

/-- The first entry of a table that satisfies `p` stays the first when it is rewritten. -/
theorem find?_put {α : Type} {p : Nat × α → Bool} {t : Tab α} {k : Nat} {a b : α} (h : t.find? p = some (k, a)) (hb : p (k, b) = true) :
    (Tab.put t k b).find? p = some (k, b) := by
  induction t with
  | nil => cases h
  | cons e t ih =>
    obtain ⟨c, d⟩ := e
    rw [Tab.put]
    rw [List.find?_cons] at h
    by_cases hlt : k < c
    · rw [if_pos hlt, List.find?_cons, hb]
    · rw [if_neg hlt]
      by_cases heq : k = c
      · rw [if_pos heq, List.find?_cons, hb]
      · rw [if_neg heq, List.find?_cons]
        cases hp : p (c, d) with
        | true =>
          rw [hp] at h
          exact absurd (congrArg Prod.fst (Option.some.inj h)).symm heq
        | false =>
          rw [hp] at h
          exact ih h

/-- `s` with the record `x` in slot `k`. -/
def withSlot (s : State) (k : Nat) (x : Slot) : State := { s with slots := { s.slots with recs := s.slots.recs.put k x } }

theorem slotOf_names {sid : Nat} (h : slotOf s sid = some (k, x)) : x.state ≠ 0 ∧ x.sid = sid := by
  have := List.find?_some h
  simpa using this

theorem slotOf_withSlot {sid : Nat} (h : slotOf s sid = some (k, x)) {y : Slot} (hs : y.state ≠ 0) (hy : y.sid = x.sid) :
    slotOf (withSlot s k y) sid = some (k, y) :=
  find?_put h (by simp [hs, hy, (slotOf_names h).2])

theorem seqRec_of_slot {sid : Nat} (h : slotOf s sid = some (k, x)) : seqRec s sid = some x := by rw [seqRec, h]

theorem putSeq_of_slot {sid : Nat} (h : slotOf s sid = some (k, x)) (y : Slot) : putSeq s sid y = withSlot s k y := by
  rw [putSeq, h]
  rfl

/-- Member `m` with its outcome. -/
def endedMember (m : Member) (outcome pos : Nat) : Member :=
  { m with phase := .ended, outcome := outcome, pos := pos, frames := [], descs := [], token := false }

/-- `j` with the end of member `i` noted. -/
def memberNoted (j : Job) (i : Nat) (m : Member) (outcome pos : Nat) : Job :=
  { j with
    slotWait := false
    stage := if j.op == 0x09 then 0 else j.stage
    members := j.members.set i (endedMember m outcome pos) }

/-- `j` with the outcome of member `i`. -/
def memberEnded (j : Job) (i : Nat) (m : Member) (outcome pos : Nat) : Job := (memberNoted j i m outcome pos).memberEnds i outcome

theorem mark_keeps (k : Job) (st : Nat) : (k.mark st).take = k.take ∧ (k.mark st).q = k.q ∧ (k.mark st).n = k.n ∧ (k.mark st).fl = k.fl ∧
    (k.mark st).finished = k.finished ∧ (k.mark st).members = k.members ∧ (k.mark st).op = k.op := by
  unfold Job.mark
  split <;> exact ⟨rfl, rfl, rfl, rfl, rfl, rfl, rfl⟩

theorem memberEnds_step {k : Job} (h : k.op = 0x09) (i outcome : Nat) : (k.memberEnds i outcome).take = k.take ∧
    (k.memberEnds i outcome).q = k.q ∧ (k.memberEnds i outcome).n = k.n ∧ (k.memberEnds i outcome).fl = k.fl ∧
    (k.memberEnds i outcome).finished = k.finished + 1 ∧ (k.memberEnds i outcome).members = k.members := by
  have hmarked : ∃ k', (if outcome == 0 then k else k.mark (if outcome == 2 then 1 else 6)) = k' ∧ k'.take = k.take ∧ k'.q = k.q ∧
      k'.n = k.n ∧ k'.fl = k.fl ∧ k'.finished = k.finished ∧ k'.members = k.members ∧ k'.op = k.op := by
    split
    · exact ⟨k, rfl, rfl, rfl, rfl, rfl, rfl, rfl, rfl⟩
    · exact ⟨_, rfl, mark_keeps ..⟩
  obtain ⟨k', hk', h1, h2, h3, h4, h5, h6, h7⟩ := hmarked
  have hop : (k'.op == 0x0A) = false := by rw [h7, h]; rfl
  unfold Job.memberEnds
  simp only [hk', hop, Bool.false_eq_true, if_false]
  exact ⟨h1, h2, h3, h4, congrArg (· + 1) h5, h6⟩

/-- What the end of a member of a STEP leaves of its command. -/
theorem memberEnded_step (h : j.op = 0x09) (i : Nat) (m : Member) (outcome pos : Nat) :
    (memberEnded j i m outcome pos).take = j.take ∧ (memberEnded j i m outcome pos).q = j.q ∧ (memberEnded j i m outcome pos).n = j.n ∧
      (memberEnded j i m outcome pos).fl = j.fl ∧ (memberEnded j i m outcome pos).finished = j.finished + 1 ∧
      (memberEnded j i m outcome pos).members = j.members.set i (endedMember m outcome pos) :=
  memberEnds_step (k := memberNoted j i m outcome pos) h i outcome

/-- What the last act of a member's end does: its command has the outcome. -/
def giveOutcome (s : State) (q n i : Nat) (m : Member) (outcome : Nat) : State :=
  s.withJob q n fun s' j =>
    s'.setJob (memberEnded j i m outcome (match seqRec s m.sid with | some x => x.pos | none => m.pos))

theorem endMember_eq {outcome : Nat} (hj : s.job j.q j.n = some j) (hm : j.members[i]? = some m) (hp : m.phase ≠ .ended)
    (hf : m.frames = []) (hd : m.descs = []) (ht : m.token = false) : endMember s j.q j.n i outcome =
      let s1 := if m.phase == .issued then s else sinkUnits s j (j.memberPart i)
      giveOutcome (match slotOf s1 m.sid with
        | some (k, x) => if x.state == 2 && m.phase == .issued && j.op == 0x09 then setSlotState s1 k x 1 else s1
        | none => s1) j.q j.n i m outcome := by
  rw [endMember, withJob_some _ _ _ _ _ hj]
  simp only [hm, beq_eq_false_iff_ne.2 hp, returnNeed, hf, hd, ht, List.foldl_nil, Bool.false_eq_true, if_false]
  rfl

theorem setSlotState_idle (hoff : s.mon.trOn = false) (k : Nat) (x : Slot) :
    setSlotState s k x 1 = { s with slots := { s.slots with
      recs := s.slots.recs.put k { x with state := 1 }
      transit := s.slots.transit.erase k } } := by
  unfold setSlotState
  rw [trace_off]
  · rfl
  · exact hoff

/-- A member that has run ends: its slot is `IDLE`. -/
theorem endMember_issued {outcome : Nat} (hoff : s.mon.trOn = false) (hj : s.job j.q j.n = some j) (hm : j.members[i]? = some m)
    (hp : m.phase = .issued) (hf : m.frames = []) (hd : m.descs = []) (ht : m.token = false) (hop : j.op = 0x09)
    (hslot : slotOf s m.sid = some (k, x)) (hst : x.state = 2) :
    endMember s j.q j.n i outcome = (setSlotState s k x 1).setJob (memberEnded j i m outcome x.pos) := by
  have hidle : slotOf (setSlotState s k x 1) m.sid = some (k, { x with state := 1 }) := by
    rw [setSlotState_idle hoff]
    exact slotOf_withSlot hslot (y := { x with state := 1 }) (by simp) rfl
  have hj' : (setSlotState s k x 1).job j.q j.n = some j := by
    rw [setSlotState_idle hoff]
    exact hj
  rw [endMember_eq hj hm (by rw [hp]; simp) hf hd ht]
  simp only [hp, hop, beq_self_eq_true, if_true, hslot, hst, Bool.and_self]
  rw [giveOutcome, withJob_some _ _ _ _ _ hj', seqRec_of_slot hidle]

/-- `j` without the transfers and the fetched bytes of some of its parts. -/
def sunkParts (j : Job) (mine : Nat → Bool) : Job :=
  { j with
    ask := j.ask.map fun a => a.filter fun p => !mine p.unit
    fetched := j.fetched.filter fun f => !mine f.unit
    waste := sat32 j.waste ((j.fetched.filter fun f => mine f.unit).foldl (fun a f => a + f.data.length) 0) }

theorem foldl_count_eq {β : Type} (core slot d : β → Nat) (l : List β) (s : State) :
    ∃ str, l.foldl (fun s x => count s (core x) (slot x) (d x)) s = { s with str := str } := by
  induction l generalizing s with
  | nil => exact ⟨_, rfl⟩
  | cons x l ih =>
    obtain ⟨str, h⟩ := ih (count s (core x) (slot x) (d x))
    exact ⟨str, by rw [List.foldl_cons, h, count_eq]⟩

theorem ask_of_nothingWaits (h : NothingWaits s) (hj : j ∈ s.jobs) (f : List Piece → List Piece) (hf : f [] = []) :
    j.ask.map f = j.ask := by
  have hask := ((nothingWaits_iff s).1 h).1 j hj
  cases ha : j.ask with
  | none => rfl
  | some a =>
    rw [ha] at hask
    have : a = [] := by simpa using hask.2
    rw [this, Option.map_some, hf]

/-- A transfer reads some of a command's parts. -/
def readsOf (j : Job) (mine : Nat → Bool) (u : TagFor) : Bool :=
  match u with
  | .fetch q n v => q == j.q && n == j.n && mine v
  | _ => false

theorem sinkUnits_eq (s : State) (j : Job) (mine : Nat → Bool) : sinkUnits s j mine =
    (sinkTags (((j.fetched.filter fun f => mine f.unit).foldl (fun s f => count s f.core 10 f.data.length) s).withJob j.q j.n fun s j =>
      s.setJob { j with ask := j.ask.map fun a => a.filter fun p => !mine p.unit }) (readsOf j mine)).withJob j.q j.n fun s k =>
        s.setJob { k with
          fetched := k.fetched.filter fun f => !mine f.unit
          waste := sat32 k.waste ((j.fetched.filter fun f => mine f.unit).foldl (fun a f => a + f.data.length) 0) } := rfl

/-- With no transfer waiting, a part's fetches sink quietly. -/
theorem sinkUnits_idle (hw : NothingWaits s) (hj : s.job j.q j.n = some j) (mine : Nat → Bool) :
    ∃ str, sinkUnits s j mine = { s.setJob (sunkParts j mine) with str := str } := by
  have hmem := (job_mem hj).1
  have hask := ask_of_nothingWaits hw hmem (fun a => a.filter fun p => !mine p.unit) rfl
  obtain ⟨str, hcount⟩ := foldl_count_eq (fun f => f.core) (fun _ => 10) (fun f => f.data.length)
    (j.fetched.filter fun f => mine f.unit) s
  let k : Job := { j with ask := j.ask.map fun a => a.filter fun p => !mine p.unit }
  have hj1 : ({ s with str := str } : State).job j.q j.n = some j := hj
  have hk : (s.setJob k).job j.q j.n = some k := job_setJob _ _ _ j _ hj rfl rfl rfl
  have hwk : NothingWaits (s.setJob k) := nothingWaits_setJob hw hmem rfl hask
  have hpump : ∀ str', pumpWrites { s.setJob k with str := str' } = { s.setJob k with str := str' } := fun str' =>
    pumpWrites_idle (nothingWaits_of hwk)
  rw [sinkUnits_eq, hcount, withJob_some _ _ _ _ _ hj1]
  obtain ⟨str', hsink⟩ : ∃ str', sinkTags (({ s with str := str } : State).setJob k) (readsOf j mine) = { s.setJob k with str := str' } :=
    ⟨_, hpump _⟩
  have hk' : ({ s.setJob k with str := str' } : State).job j.q j.n = some k := hk
  refine ⟨str', ?_⟩
  change (sinkTags (({ s with str := str } : State).setJob k) (readsOf j mine)).withJob j.q j.n _ = _
  rw [hsink, withJob_some _ _ _ _ k hk']
  exact congrArg (fun t : State => { t with str := str' }) (setJob_setJob s (j := k) (k := sunkParts j mine) rfl)

/-- A command whose last act may end it keeps its members and flags; with capture off no memory changes. -/
theorem settle_keepsMembers {q n : Nat} (hoff : s.mon.trOn = false) (hj : s.job q n = some j) :
    ∃ y, (settle s q n).job q n = some y ∧ y.members = j.members ∧ y.fl = j.fl ∧ y.finished = j.finished ∧
      settle s q n = { s with jobs := (settle s q n).jobs, flt := (settle s q n).flt, evt := (settle s q n).evt } ∧
      (settle s q n).flt.count = s.flt.count := by
  obtain ⟨hq, hn⟩ := job_names _ _ _ _ hj
  rw [settle, withJob_some _ _ _ _ _ hj]
  split
  · split
    · rename_i f hf
      have hviol : ∃ flt evt, (if j.vlogged then s else viol s j.loc f.1 f.2.1 f.2.2) = { s with flt := flt, evt := evt } ∧
          flt.count = s.flt.count := by
        split
        · exact ⟨_, _, rfl, rfl⟩
        · exact ⟨_, _, viol_traceless s _ _ _ _ hoff, by rw [viol_flt]; rfl⟩
      obtain ⟨flt, evt, hs, hcount⟩ := hviol
      obtain ⟨h1, h2, h3, h4, h5, h6, -⟩ := mark_keeps j 4
      rw [malform, hs]
      exact ⟨_, job_setJob _ _ _ j _ hj h1 (h2.trans hq) (h3.trans hn), h6, h4, h5, rfl, hcount⟩
    · exact ⟨_, job_setJob _ _ _ j _ hj rfl hq hn, rfl, rfl, rfl, rfl, rfl⟩
  · exact ⟨j, hj, rfl, rfl, rfl, rfl, rfl⟩

/-- A member that stalls ends: what it fetched sinks. -/
theorem endMember_dry {outcome : Nat} (hw : NothingWaits s) (hj : s.job j.q j.n = some j) (hm : j.members[i]? = some m)
    (hp : m.phase = .dry) (hf : m.frames = []) (hd : m.descs = []) (ht : m.token = false) (hop : j.op = 0x09)
    (hslot : slotOf s m.sid = some (k, x)) :
    ∃ str, endMember s j.q j.n i outcome =
      { s.setJob (memberEnded (sunkParts j (j.memberPart i)) i m outcome x.pos) with str := str } := by
  obtain ⟨str, hsink⟩ := sinkUnits_idle hw hj (j.memberPart i)
  have hk : ({ s.setJob (sunkParts j (j.memberPart i)) with str := str } : State).job j.q j.n = some (sunkParts j (j.memberPart i)) :=
    job_setJob s _ _ j _ hj rfl rfl rfl
  have hslot' : slotOf { s.setJob (sunkParts j (j.memberPart i)) with str := str } m.sid = some (k, x) := hslot
  refine ⟨str, ?_⟩
  rw [endMember_eq hj hm (by rw [hp]; simp) hf hd ht]
  have hpi : (m.phase == .issued) = false := by rw [hp]; rfl
  simp only [hpi, Bool.false_eq_true, if_false, hsink, hslot', Bool.and_false, Bool.false_and]
  rw [giveOutcome, withJob_some _ _ _ _ _ hk, seqRec_of_slot hslot']
  exact congrArg (fun t : State => { t with str := str })
    (setJob_setJob s (j := sunkParts j (j.memberPart i)) (k := memberEnded (sunkParts j (j.memberPart i)) i m outcome x.pos)
      (memberEnded_step (j := sunkParts j (j.memberPart i)) hop i m outcome x.pos).1)

/-- The record of a member whose step has committed. -/
def stepped (s : State) (x : Slot) (m : Member) : Slot :=
  { x with sel := !x.sel, pos := x.pos + 1, lastLt := s.life.lt, halt := false, poison := x.poison || m.poison }

/-- `j` with what a member reports. -/
def reportedIn (j : Job) (m : Member) : Job := { j with fl := j.fl ||| m.rep.fl, poison := sat32 j.poison m.bad }

/-- `s` with a member's flags and counts reported. -/
def reportedOf (s : State) (j : Job) (m : Member) : State :=
  count (count (report s j.loc m.core m.rep) m.core 12 m.floor) m.core 13 m.masked

theorem reportedOf_eq (s : State) (j : Job) (m : Member) :
    ∃ flg evt str, reportedOf s j m = { s with flg := flg, evt := evt, str := str } ∧ flg.eng = s.flg.eng ||| m.rep.fl := by
  have hrep := report_eq s j.loc m.core m.rep
  refine ⟨(report s j.loc m.core m.rep).flg, (report s j.loc m.core m.rep).evt, (reportedOf s j m).str, ?_, report_eng ..⟩
  have hcount : reportedOf s j m = { report s j.loc m.core m.rep with str := (reportedOf s j m).str } := by
    rw [reportedOf]
    exact (count_eq ..).trans (congrArg (fun t : State => { t with str := (reportedOf s j m).str }) (count_eq (report s j.loc m.core m.rep) ..))
  conv => lhs; rw [hcount, hrep]

theorem commitMember_eq (s : State) (j : Job) (i : Nat) (m : Member) (h : slotOf s m.sid = some (k, x)) : commitMember s j i m =
    settle (endMember ((reportedOf (withSlot s k (stepped s x m)) j m).withJob j.q j.n fun s j => s.setJob (reportedIn j m))
      j.q j.n i (if m.missed then 2 else 0)) j.q j.n := by
  unfold commitMember
  rw [seqRec_of_slot h]
  dsimp only
  rw [putSeq_of_slot h]
  rfl

theorem missMembers_noDl (hj : s.job j.q j.n = some j) (h : j.noDl = true) : missMembers s j.q j.n = s := by
  have hd : ∀ m : Member, memberDeadline s j m = 0 := fun m => by simp [memberDeadline, h]
  rw [missMembers, withJob_some _ _ _ _ _ hj]
  generalize List.range j.members.length = l
  induction l with
  | nil => rfl
  | cons i l ih =>
    rw [List.foldl_cons, withJob_some _ _ _ _ _ hj]
    split
    · exact ih
    · simpa [hd] using ih

theorem settle_issued {q n : Nat} (hj : s.job q n = some j) (hm : j.members[i]? = some m) (hp : m.phase = .issued) : settle s q n = s := by
  have hall : (j.members.all fun m => m.phase == .ended) = false :=
    List.all_eq_false.2 ⟨m, List.mem_of_getElem? hm, by rw [hp]; decide⟩
  rw [settle, withJob_some _ _ _ _ _ hj, hall]
  simp

theorem exec_memberCommit (q : BitVec 6) (n : BitVec 16) (r : BitVec 12) (s : State) :
    exec (.memberCommit q n r) s = .next (memberCommit q n r s) := rfl
theorem exec_pageExhausted (q : BitVec 6) (n : BitVec 16) (r : BitVec 12) (s : State) :
    exec (.pageExhausted q n r) s = .next (pageExhausted q n r s) := rfl

/-- Without deadlines, MEMBER_COMMIT commits a member that has run. -/
theorem memberCommit_commits {q : BitVec 6} {n : BitVec 16} {r : BitVec 12} (ht : Taken s q n 0x09 j) (hp : j.phase = .running)
    (hdl : j.noDl = true) (hm : j.members[r.toNat]? = some m) (hmp : m.phase = .issued) :
    memberCommit q n r s = commitMember s j r.toNat m := by
  obtain ⟨hq, hn⟩ := job_names _ _ _ _ ht.1
  have hfirst : (s.withJob q.toNat n.toNat fun s j => if j.op == 0x09 && j.phase == .running then
      settle (missMembers s j.q j.n) j.q j.n else s) = s := by
    rw [withJob_some _ _ _ _ _ ht.1, ht.2, hp, missMembers_noDl (job_taken ht) hdl, settle_issued (job_taken ht) hm hmp]
    rfl
  rw [memberCommit, hfirst, withJob_some _ _ _ _ _ ht.1, hm]
  simp [ht.2, hmp]

/-- The record of a member that is halted. -/
def haltedRec (x : Slot) : Slot := { x with halt := true }

theorem exhaust_eq (s : State) (j : Job) (i : Nat) (m : Member) (h : slotOf s m.sid = some (k, x)) : exhaust s j i m =
    settle (endMember (fault (withSlot s k (haltedRec x)) 2 1 m.core false j.loc m.sid m.need) j.q j.n i 4) j.q j.n := by
  unfold exhaust
  rw [seqRec_of_slot h]
  dsimp only
  rw [putSeq_of_slot h]
  rfl

/-- Settles O32, by the end of a member that has run and of one that stalls. -/
theorem membersCommitOrAreHalted : Obligations.MembersCommitOrAreHalted := by
  unfold Obligations.MembersCommitOrAreHalted
  refine ⟨?_, ?_⟩
  · intro q n r s j m x k ht hoff hp hdl hm hmp hf hd htok hslot hst
    obtain ⟨hq, hn⟩ := job_names _ _ _ _ ht.1
    obtain ⟨hxs, hxsid⟩ := slotOf_names hslot
    obtain ⟨flg, evt, str, hrep, heng⟩ := reportedOf_eq (withSlot s k (stepped s x m)) j m
    let s3 : State := ({ withSlot s k (stepped s x m) with flg := flg, evt := evt, str := str } : State).setJob (reportedIn j m)
    have hj3 : s3.job (reportedIn j m).q (reportedIn j m).n = some (reportedIn j m) := job_setJob _ _ _ j _ (job_taken ht) rfl rfl rfl
    have hslot3 : slotOf s3 m.sid = some (k, stepped s x m) := slotOf_withSlot hslot hxs rfl
    have hend := endMember_issued (s := s3) (j := reportedIn j m) (i := r.toNat) (outcome := if m.missed then 2 else 0) hoff hj3 hm hmp hf hd
      htok ht.2 hslot3 hst
    obtain ⟨h1, h2, h3, h4, h5, h6⟩ := memberEnded_step (j := reportedIn j m) ht.2 r.toNat m (if m.missed then 2 else 0) (x.pos + 1)
    have hcommit : memberCommit q n r s = settle ((setSlotState s3 k (stepped s x m) 1).setJob
        (memberEnded (reportedIn j m) r.toNat m (if m.missed then 2 else 0) (x.pos + 1))) j.q j.n := by
      rw [memberCommit_commits ht hp hdl hm hmp, commitMember_eq s j r.toNat m hslot, hrep]
      have hj2 : ({ withSlot s k (stepped s x m) with flg := flg, evt := evt, str := str } : State).job j.q j.n = some j := job_taken ht
      rw [withJob_some _ _ _ _ _ hj2]
      exact congrArg (fun t => settle t j.q j.n) hend
    rw [setSlotState_idle (s := s3) hoff] at hcommit
    have hjob : ∀ slots, ((({ s3 with slots := slots } : State).setJob
        (memberEnded (reportedIn j m) r.toNat m (if m.missed then 2 else 0) (x.pos + 1))).job j.q j.n) =
        some (memberEnded (reportedIn j m) r.toNat m (if m.missed then 2 else 0) (x.pos + 1)) := fun slots =>
      job_setJob _ _ _ (reportedIn j m) _ hj3 h1 h2 h3
    obtain ⟨y, hy, hym, hyf, hyn, hframe, -⟩ := settle_keepsMembers (by exact hoff) (hjob _)
    rw [← hcommit] at hy hframe
    rw [exec_memberCommit]
    refine ⟨_, y, rfl, ?_, by rw [← hq, ← hn]; exact hy, hyn.trans h5, hyf.trans h4, ?_, ?_, ?_, ?_, ?_, ?_, ?_⟩
    · rw [hframe]
      exact find_put_self ..
    · rw [hym, h6]
      obtain ⟨hlt, -⟩ := List.getElem?_eq_some_iff.1 hm
      refine (List.getElem?_set_self hlt).trans ?_
      simp [endedMember, hf, hd, htok]
    · rw [hframe]
      exact heng
    all_goals rw [hframe]; rfl
  · intro q n r s j
    refine ⟨?_, ?_⟩
    · intro m k x ht hm hmp hoff hf hd htok hslot hw hnone
      obtain ⟨hq, hn⟩ := job_names _ _ _ _ ht.1
      obtain ⟨hxs, -⟩ := slotOf_names hslot
      obtain ⟨flt, evt, hfault, hcount⟩ : ∃ flt evt, fault (withSlot s k (haltedRec x)) 2 1 m.core false j.loc m.sid m.need =
          { withSlot s k (haltedRec x) with flt := flt, evt := evt } ∧ flt.count = (countFault s.flt 2).count := by
        obtain ⟨ht1, hmon⟩ := fault_traceOff (withSlot s k (haltedRec x)) 2 1 m.core false j.loc m.sid m.need hoff
        refine ⟨(fault (withSlot s k (haltedRec x)) 2 1 m.core false j.loc m.sid m.need).flt,
          (fault (withSlot s k (haltedRec x)) 2 1 m.core false j.loc m.sid m.need).evt, ?_,
          (fault_counts (withSlot s k (haltedRec x)) 2 1 m.core false j.loc m.sid m.need).1⟩
        conv => lhs; rw [fault_eq, ht1, hmon]
      let s2 : State := { withSlot s k (haltedRec x) with flt := flt, evt := evt }
      have hslot2 : slotOf s2 m.sid = some (k, haltedRec x) := slotOf_withSlot hslot hxs rfl
      obtain ⟨str, hend⟩ := endMember_dry (s := s2) (i := r.toNat) (outcome := 4) (nothingWaits_of hw) (job_taken ht) hm hmp hf hd htok ht.2 hslot2
      obtain ⟨h1, h2, h3, h4, h5, h6⟩ := memberEnded_step (j := sunkParts j (j.memberPart r.toNat)) ht.2 r.toNat m 4 (haltedRec x).pos
      have hrow : pageExhausted q n r s = settle { s2.setJob (memberEnded (sunkParts j (j.memberPart r.toNat)) r.toNat m 4 (haltedRec x).pos) with
          str := str } j.q j.n := by
        rw [pageExhausted, withJob_some _ _ _ _ _ ht.1, ht.2, hm]
        dsimp only
        rw [beq_self_eq_true, if_pos rfl, hmp, beq_self_eq_true, Bool.true_and, if_pos hnone, exhaust_eq s j r.toNat m hslot, hfault]
        exact congrArg (fun t => settle t j.q j.n) hend
      have hjob : ({ s2.setJob (memberEnded (sunkParts j (j.memberPart r.toNat)) r.toNat m 4 (haltedRec x).pos) with str := str } : State).job
          j.q j.n = some (memberEnded (sunkParts j (j.memberPart r.toNat)) r.toNat m 4 (haltedRec x).pos) :=
        job_setJob _ _ _ j _ (job_taken ht) h1 h2 h3
      obtain ⟨y, hy, hym, -, -, hframe, hkeep⟩ := settle_keepsMembers (by exact hoff) hjob
      rw [← hrow] at hy hframe hkeep
      rw [exec_pageExhausted]
      refine ⟨_, y, rfl, ?_, ?_, by rw [← hq, ← hn]; exact hy, ?_, ?_, ?_⟩
      · rw [hframe]
        exact find_put_self ..
      · rw [hkeep]
        refine (congrArg (fun c : Tab Nat => c.get 2 0) hcount).trans ?_
        exact get_put_self ..
      · rw [hym, h6]
        obtain ⟨hlt, -⟩ := List.getElem?_eq_some_iff.1 hm
        refine (List.getElem?_set_self hlt).trans ?_
        simp [endedMember, hf, hd, htok, haltedRec]
      · rw [hframe]
        rfl
      · rw [hframe]
        rfl
    · intro hj hop hdry hno hfree hph
      have hop' : (j.op == 0x09) = false := beq_eq_false_iff_ne.2 hop
      have hfree' : (s.pg.free == 0 || s.pg.descFree == 0) = true := by simpa using hfree
      rw [exec_pageExhausted, pageExhausted, withJob_some _ _ _ _ _ hj]
      simp [hop', hdry, hno, hfree', hph]

end Sys2Proof.Proofs
end

section
set_option Elab.async false
/-! ADMIT: the pieces that build a sequence, and its record (09 R279-R290). -/
namespace Sys2Proof.Proofs
open Sys2Proof Sys2Proof.Machine Sys2Proof.Laws Sys2Proof.Safety

variable {a s t : State} {j : Job} {x : Slot} {root fam vpn kind d ea na k : Nat}

theorem exec_admitCmd (q : BitVec 6) (n : BitVec 16) (s : State) : exec (.admitCmd q n) s = .next (admitRow q n s) := rfl
theorem exec_slotWaitEnd (q : BitVec 6) (n : BitVec 16) (s : State) : exec (.slotWaitEnd q n) s = .next (slotWaitEnd q n s) := rfl

/-- `s` differs from `a` in T1 and in the page unit alone. -/
def Builds (a s : State) : Prop := s = { a with t1 := s.t1, pg := s.pg }

theorem Builds.refl (a : State) : Builds a a := rfl

theorem Builds.trans (h : Builds a s) (h' : Builds s t) : Builds a t := by
  unfold Builds at *
  conv => lhs; rw [h']
  conv => lhs; rw [h]

theorem Builds.with (h : Builds a s) (t1 : PMem) (pg) : Builds a { s with t1 := t1, pg := pg } := by
  unfold Builds at *
  conv => lhs; rw [h]

theorem wr_builds (h : Builds a s) (p : Nat) (bs : List Byte) : Builds a (s.wr p bs) := h.with ..

theorem wrNum_builds (h : Builds a s) (p n x : Nat) : Builds a (s.wrNum p n x) := h.with ..

theorem putDesc_builds (h : Builds a s) (d : Nat) (x : Desc) : Builds a (putDesc s d x) := h.with ..

theorem putSide_builds (h : Builds a s) (d x : Nat) : Builds a (putSide s d x) := by
  unfold putSide
  split
  · exact wrNum_builds h ..
  · exact h

theorem putNodeCount_builds (h : Builds a s) (na n : Nat) : Builds a (putNodeCount s na n) := wrNum_builds h ..

theorem addCount_builds (h : Builds a s) (d k : Nat) : Builds a (addCount s d k) := putDesc_builds h ..

theorem popDesc_builds (h : Builds a s) (e : popDesc s = some (d, t)) : Builds a t := by
  unfold popDesc at e
  split at e
  · cases e
    exact h.with ..
  · cases e
  · split at e
    · cases e
    · cases e
      exact h.with ..

theorem popFrame_builds (h : Builds a s) (e : popFrame s = some (d, t)) : Builds a t := by
  unfold popFrame at e
  split at e
  · cases e
    exact h.with ..
  · cases e
  · split at e
    · cases e
    · cases e
      exact h.with ..

theorem allocPage_builds (h : Builds a s) (e : allocPage s fam kind = some (d, t)) : Builds a t := by
  unfold allocPage at e
  split at e
  · cases e
  · next d1 s1 hd =>
    split at e
    · cases e
    · next f s2 hf =>
      cases e
      exact putSide_builds ((putDesc_builds (popFrame_builds (popDesc_builds h hd) hf) ..).with ..) ..

theorem takeUnit_builds (h : Builds a s) (fam na : Nat) : Builds a (takeUnit s fam na) := (wrNum_builds h ..).with ..

theorem newNode_builds (h : Builds a s) (e : newNode s fam = some (na, t)) : Builds a t := by
  unfold newNode at e
  split at e
  · cases e
    exact takeUnit_builds h ..
  · split at e
    · cases e
    · next d1 s1 hd =>
      cases e
      exact takeUnit_builds ((allocPage_builds h hd).with ..) ..

theorem foldl_builds {β : Type} {f : State → β → State} (l : List β) (hf : ∀ s x, Builds a s → Builds a (f s x)) (h : Builds a s) :
    Builds a (l.foldl f s) := by
  induction l generalizing s with
  | nil => exact h
  | cons x l ih => exact ih (hf s x h)

theorem ownNode_builds {leaf : Bool} {nb : Nat} (h : Builds a s) (e : ownNode s fam leaf na = some (nb, t)) : Builds a t := by
  unfold ownNode at e
  split at e
  · cases e
    exact h
  · split at e
    · cases e
    · next nb' s1 hn =>
      cases e
      refine foldl_builds _ (fun s i hs => ?_) (putNodeCount_builds (wr_builds (newNode_builds h hn) ..) ..)
      split
      · split
        · exact addCount_builds hs ..
        · exact hs
      · split
        · exact putNodeCount_builds hs ..
        · exact hs

theorem ownChild_builds {leaf : Bool} {nb : Nat} (h : Builds a s) (e : ownChild s fam leaf ea = some (nb, t)) : Builds a t := by
  unfold ownChild at e
  split at e
  · split at e
    · cases e
    · next nb' s1 hn =>
      cases e
      exact wrNum_builds (newNode_builds h hn) ..
  · split at e
    · cases e
    · next nb' s1 hn =>
      cases e
      split
      · exact ownNode_builds h hn
      · exact wrNum_builds (ownNode_builds h hn) ..

theorem ownPath_builds {r l : Nat} (h : Builds a s) (e : ownPath s root fam vpn = some (r, l, t)) : Builds a t := by
  unfold ownPath at e
  split at e
  · cases e
  · next r1 s1 h1 =>
    split at e
    · cases e
    · next l2 s2 h2 =>
      split at e
      · cases e
      · next lf s3 h3 =>
        cases e
        exact ownChild_builds (ownChild_builds (ownNode_builds h h1) h2) h3

theorem ownPage_builds {r : Nat} {whole : Bool} (h : Builds a s) (e : ownPage s root fam vpn kind whole = some (r, d, t)) : Builds a t := by
  unfold ownPage at e
  split at e
  · cases e
  · next r1 ea1 s1 h1 =>
    have b1 := ownPath_builds h h1
    split at e
    · split at e
      · cases e
      · next d2 s2 h2 =>
        cases e
        exact wrNum_builds (allocPage_builds b1 h2) ..
    · simp only at e
      split at e
      · cases e
        exact b1
      · split at e
        · cases e
        · next e2 s2 h2 =>
          have b2 := allocPage_builds b1 h2
          cases e
          refine wrNum_builds (putDesc_builds ?_ ..) ..
          split
          · exact b2
          · exact putSide_builds ((putDesc_builds b2 ..).with ..) ..

theorem foldl_bind_some {α β : Type} (P : α → Prop) (f : α → β → Option α) (l : List β) {o : Option α} {b : α}
    (hf : ∀ a x b, P a → f a x = some b → P b) (ho : ∀ a, o = some a → P a)
    (e : l.foldl (fun o x => o.bind fun a => f a x) o = some b) : P b := by
  induction l generalizing o with
  | nil => exact ho b e
  | cons x l ih =>
    refine ih (fun c hc => ?_) e
    obtain ⟨a, ha, hb⟩ := Option.bind_eq_some_iff.1 hc
    exact hf a x c (ho a ha) hb

theorem freshParks_builds {n r : Nat} (h : Builds a s) (e : freshParks s root fam n = some (r, t)) : Builds a t := by
  refine foldl_bind_some (fun p : Nat × State => Builds a p.2) _ _ ?_ ?_ e
  · intro p k p' hp e'
    obtain ⟨r', hr, rfl⟩ := Option.map_eq_some_iff.1 e'
    exact ownPage_builds hp hr
  · rintro p hp
    cases hp
    exact h

theorem noteWrite_builds (h : Builds a s) (d kv off n : Nat) : Builds a (noteWrite s d kv off n) := by
  unfold noteWrite
  simp only
  split
  · exact putDesc_builds (putSide_builds h ..) ..
  · exact putDesc_builds (putSide_builds (h.with ..) ..) ..

theorem admitRoot_builds {o : AdmitOp} {r : Nat} (h : Builds a s) (e : admitRoot s o fam = some (r, t)) : Builds a t := by
  unfold admitRoot at e
  split at e
  · exact newNode_builds h e
  · cases e
    exact putNodeCount_builds h ..

/-- `s` differs from `a` in the scratchpads, T1, the page unit and the slots alone. -/
def Fills (a s : State) : Prop := s = { a with t0 := s.t0, t1 := s.t1, pg := s.pg, slots := s.slots }

theorem Fills.refl (a : State) : Fills a a := rfl

theorem Fills.with (h : Fills a s) (t0 t1 pg slots) : Fills a { s with t0 := t0, t1 := t1, pg := pg, slots := slots } := by
  unfold Fills at *
  conv => lhs; rw [h]

theorem Fills.trans (h : Fills a s) (h' : Fills s t) : Fills a t := by
  unfold Fills at *
  conv => lhs; rw [h']
  conv => lhs; rw [h]

theorem Builds.fills (h : Builds a s) : Fills a s := by
  unfold Builds Fills at *
  conv => lhs; rw [h]
  rw [h]

/-- Slot `k` holds the record `x` but for its root, and the record of its sequence is that one or one in another slot. -/
def Holds (s : State) (k : Nat) (x : Slot) : Prop :=
  (∃ r, s.slots.recs.find k = some { x with root := r }) ∧
    ∃ i y, slotOf s x.sid = some (i, y) ∧ (i = k → ∃ r, y = { x with root := r })

theorem holds_of_recs (h : Holds s k x) (e : t.slots.recs = s.slots.recs) : Holds t k x := by
  unfold Holds slotOf at *
  rwa [e]

/-- The first entry that satisfies `p`, after an entry that does is put at `k`. -/
theorem find?_after_put {α : Type} {p : Nat × α → Bool} (l : Tab α) (k : Nat) (b : α) (hb : p (k, b) = true) :
    ∃ i y, (Tab.put l k b).find? p = some (i, y) ∧ (i = k → y = b) := by
  induction l with
  | nil => exact ⟨k, b, by simp [Tab.put, hb], fun _ => rfl⟩
  | cons e l ih =>
    obtain ⟨c, d⟩ := e
    rw [Tab.put]
    split
    · exact ⟨k, b, by simp [hb], fun _ => rfl⟩
    · next hlt =>
      split
      · exact ⟨k, b, by simp [hb], fun _ => rfl⟩
      · next hne =>
        rw [List.find?_cons]
        split
        · exact ⟨c, d, rfl, fun h => absurd h.symm hne⟩
        · exact ih

theorem holds_put (hx : x.state ≠ 0) (s : State) (k : Nat) : Holds (withSlot s k x) k x := by
  obtain ⟨i, y, hf, hy⟩ := find?_after_put (p := fun e : Nat × Slot => e.2.state != 0 && e.2.sid == x.sid) s.slots.recs k x (by simp [hx])
  exact ⟨⟨x.root, find_put_self ..⟩, i, y, hf, fun hi => ⟨x.root, hy hi⟩⟩

/-- A new root of the sequence keeps what the slot holds. -/
theorem putSeq_holds {y : Slot} {r : Nat} (h : Holds s k x) (hy : seqRec s x.sid = some y) :
    Holds (putSeq s x.sid { y with root := r }) k x ∧ Fills s (putSeq s x.sid { y with root := r }) := by
  obtain ⟨⟨r0, hr0⟩, i, y', hslot, hi⟩ := h
  obtain rfl : y' = y := Option.some.inj ((seqRec_of_slot hslot).symm.trans hy)
  obtain ⟨hst, hsid⟩ := slotOf_names hslot
  rw [putSeq_of_slot hslot]
  refine ⟨⟨?_, i, { y' with root := r }, ?_, fun h => ?_⟩, rfl⟩
  · by_cases hik : i = k
    · subst hik
      obtain ⟨r1, rfl⟩ := hi rfl
      exact ⟨r, find_put_self ..⟩
    · exact ⟨r0, (find_put_ne _ _ _ _ fun e => hik e.symm).trans hr0⟩
  · exact slotOf_withSlot hslot hst rfl
  · obtain ⟨r1, rfl⟩ := hi h
    exact ⟨r, rfl⟩

theorem Builds.recs (h : Builds a s) : s.slots.recs = a.slots.recs := by rw [h]

theorem holds_ite {c : Prop} [Decidable c] (h : Holds s k x ∧ Fills a s) (h' : Holds t k x ∧ Fills a t) :
    Holds (if c then s else t) k x ∧ Fills a (if c then s else t) := by
  split
  · exact h
  · exact h'

theorem stored_holds (h : Holds s k x ∧ Fills a s) (m : PMem) (d kv off n : Nat) :
    Holds (noteWrite { s with t1 := m } d kv off n) k x ∧ Fills a (noteWrite { s with t1 := m } d kv off n) := by
  have hn := noteWrite_builds (Builds.with (.refl s) m s.pg) d kv off n
  exact ⟨holds_of_recs h.1 hn.recs, h.2.trans hn.fills⟩

theorem writePage_holds {off kv : Nat} {data : List Byte} {poison : List Bool} (h : Holds s k x) (hf : Fills a s)
    (e : writePage s x.sid vpn off kind kv data poison = some t) : Holds t k x ∧ Fills a t := by
  unfold writePage at e
  split at e
  · cases e
    exact ⟨h, hf⟩
  · next y hy =>
    simp only at e
    split at e
    · cases e
    · next r d1 s1 hown =>
      cases e
      have hb := ownPage_builds (.refl s) hown
      have h1 : Holds s1 k x := holds_of_recs h hb.recs
      obtain ⟨_, i, y', hslot, _⟩ := h
      have hslot1 : slotOf s1 x.sid = some (i, y') := by rwa [slotOf, hb.recs]
      have hy1 : seqRec s1 x.sid = some y := by rw [seqRec_of_slot hslot1, ← seqRec_of_slot hslot, hy]
      obtain ⟨hput, hfill⟩ := putSeq_holds (r := r) h1 hy1
      exact stored_holds (holds_ite ⟨h1, hf.trans hb.fills⟩ ⟨hput, (hf.trans hb.fills).trans hfill⟩) ..

theorem writeSpace_holds {p kv : Nat} {data : List Byte} {poison : List Bool} (h : Holds s k x) (hf : Fills a s)
    (e : writeSpace s x.sid p kind kv data poison = some t) : Holds t k x ∧ Fills a t := by
  refine foldl_bind_some (fun t => Holds t k x ∧ Fills a t) _ _ ?_ ?_ e
  · rintro b p c ⟨hb, hfb⟩ hc
    exact writePage_holds hb hfb hc
  · rintro b hb
    cases hb
    exact ⟨h, hf⟩

theorem writeCopy_holds {off : Nat} {c : Bool} {data : List Byte} {poison : List Bool} (h : Holds s k x) (hf : Fills a s)
    (e : writeCopy s x c off data poison = some t) : Holds t k x ∧ Fills a t := by
  unfold writeCopy at e
  split at e
  · cases e
    exact ⟨holds_of_recs h rfl, hf.with ..⟩
  · exact writeSpace_holds h hf e

/-- The record that ADMIT makes. -/
def admitted (s : State) (j : Job) (o : AdmitOp) (sid root : Nat) (bad : Bool) (p : Spot) : Slot where
  pin := o.pin
  poison := bad
  resid := o.resid
  owner := j.q
  core := p.core
  sid := sid
  pos := o.pos
  st0 := p.st0
  st1 := p.st1
  size := o.size
  root := root
  deadline := o.deadline
  lastLt := s.life.lt
  parent := noSid
  child := noSid
  sibling := noSid
  tag := o.tag
  state := 1

theorem fillSlot_idle (hoff : s.mon.trOn = false) (k : Nat) (x : Slot) : ∃ t1 transit, fillSlot s k x 1 =
    { withSlot s k { x with state := 1 } with
      t1 := t1
      slots := { (withSlot s k { x with state := 1 }).slots with transit := transit } } := by
  unfold fillSlot
  rw [setSlotState_idle hoff]
  exact ⟨_, _, rfl⟩

/-- A sequence that takes a slot and joins its family. -/
def seatNew (s : State) (k : Nat) (x : Slot) (fam q : Nat) : State :=
  let s := fillSlot s k x 1
  joinFamily { s with slots := { s.slots with sids := insNat x.sid s.slots.sids } } fam q

theorem seatNew_holds (hoff : s.mon.trOn = false) (k : Nat) (x : Slot) (fam q : Nat) :
    Holds (seatNew s k x fam q) k { x with state := 1 } ∧ Fills s (seatNew s k x fam q) := by
  obtain ⟨t1, transit, hfill⟩ := fillSlot_idle hoff k x
  rw [seatNew, hfill]
  exact ⟨holds_of_recs (holds_put (by simp) s k) rfl, rfl⟩

/-- A sequence that ADMIT makes: its record stands in its slot, and beside it the scratchpads, T1 and the page unit alone change. -/
theorem createSeq_admits {o : AdmitOp} {slot sid : Nat} {p : Spot} (hoff : s.mon.trOn = false)
    (e : createSeq s j o slot sid fam p = some t) :
    Fills s t ∧ ∃ root bad, Holds t slot (admitted s j o sid root bad p) := by
  unfold createSeq at e
  split at e
  · cases e
  · next root1 s1 h1 =>
    have b1 := admitRoot_builds (.refl s) h1
    simp only at e
    split at e
    · cases e
    · next root2 s2 h2 =>
      have b2 := freshParks_builds b1 h2
      have hoff2 : s2.mon.trOn = false := by rw [b2]; exact hoff
      have hlt : s2.life.lt = s.life.lt := by rw [b2]
      rw [hlt] at e
      obtain ⟨hh, hf⟩ := seatNew_holds hoff2 slot { admitted s j o sid root2 ((admitBytes s2 j o).2.any id) p with state := 0 } fam j.q
      obtain ⟨ht, hft⟩ := writeCopy_holds hh hf e
      exact ⟨b2.fills.trans hft, root2, _, ht⟩

/-- With a slot free and the sequence's place, family and pages to be had, ADMIT makes it. -/
theorem admitNow_makes {o : AdmitOp} {sid slot : Nat} {p : Spot} (hoff : s.mon.trOn = false) (hj : s.job j.q j.n = some j)
    (hturn : slotTurn s j = true) (hfree : 1 ≤ freeSlots s)
    (hfam : (if o.root = 0 then freeFamily s else some (nodeFam s o.root)) = some fam)
    (hsid : freeSid s = some sid) (hslot : freeSlot s = some slot) (hp : place s o.resid o.size = some p)
    (hreach : reachAdopted s j o p = (true, s)) (hhold : j.hold = ([], [])) (e : createSeq s j o slot sid fam p = some t) :
    admitNow s j o = t.setJob { j.end with result := sid, idx := some 0 } := by
  have hready : slotsReady s j 1 [] = (true, s) := by simp [slotsReady, hturn, hfree]
  have hfam' : (if (o.root == 0) = true then freeFamily s else some (nodeFam s o.root)) = some fam := by simpa using hfam
  have hjt : t.job j.q j.n = some j := by rw [(createSeq_admits hoff e).1]; exact hj
  unfold admitNow
  simp only [hready, hfam', hsid, hslot, hp, hreach, Bool.not_true, Bool.false_eq_true, if_false]
  rw [withJob_some _ _ _ _ _ hj]
  simp only [takePages, hhold, e]
  exact withJob_some _ _ _ _ _ hjt

theorem admitNow_waits {o : AdmitOp} (hturn : slotTurn s j = true) (hfree : freeSlots s = 0) (hvic : victims s [] = [])
    (hpark : parkingSlots s = 0) : admitNow s j o = s.setJob { j with slotWait := true, stage := 0 } := by
  have hready : slotsReady s j 1 [] = (false, waitSlot s j) := by simp [slotsReady, hturn, hfree, hvic, hpark]
  simp [admitNow, hready, waitSlot]

theorem pageInit_job (s : State) (q n : Nat) : (pageInit s).job q n = s.job q n := by
  have h : (pageInit s).jobs = s.jobs := by
    unfold pageInit
    split <;> rfl
  rw [State.job, h, State.job]

theorem pageInit_mon (s : State) : (pageInit s).mon = s.mon := by
  unfold pageInit
  split <;> rfl

theorem pageInit_life (s : State) : (pageInit s).life = s.life := by
  unfold pageInit
  split <;> rfl

/-- An ADMIT that may start and whose initial state is at hand. -/
theorem admitCmd_admits {q : BitVec 6} {n : BitVec 16} {o : AdmitOp} (ht : Taken s q n 0x20 j) (hs : Startable s j)
    (hok : prepAdmit s j = .ok o)
    (hat : AtHand (pageInit s) j j.ctx (o.init.toList.map fun t => { unit := 0, core := j.core, elems := t.all })) :
    exec (.admitCmd q n) s = .next (admitNow (pageInit s) j o) := by
  have hplaces : j.places = false := by simp [Job.places, Job.plain, ht.2]
  have hj := job_taken ht
  rw [exec_admitCmd, admitRow, controlRow, withJob_some _ _ _ _ _ ht.1, if_neg (by simp),
    startRow_ok _ _ _ _ j o _ _ hj ht.2 hs hok, served_unplaced hplaces, runAdmit,
    withOperands_atHand _ _ _ _ _ _ ((pageInit_job ..).trans hj) hat]

/-- Settles O33, from what the pieces of a new sequence leave of the state and from the slots at hand. -/
theorem admitMakesTheRecord : Obligations.AdmitMakesTheRecord := by
  unfold Obligations.AdmitMakesTheRecord
  intro q n s j hquiet
  refine ⟨?_, ?_, fun hj ha hw => ?_⟩
  · intro o fam sid slot p s1 ht hs hok s0 hat hturn hfree hfam hsid hslot hp hreach hhold hcreate
    have hoff : s0.mon.trOn = false := by rw [pageInit_mon]; exact hquiet.1
    have hj0 : s0.job j.q j.n = some j := (pageInit_job ..).trans (job_taken ht)
    refine ⟨?_, ?_⟩
    · rw [admitCmd_admits ht hs hok hat, admitNow_makes hoff hj0 hturn hfree hfam hsid hslot hp hreach hhold hcreate]
    · obtain ⟨_, root, bad, ⟨r, hr⟩, _⟩ := createSeq_admits hoff hcreate
      exact ⟨_, hr, rfl, rfl, rfl, rfl, rfl, rfl, rfl, rfl, rfl, rfl, rfl, rfl, rfl, rfl, congrArg Life.lt (pageInit_life s), rfl, rfl, rfl, rfl⟩
  · intro o ht hs hok s0 hat hturn hfree hvic hpark
    rw [admitCmd_admits ht hs hok hat, admitNow_waits hturn hfree hvic hpark]
  · rw [exec_slotWaitEnd, slotWaitEnd, withJob_some _ _ _ _ _ hj]
    simp [awake_of_awake ha, hw]

end Sys2Proof.Proofs
end

section
set_option Elab.async false
/-! RETIRE of a sequence with a falling page (09 R298, R299).

The fall of a page that is freed ends, and what it leaves lets the transfers that wait go on. A transfer that waits for bytes at an address
that leads nowhere (14 R448) lands at once, as poison in T0: RETIRE changes T0. -/
namespace Sys2Proof.Proofs
open Sys2Proof Sys2Proof.Machine

/-- The page table of sequence 0: one page, 1, which falls; its nodes stand in page 0. -/
def fallingTree : PMem :=
  [(0x100000, 16, Desc.toNat ⟨1, false, false, 3, false, 1, 0, 0, 0⟩), (0x100010, 16, Desc.toNat ⟨4, false, false, 2, false, 1, 0, 1, 0⟩),
    (0x1000008, 8, 2 ^ 63 + 1), (0x1000010, 8, 2 ^ 63 + 1), (0x1000018, 8, 2 ^ 63 + 1), (0x1000800, 8, 0x1001001),
    (0x1001000, 8, 0x1001801), (0x1001800, 8, 2 ^ 32 + 1)].foldl (fun m c => m.put c.1 (leBytes c.2.1 c.2.2))
    (({} : PMem).put 0x140 (matrixBytes 0x1180 11 1 1))

/-- RETIRE of sequence 0. -/
def retireZero : Job := commandJob 1 (commandBytes 0x23 [0x140])

/-- A command that waits for bytes at an address with bit 47 set while the cascade is not READY. -/
def waitsAfar : Job := { commandJob 2 (commandBytes 3 []) with ask := some [⟨0, 0, 2 ^ 47, 64, false⟩] }

/-- Sequence 0 stands idle in slot 0 and its page falls. -/
def fallingPage : State :=
  { awakeState with
    t1 := fallingTree
    slots := { awakeState.slots with
      recs := [(0, { state := 1, resid := 1, root := 0x1000800, parent := noSid, child := noSid, sibling := noSid })]
      dirBase := 0x4000000
      sids := [0]
      fams := [(0, ⟨0, 1⟩)] }
    pg := { descBase := 0x100000, descCount := 4, frameBase := 0x1000000, frameCount := 4, listBase := 0x180000, free := 2, descFree := 2
            init := true, nodePages := [0], falls := [⟨1, 0, none, [], 0, 0, none, []⟩] }
    jobs := [retireZero, waitsAfar] }

theorem fallingPage_retirable : Safety.Startable fallingPage retireZero ∧ retirable fallingPage false retireZero.take 0 = true ∧
    fallingPage.slots.sids.contains 0 = true ∧ bit (retireZero.body 0x28) 0 = false ∧ bit (retireZero.body 0x28) 1 = false := by decide +kernel

theorem fallingPage_owned : (match ownedList fallingPage retireZero 0 with | .ok l => l == [0] | .error _ => false) = true := by decide +kernel

set_option maxRecDepth 100000 in
theorem fallingPage_t0 : (retireRow 0 1 fallingPage).t0.ue ≠ fallingPage.t0.ue := by decide +kernel

theorem exec_retire (q : BitVec 6) (n : BitVec 16) (s : State) : exec (.retire q n) s = .next (retireRow q n s) := rfl

/-- Refutes O34: RETIRE of a sequence whose page falls lets the transfers that wait go on, and one for bytes that no address reaches lands as
poison in T0, which the statement has unchanged. -/
theorem not_forksAndRetirementsKeepTheRecords : ¬ Obligations.ForksAndRetirementsKeepTheRecords := by
  unfold Obligations.ForksAndRetirementsKeepTheRecords
  intro h
  obtain ⟨hstart, hret, hsid, hcancel, hsub⟩ := fallingPage_retirable
  have howned : ownedList fallingPage retireZero 0 = .ok [0] := by
    have := fallingPage_owned
    split at this
    · next l hl => rw [hl, beq_iff_eq.1 this]
    · cases this
  have hmembers : ∀ k ∈ fallingPage.jobs, k.phase = .done ∨ ∀ m ∈ k.members, m.sid = 0 → m.phase = .ended := by
    intro k hk
    have : k.members = [] := by
      simp only [fallingPage, List.mem_cons, List.not_mem_nil, or_false] at hk
      rcases hk with rfl | rfl <;> rfl
    simp [this]
  obtain ⟨t, -, -, ht, -, -, -, -, -, -, -, ht0⟩ := (h.2 0 1 fallingPage retireZero 0 ⟨rfl, rfl, rfl⟩ ⟨rfl, rfl⟩ hstart rfl howned hcancel hsub
    hsid hmembers).1 hret
  rw [← Host.Outcome.next.inj ((exec_retire _ _ _).symm.trans ht)] at ht0
  exact fallingPage_t0 (congrArg T0Mem.ue ht0)

end Sys2Proof.Proofs
end

section
set_option Elab.async false
/-! PIN, UNPIN, PARK and UNPARK of the sequences that a list names (09 R282, R286, R307). -/
namespace Sys2Proof.Proofs
open Sys2Proof Sys2Proof.Machine Sys2Proof.Laws Sys2Proof.Safety

variable {s t : State} {j : Job} {x : Slot} {a k st : Nat} {l : List Nat}

theorem exec_park (q : BitVec 6) (n : BitVec 16) (s : State) : exec (.park q n) s = .next (parkRow 0 q n s) := rfl
theorem exec_unpark (q : BitVec 6) (n : BitVec 16) (s : State) : exec (.unpark q n) s = .next (parkRow 1 q n s) := rfl
theorem exec_pin (q : BitVec 6) (n : BitVec 16) (s : State) : exec (.pin q n) s = .next (parkRow 2 q n s) := rfl
theorem exec_unpin (q : BitVec 6) (n : BitVec 16) (s : State) : exec (.unpin q n) s = .next (parkRow 3 q n s) := rfl

theorem setSlotState_off (hoff : s.mon.trOn = false) (k : Nat) (x : Slot) (h : st ≠ 0) :
    setSlotState s k x st = { s with slots := { s.slots with
      recs := s.slots.recs.put k { x with state := st }
      transit := if st == 4 || st == 5 then s.slots.transit.erase k ++ [k] else s.slots.transit.erase k } } := by
  unfold setSlotState
  rw [trace_off]
  · rw [if_neg (by simpa using h)]
  · exact hoff

/-- PIN or UNPIN of a list of sequences. -/
def pinAll (s : State) (on : Bool) (l : List Nat) : State :=
  l.foldl (fun s a => match seqRec s a with
    | some x => putSeq s a { x with pin := on }
    | none => s) s

theorem pinAll_one {on : Bool} (h : slotOf s a = some (k, x)) : pinAll s on [a] = withSlot s k { x with pin := on } := by
  simp only [pinAll, List.foldl_cons, List.foldl_nil, seqRec_of_slot h, putSeq_of_slot h]

/-- What PARK operation `sub` does with the list `l` of its sequences. -/
def runListed (sub : Nat) (s : State) (j : Job) (l : List Nat) : State :=
  match sub with
  | 0 => listRow s j l 4 (parkList j.take)
  | 1 => listRow s j l 5 (unparkList j l)
  | k => finish (pinAll s (k == 2) l) j

/-- A list operation that starts. -/
theorem parkRow_starts {q : BitVec 6} {n : BitVec 16} {sub : Nat} (ht : Taken s q n 0x21 j) (hs : Startable s j) (hw : j.work = [])
    (hok : ownedList s j 0 = .ok l) (hsub : fld (j.body 0x28) 0 2 = sub) : parkRow sub q n s = runListed sub s j l := by
  have hplaces : j.places = false := by simp [Job.places, Job.plain, ht.2]
  rw [parkRow, controlRow, withJob_some _ _ _ _ _ ht.1, if_neg (by simp [hsub])]
  refine (startRow_ok _ _ _ _ j l _ _ (job_taken ht) ht.2 hs ?_).trans ?_
  · simp [hw, hok]
  · rw [served_unplaced hplaces]
    rfl

/-- The sequences begun that stand in state `st`. -/
def leftIn (s : State) (st : Nat) (l : List Nat) : List Nat :=
  l.filter fun a => match slotOf s a with | some (_, x) => x.state == st | none => false

theorem listRow_new {go : State → List Nat → Nat → List Nat → State × Nat × List Nat} {i : Nat} {ps : List Nat} (hw : j.work = [])
    (hgo : go s l 0 [] = (t, i, ps)) {k : Job} (hk : t.job j.q j.n = some k) : listRow s j l st go =
      if i == l.length && (leftIn t st ps).isEmpty then finish t k else t.setJob { k with work := i :: leftIn t st ps } := by
  unfold listRow
  simp only [hw, List.headD_nil, List.drop_zero, List.tail_nil, hgo]
  exact withJob_some _ _ _ _ _ hk

theorem parkList_all (take : Nat) (h : ∀ a ∈ l, slotOf s a = none) (i : Nat) (ps : List Nat) :
    parkList take s l i ps = (s, i + l.length, ps) := by
  induction l generalizing i with
  | nil => rfl
  | cons a l ih =>
    have ha : parkOne s take a = .done := by rw [parkOne, h a (by simp)]
    rw [parkList, ha]
    refine (ih (fun b hb => h b (by simp [hb])) (i + 1)).trans ?_
    rw [List.length_cons, Nat.add_right_comm, Nat.add_assoc]

theorem unparkList_all (named : List Nat) (h : ∀ a ∈ l, ∃ k x, slotOf s a = some (k, x) ∧ x.state ≠ 4 ∧ x.state ≠ 5) (i : Nat) (ps : List Nat) :
    unparkList j named s l i ps = (s, i + l.length, ps ++ l) := by
  induction l generalizing i ps with
  | nil => simp [unparkList]
  | cons a l ih =>
    obtain ⟨k, x, hk, h4, -⟩ := h a (by simp)
    have h4' : (x.state == 4) = false := by simpa using h4
    rw [unparkList]
    simp only [hk, h4', Bool.false_eq_true, if_false]
    rw [ih (fun b hb => h b (by simp [hb])), List.length_cons, Nat.add_right_comm, Nat.add_assoc, List.append_assoc]
    rfl

/-- The first entry that satisfies `p`, where none did, is the one put. -/
theorem find?_put_new {α : Type} {p : Nat × α → Bool} {l : Tab α} {k : Nat} {b : α} (h : l.find? p = none) (hb : p (k, b) = true) :
    (Tab.put l k b).find? p = some (k, b) := by
  induction l with
  | nil => simp [Tab.put, hb]
  | cons e l ih =>
    obtain ⟨c, d⟩ := e
    rw [List.find?_cons] at h
    split at h
    · cases h
    · next hp =>
      rw [Tab.put]
      split
      · simp [hb]
      · split
        · simp [hb]
        · rw [List.find?_cons, hp]
          exact ih h

/-- The record of a sequence that begins its unpark at place `p`. -/
def movedIn (x : Slot) (p : Spot) : Slot :=
  if x.resid == 1 then { x with core := p.core, st0 := p.st0, st1 := p.st1 } else { x with core := p.core }

theorem movedIn_sid (x : Slot) (p : Spot) : (movedIn x p).sid = x.sid := by
  unfold movedIn
  split <;> rfl

theorem startUnpark_slot (hoff : s.mon.trOn = false) (hs : slotOf s a = none) (hx : seqRec s a = some x) (hsid : x.sid = a)
    (e : startUnpark s a = some t) : t.jobs = s.jobs ∧ ∃ k y, slotOf t a = some (k, y) ∧ y.state = 5 := by
  unfold startUnpark at e
  rw [hx] at e
  split at e
  · next x' k hx' hk =>
    cases hx'
    obtain ⟨p, -, rfl⟩ := Option.map_eq_some_iff.1 e
    change (fillSlot s k (movedIn x p) 5).jobs = s.jobs ∧ ∃ i y, slotOf (fillSlot s k (movedIn x p) 5) a = some (i, y) ∧ y.state = 5
    rw [fillSlot, setSlotState_off hoff _ _ (by decide)]
    exact ⟨rfl, k, { movedIn x p with state := 5 }, find?_put_new hs (by simp [movedIn_sid, hsid]), rfl⟩
  · cases e

/-- Settles O35, from what a list operation that starts does with its list. -/
theorem listCommandsMoveTheirSequences : Obligations.ListCommandsMoveTheirSequences := by
  unfold Obligations.ListCommandsMoveTheirSequences
  intro q n s j l hquiet ht hs hw hok sub done
  have hj := job_taken ht
  refine ⟨?_, fun hsub hl => ?_, fun a k x hsub hl hk hst hbusy => ⟨fun hact => ?_, fun hact => ?_⟩, fun hsub hl => ?_, ?_⟩
  · intro c on hc
    have hrow : exec c s = .next ((pinAll s on l).setJob done) := by
      obtain ⟨rfl, hsub, rfl⟩ | ⟨rfl, hsub, rfl⟩ := hc
      · rw [exec_pin, parkRow_starts ht hs hw hok hsub]
        rfl
      · rw [exec_unpin, parkRow_starts ht hs hw hok hsub]
        rfl
    refine ⟨hrow, fun a k x hl hk => ?_⟩
    rw [hrow, hl, pinAll_one hk]
    rfl
  · have hgo : parkList j.take s l 0 [] = (s, l.length, []) := by rw [parkList_all _ hl, Nat.zero_add]
    rw [exec_park, parkRow_starts ht hs hw hok hsub]
    simp only [runListed, listRow_new hw hgo hj]
    rw [if_pos (by simp [leftIn])]
    rfl
  · have hone : parkOne s j.take a = .started (startPark s k x) := by
      rw [parkOne, hk]
      simp [hst, hbusy, hact]
    have hgo : parkList j.take s l 0 [] = (startPark s k x, 1, [a]) := by
      rw [hl, parkList, hone]
      rfl
    have hpark : startPark s k x = { s with slots := { s.slots with
        recs := s.slots.recs.put k { x with state := 4 }
        transit := s.slots.transit.erase k ++ [k] } } := setSlotState_off hquiet.1 _ _ (by decide)
    have hleft : leftIn (startPark s k x) 4 [a] = [a] := by
      have : slotOf (startPark s k x) a = some (k, { x with state := 4 }) := by
        rw [hpark]
        exact slotOf_withSlot hk (by simp) rfl
      simp [leftIn, this]
    have hj' : (startPark s k x).job j.q j.n = some j := by
      rw [hpark]
      exact hj
    rw [exec_park, parkRow_starts ht hs hw hok hsub]
    simp only [runListed, listRow_new hw hgo hj', hleft]
    rw [if_neg (by simp), hpark]
    rfl
  · have hone : parkOne s j.take a = .wait := by
      rw [parkOne, hk]
      simp [hst, hact]
    have hgo : parkList j.take s l 0 [] = (s, 0, []) := by
      rw [hl, parkList, hone]
    rw [exec_park, parkRow_starts ht hs hw hok hsub]
    simp only [runListed, listRow_new hw hgo hj]
    rw [if_neg (by simp [hl])]
    rfl
  · have hgo : unparkList j l s l 0 [] = (s, l.length, l) := by rw [unparkList_all _ hl, Nat.zero_add, List.nil_append]
    have hleft : leftIn s 5 l = [] := by
      refine List.filter_eq_nil_iff.2 fun a ha => ?_
      obtain ⟨k, x, hk, -, h5⟩ := hl a ha
      simp [hk, h5]
    rw [exec_unpark, parkRow_starts ht hs hw hok hsub]
    simp only [runListed, listRow_new hw hgo hj, hleft]
    rw [if_pos (by simp)]
    rfl
  · intro a x s1 hsub hl hslot hx hsid hturn hfree hstart
    obtain ⟨hjobs, k, y, hy, hst⟩ := startUnpark_slot hquiet.1 hslot hx hsid hstart
    have hj1 : s1.job j.q j.n = some j := by rw [State.job, hjobs]; exact hj
    have hready : slotsReady s j 1 l = (true, s) := by simp [slotsReady, hturn, hfree]
    have hgo : unparkList j l s l 0 [] = (s1.setJob { j with slotWait := false, stage := 0 }, 1, [a]) := by
      rw [show unparkList j l s l 0 [] = unparkList j l s [a] 0 [] by rw [hl], unparkList]
      simp only [hslot, hx, hready, hstart, Bool.not_true, Bool.false_eq_true, if_false]
      rw [withJob_some _ _ _ _ _ hj1]
      rfl
    have hj2 : (s1.setJob { j with slotWait := false, stage := 0 }).job j.q j.n = some { j with slotWait := false, stage := 0 } :=
      job_setJob _ _ _ j _ hj1 rfl rfl rfl
    have hleft : leftIn (s1.setJob { j with slotWait := false, stage := 0 }) 5 [a] = [a] := by
      have : slotOf (s1.setJob { j with slotWait := false, stage := 0 }) a = some (k, y) := hy
      simp [leftIn, this, hst]
    rw [exec_unpark, parkRow_starts ht hs hw hok hsub]
    simp only [runListed, listRow_new hw hgo hj2, hleft]
    rw [if_neg (by simp)]
    exact congrArg _ (setJob_setJob s1 (j := { j with slotWait := false, stage := 0 }) rfl)

end Sys2Proof.Proofs
end

section
set_option Elab.async false
/-! The ends of parks, unparks and moves, and the balancing of the cores (01 R38; 09 R283, R284, R306). -/
namespace Sys2Proof.Proofs
open Sys2Proof Sys2Proof.Machine Sys2Proof.Laws Sys2Proof.Safety

variable {s : State} {x : Slot} {i : BitVec 12} {c : Nat}

theorem exec_parkComplete (i : BitVec 12) (s : State) : exec (.parkComplete i) s = .next (parkComplete i s) := rfl
theorem exec_unparkComplete (i : BitVec 12) (s : State) : exec (.unparkComplete i) s = .next (unparkComplete i s) := rfl
theorem exec_sequenceBalance (s : State) : exec .sequenceBalance s = .next (sequenceBalance s) := rfl
theorem exec_migrationComplete (i : BitVec 12) (s : State) : exec (.migrationComplete i) s = .next (migrationComplete i s) := rfl

theorem setSlotState_free (hoff : s.mon.trOn = false) (k : Nat) (x : Slot) : setSlotState s k x 0 =
    { s with slots := { s.slots with recs := s.slots.recs.del k, transit := s.slots.transit.erase k } } := by
  unfold setSlotState
  rw [trace_off]
  · rfl
  · exact hoff

theorem finishPark_streamed (hoff : s.mon.trOn = false) {k : Nat} (hx : s.slots.recs.find k = some x) (hst : x.state = 4) (hr : x.resid ≠ 1) :
    finishPark s k = { s with
      t1 := s.t1.put (dirAddr s x.sid) (x.bytes 8)
      slots := { s.slots with recs := s.slots.recs.del k, transit := s.slots.transit.erase k } } := by
  have hr' : (x.resid == 1) = false := by simpa using hr
  unfold finishPark
  simp only [hx, hst, hr', touchAll, List.foldl_nil, Bool.not_true, Bool.false_eq_true, if_false, bne_self_eq_false]
  exact setSlotState_free (s := s.wr (dirAddr s x.sid) (x.bytes 8)) hoff ..

theorem finishPark_other {k : Nat} (hx : s.slots.recs.find k = some x) (hst : x.state ≠ 4) : finishPark s k = s := by
  unfold finishPark
  simp [hx, hst]

/-- The copy of record of a sequence that unparks, put where its state store stands. -/
def broughtBack (s : State) (x : Slot) : State :=
  if x.resid == 1 then
    let d := readSpace s x.sid (parkBase x) x.size
    { s with t0 := s.t0.store (t0Addr x.core 1 0 + copyBase x x.sel) d.1 d.2 }
  else s

theorem broughtBack_eq (s : State) (x : Slot) : broughtBack s x = { s with
    t0 := if x.resid = 1 then s.t0.store (t0Addr x.core 1 0 + copyBase x x.sel) (readSpace s x.sid (parkBase x) x.size).1
      (readSpace s x.sid (parkBase x) x.size).2 else s.t0 } := by
  unfold broughtBack
  by_cases h : x.resid = 1
  · rw [if_pos (by simpa using h), if_pos h]
  · rw [if_neg (by simpa using h), if_neg h]

theorem finishUnpark_near (hoff : s.mon.trOn = false) {k : Nat} (hx : s.slots.recs.find k = some x) (hst : x.state = 5)
    (ht : touchAll s x.core none (if x.resid = 1 then tab (statePages x) fun k => (x.sid, 2 ^ 24 - statePages x + k) else []) = (true, s)) :
    finishUnpark s k = { broughtBack s x with slots := { s.slots with
      recs := s.slots.recs.put k { x with lastLt := s.life.lt, state := 1 }
      transit := s.slots.transit.erase k } } := by
  have ht' : touchAll s x.core none (if (x.resid == 1) = true then tab (statePages x) fun k => (x.sid, 2 ^ 24 - statePages x + k) else []) =
      (true, s) := by simpa using ht
  have hb := broughtBack_eq s x
  unfold finishUnpark
  simp only [hx, hst, ht', Bool.not_true, Bool.false_eq_true, if_false, bne_self_eq_false]
  refine (setSlotState_off (s := broughtBack s x) ?_ k _ (by decide)).trans ?_
  · rw [hb]
    exact hoff
  · change ({ broughtBack s x with slots := { (broughtBack s x).slots with
      recs := (broughtBack s x).slots.recs.put k { x with lastLt := (broughtBack s x).life.lt, state := 1 }
      transit := (broughtBack s x).slots.transit.erase k } } : State) = _
    rw [hb]

theorem finishUnpark_other {k : Nat} (hx : s.slots.recs.find k = some x) (hst : x.state ≠ 5) : finishUnpark s k = s := by
  unfold finishUnpark
  simp [hx, hst]

/-- The first of some sequences that can move to the first of some cores does. -/
theorem firstMove {p : Nat × Slot} {rest : List (Nat × Slot)} {low : List Nat} {t : State} (hlow : low.head? = some c)
    (h : startMove s p.1 p.2 c = some t) :
    (((p :: rest).findSome? fun p => low.findSome? fun c => startMove s p.1 p.2 c).getD s) = t := by
  cases low with
  | nil => cases hlow
  | cons d low =>
    obtain rfl : d = c := Option.some.inj hlow
    simp [h]

theorem migrationComplete_lands {a b : Nat} (hoff : s.mon.trOn = false) (ha : s.awake = true) (hx : s.slots.recs.find i.toNat = some x)
    (hm : s.slots.moveTo.find i.toNat = some (c, a, b)) (hst : x.state = 6) (hinj : s.t0.inj = []) :
    migrationComplete i s = { s with
      t0 := s.t0.store (t0Addr c 1 0 + if x.sel then b else a) (s.t0.fetch (t0Addr x.core 1 0 + copyBase x x.sel) x.size).1
        (s.t0.fetch (t0Addr x.core 1 0 + copyBase x x.sel) x.size).2
      slots := { s.slots with
        moveTo := s.slots.moveTo.del i.toNat
        recs := s.slots.recs.put i.toNat { x with core := c, st0 := a, st1 := b, state := 1 }
        transit := s.slots.transit.erase i.toNat } } := by
  have hnote : noteCopy s x x.sel 0 x.size = s := by simp [noteCopy, unitRead_clean _ _ _ _ hinj]
  unfold migrationComplete
  simp only [hx, hm, ha, hst, hnote, Bool.not_true, Bool.false_or, bne_self_eq_false, Bool.false_eq_true, if_false]
  refine (setSlotState_off ?_ _ _ (by decide)).trans rfl
  exact hoff

/-- Settles O36, from what each end of a move leaves and from the first sequence that can move. -/
theorem parkedAndMovedSequencesArrive : Obligations.ParkedAndMovedSequencesArrive := by
  unfold Obligations.ParkedAndMovedSequencesArrive
  refine ⟨fun i s x hquiet ha hx => ⟨fun hst hr hm => ?_, fun hst hm => ?_, fun hm => ⟨?_, ?_⟩, fun hst => ?_, fun hst => ?_⟩, ?_⟩
  · rw [exec_parkComplete, parkComplete, awake_of_awake ha, hm, Bool.true_and, if_pos rfl, finishPark_streamed hquiet.1 hx hst hr]
  · intro ps ht d
    rw [exec_unparkComplete, unparkComplete, awake_of_awake ha, hm, Bool.true_and, if_pos rfl, finishUnpark_near hquiet.1 hx hst ht, broughtBack_eq]
  · rw [exec_parkComplete, parkComplete, hm, Bool.and_false, if_neg (by simp)]
  · rw [exec_unparkComplete, unparkComplete, hm, Bool.and_false, if_neg (by simp)]
  · rw [exec_parkComplete, parkComplete, finishPark_other hx hst, ite_self]
  · rw [exec_unparkComplete, unparkComplete, finishUnpark_other hx hst, ite_self]
  · intro s hquiet ha l hi lo full low ok
    have hmoves : lo + 2 ≤ hi → sequenceBalance s = (ok.findSome? fun p => low.findSome? fun c => startMove s p.1 p.2 c).getD s := by
      intro h
      have h' : decide (hi < lo + 2) = false := by simpa using h
      unfold sequenceBalance
      simp only [awake_of_awake ha, Bool.not_true, Bool.false_or]
      exact if_neg (by simpa using h)
    refine ⟨fun h => ?_, fun h => ⟨fun hok => ?_, fun i x rest c hok hlow => ⟨fun hr hfree => ?_, fun a b hr hfit => ?_⟩⟩, ?_⟩
    · rw [exec_sequenceBalance, sequenceBalance]
      refine congrArg _ (if_pos ?_)
      have h' : decide (hi < lo + 2) = true := by simpa using h
      exact Bool.or_eq_true_iff.2 (.inr h')
    · rw [exec_sequenceBalance, hmoves h, hok]
      rfl
    · have hr' : (x.resid == 1) = false := by simpa using hr
      rw [exec_sequenceBalance, hmoves h, hok, firstMove hlow]
      simp [startMove, hr', hfree]
    · rw [exec_sequenceBalance, hmoves h, hok, firstMove hlow]
      rw [startMove, if_pos (by simp [hr]), hfit, Option.map_some, setSlotState_off hquiet.1 _ _ (by decide)]
      rfl
    · intro i x c a b hx hm hst hinj d
      rw [exec_migrationComplete, migrationComplete_lands hquiet.1 (awake_of_awake ha) hx hm hst hinj]

end Sys2Proof.Proofs
end

section
set_option Elab.async false
/-! PAGE and the evictor (10 R322, R323; 11 R371, R373). -/
namespace Sys2Proof.Proofs
open Sys2Proof Sys2Proof.Machine Sys2Proof.Laws Sys2Proof.Safety

variable {s s' t : State} {j : Job} {sid vpn k d e : Nat} {q : BitVec 6} {n : BitVec 16}

theorem exec_pageRise (q : BitVec 6) (n : BitVec 16) (s : State) : exec (.pageRise q n) s = .next (pageRow false q n s) := rfl
theorem exec_pageFall (q : BitVec 6) (n : BitVec 16) (s : State) : exec (.pageFall q n) s = .next (pageRow true q n s) := rfl
theorem exec_evictor (s : State) : exec .evictor s = .next (evictor s) := rfl

theorem pageRow_starts {fall : Bool} {p : Nat × Nat × Nat} (ht : Taken s q n 0x28 j) (hs : Startable s j) (hok : prepPage s j = .ok p)
    (hf : bit (j.body 0x28) 0 = fall) : pageRow fall q n s = runPage s j p := by
  have hplaces : j.places = false := by simp [Job.places, Job.plain, ht.2]
  rw [pageRow, withJob_some _ _ _ _ _ ht.1, if_neg (by simp [hf]), startRow_ok _ _ _ _ j p _ _ (job_taken ht) ht.2 hs hok,
    served_unplaced hplaces]

/-- What PAGE asks for page `i`. -/
def askPage (fall : Bool) (j : Job) (sid vpn : Nat) (s : State) (i : Nat) : PageAct :=
  if fall then askFall s j sid (vpn + i) else askRise s j sid (vpn + i)

/-- One of the pages `ds` still moves. -/
def stillMoves (s : State) (ds : List Nat) : Bool :=
  ds.any fun d => s.pg.falls.any (fun f => f.d == d) || s.pg.rises.any fun x => x.d == d

/-- PAGE remembers its place, or completes when nothing moves. -/
def endPages (fall : Bool) (k i sk : Nat) (ds : List Nat) (s : State) (j : Job) : State :=
  if i == k && !stillMoves s ds then
    let moved := if fall then (ds.filter fun d => (getDesc s d).state == 2).length else ds.length
    finish s { j with result := moved + (sk + (ds.length - moved)) <<< 32 }
  else s.setJob { j with work := i :: sk :: ds }

theorem runPage_eq (s : State) (j : Job) (sid vpn k : Nat) : runPage s j (sid, vpn, k) =
    let r := askPages (askPage (bit (j.body 0x28) 0) j sid vpn) (k - j.work.headD 0) (j.work.headD 0) (j.work.getD 1 0) (j.work.drop 2) s
    r.2.2.2.withJob j.q j.n (endPages (bit (j.body 0x28) 0) k r.1 r.2.1 r.2.2.1) := rfl

theorem runPage_new {fall : Bool} {i sk : Nat} {ds : List Nat} (hf : bit (j.body 0x28) 0 = fall) (hw : j.work = [])
    (hask : askPages (askPage fall j sid vpn) k 0 0 [] s = (i, sk, ds, t)) (hj : t.job j.q j.n = some j) :
    runPage s j (sid, vpn, k) = endPages fall k i sk ds t j := by
  rw [runPage_eq, hf, hw]
  simp only [List.headD_nil, Nat.sub_zero, List.getD_nil, List.drop_nil, hask]
  exact withJob_some _ _ _ _ _ hj

theorem askPages_skip {act : State → Nat → PageAct} {m : Nat} {ds : List Nat} (i sk : Nat) (h : ∀ c, i ≤ c → c < i + m → act s c = .skip) :
    askPages act m i sk ds s = (i + m, sk + m, ds, s) := by
  induction m generalizing i sk with
  | zero => rfl
  | succ m ih =>
    rw [askPages, h i (by omega) (by omega)]
    refine (ih (i + 1) (sk + 1) fun c hc hc' => h c (by omega) (by omega)).trans ?_
    simp [Nat.add_assoc, Nat.add_comm 1]

theorem runPage_skips {fall : Bool} (hf : bit (j.body 0x28) 0 = fall) (hw : j.work = []) (hj : s.job j.q j.n = some j)
    (h : ∀ i, i < k → askPage fall j sid vpn s i = .skip) :
    runPage s j (sid, vpn, k) = s.setJob { j.end with idx := some 0, result := k <<< 32 } := by
  have hask : askPages (askPage fall j sid vpn) k 0 0 [] s = (k, k, [], s) := by
    rw [askPages_skip 0 0 fun c _ hc => h c (by simpa using hc), Nat.zero_add]
  rw [runPage_new hf hw hask hj, endPages, if_pos (by simp [stillMoves])]
  simp [finish, Job.end]

theorem runPage_moves {fall : Bool} (hf : bit (j.body 0x28) 0 = fall) (hw : j.work = []) (hj : t.job j.q j.n = some j)
    (h : askPage fall j sid vpn s 0 = .moves d t) (hm : stillMoves t [d] = true) :
    runPage s j (sid, vpn, 1) = t.setJob { j with work := [1, 0, d] } := by
  have hask : askPages (askPage fall j sid vpn) 1 0 0 [] s = (1, 0, [d], t) := by
    rw [askPages, h]
    rfl
  rw [runPage_new hf hw hask hj, endPages, if_neg (by simp [hm])]

theorem askRise_skip (h : ∀ d, pageOf s sid vpn = some d → (getDesc s d).state ≠ 2 ∧ ((getDesc s d).state = 4 → (getDesc s d).commit = false)) :
    askRise s j sid vpn = .skip := by
  unfold askRise
  split
  · rfl
  · next d hd =>
    obtain ⟨h2, h4⟩ := h d hd
    have h4' : ((getDesc s d).state == 4 && (getDesc s d).commit) = false := by
      by_cases hst : (getDesc s d).state = 4
      · simp [h4 hst]
      · simp [hst]
    simp [h2, h4']

theorem askFall_skip (h : ∀ d, pageOf s sid vpn = some d → eligible s d = false) : askFall s j sid vpn = .skip := by
  unfold askFall
  split
  · rfl
  · next d hd => simp [h d hd]

/-- The page that the clock stops at is eligible and not referenced. -/
theorem clockScan_victim (n d e : Nat) (s s' : State) (h : clockScan n d s = (some e, s')) : eligible s' e = true ∧ (getDesc s' e).ref = false := by
  induction n generalizing d s with
  | zero => cases h
  | succ n ih =>
    rw [clockScan] at h
    split at h
    · exact ih _ _ h
    · next hel =>
      simp only at h
      split at h
      · exact ih _ _ h
      · next href =>
        cases h
        exact ⟨by simpa using hel, by simpa using href⟩

/-- `s` with the evictor's mark after its look at the levels. -/
def marked (s : State) : State := { s with tier := { s.tier with reclaim := levels s } }

theorem evictor_rests (h : (dryStall (marked s) || levels s) = false ∨ s.tier.maxFalls + 1 ≤ s.pg.falls.length) : evictor s = marked s := by
  have hstop : (!(marked s).awake || !(marked s).pg.init || !(dryStall (marked s) || (marked s).tier.reclaim) ||
      decide ((marked s).tier.maxFalls + 1 ≤ (marked s).pg.falls.length)) = true := by
    rcases h with h | h
    · have h' : (dryStall (marked s) || (marked s).tier.reclaim) = false := h
      simp [h']
    · have h' : decide ((marked s).tier.maxFalls + 1 ≤ (marked s).pg.falls.length) = true := decide_eq_true h
      rw [h', Bool.or_true]
  exact if_pos hstop

/-- The evictor after its look at the levels. -/
def takeVictim (s : State) : State :=
  if !s.awake || !s.pg.init || !(dryStall s || s.tier.reclaim) || decide (s.tier.maxFalls + 1 ≤ s.pg.falls.length) then s
  else
    match clockScan (2 * s.pg.descCount) s.pg.clock s with
    | (none, s1) => s1
    | (some d, s1) =>
      match startFall s1 d (if dryStall s then 2 else 4) ((dryJob s1).map fun j => (j.q, j.n)) with
      | none => s1
      | some s2 => { s2 with pg := { s2.pg with clock := (d + 1) % s2.pg.descCount } }

theorem evictor_eq (s : State) : evictor s = takeVictim (marked s) := rfl

theorem evictor_takes {s1 s2 : State} (ha : s.awake = true) (hinit : s.pg.init = true) (hneed : dryStall (marked s) = true ∨ levels s = true)
    (hroom : s.pg.falls.length ≤ s.tier.maxFalls) (hscan : clockScan (2 * s.pg.descCount) s.pg.clock (marked s) = (some d, s1))
    (hfall : startFall s1 d (if dryStall (marked s) then 2 else 4) ((dryJob s1).map fun j => (j.q, j.n)) = some s2) :
    evictor s = { s2 with pg := { s2.pg with clock := (d + 1) % s2.pg.descCount } } := by
  have ha' : (marked s).awake = true := ha
  have hinit' : (marked s).pg.init = true := hinit
  have hneed' : (dryStall (marked s) || (marked s).tier.reclaim) = true := Bool.or_eq_true_iff.2 hneed
  have hroom' : decide ((marked s).tier.maxFalls + 1 ≤ (marked s).pg.falls.length) = false := decide_eq_false (Nat.not_le.2 (Nat.lt_succ_of_le hroom))
  have hscan' : clockScan (2 * (marked s).pg.descCount) (marked s).pg.clock (marked s) = (some d, s1) := hscan
  have hgo : (!(marked s).awake || !(marked s).pg.init || !(dryStall (marked s) || (marked s).tier.reclaim) ||
      decide ((marked s).tier.maxFalls + 1 ≤ (marked s).pg.falls.length)) = false := by rw [ha', hinit', hneed', hroom']; rfl
  rw [evictor_eq, takeVictim, hgo]
  simp only [Bool.false_eq_true, if_false, hscan', hfall]

/-- Settles O37, from what a request for a page comes to and from where the clock stops. -/
theorem pageRequestsAndEvictorMovePages : Obligations.PageRequestsAndEvictorMovePages := by
  unfold Obligations.PageRequestsAndEvictorMovePages
  refine ⟨fun q n s j sid vpn k ht hs hw hok => ⟨fun hf h => ?_, fun hf h => ?_, ?_, ?_⟩, clockScan_victim, fun s ha hinit => ?_⟩
  · rw [exec_pageRise, pageRow_starts ht hs hok hf, runPage_skips hf hw (job_taken ht) fun i hi => askRise_skip (h i hi)]
  · rw [exec_pageFall, pageRow_starts ht hs hok hf, runPage_skips hf hw (job_taken ht) fun i hi => askFall_skip (h i hi)]
  · intro d s1 hf hk hd hst hrise hj hmove
    subst hk
    obtain ⟨hq, hn⟩ := job_names _ _ _ _ ht.1
    have hask : askPage false j sid vpn s 0 = .moves d s1 := by
      change askRise s j sid vpn = _
      rw [askRise, hd]
      simp only [hst, beq_self_eq_true, if_true]
      rw [show startRise s d (d % Config.cores) 3 (some (j.q, j.n)) = some s1 from hrise]
    rw [exec_pageRise, pageRow_starts ht hs hok hf, runPage_moves hf hw (by rwa [hq, hn]) hask (by simp [stillMoves, hmove])]
  · intro d s1 hf hk hd hel hroom hfall hj hmove
    subst hk
    obtain ⟨hq, hn⟩ := job_names _ _ _ _ ht.1
    have hask : askPage true j sid vpn s 0 = .moves d s1 := by
      change askFall s j sid vpn = _
      rw [askFall, hd]
      simp [hel, hfall, Nat.not_le.2 (Nat.lt_succ_of_le hroom)]
    rw [exec_pageFall, pageRow_starts ht hs hok hf, runPage_moves hf hw (by rwa [hq, hn]) hask (by simp [stillMoves, hmove])]
  · intro s0
    refine ⟨fun hdry hlev => ?_, fun hfull => ?_, fun d s1 s2 hneed hroom hscan hfall => ?_⟩
    · rw [exec_evictor, evictor_rests (.inl (by rw [hlev, Bool.or_false]; exact hdry))]
      rfl
    · rw [exec_evictor, evictor_rests (.inr hfull)]
      rfl
    · rw [exec_evictor, evictor_takes (awake_of_awake ha) hinit hneed hroom hscan hfall]

end Sys2Proof.Proofs
end

section
set_option Elab.async false
/-! The ends of falls, rises and neap fetches (10 R320; 11 R351, R357, R366). -/
namespace Sys2Proof.Proofs
open Sys2Proof Sys2Proof.Machine Sys2Proof.Laws Sys2Proof.Safety

variable {s : State} {d : BitVec 28} {f : Fall} {r : Rise}

theorem exec_fallCommit (d : BitVec 28) (s : State) : exec (.fallCommit d) s = .next (fallCommit d s) := rfl
theorem exec_riseComplete (d : BitVec 28) (s : State) : exec (.riseComplete d) s = .next (riseComplete d s) := rfl
theorem exec_neapStreamDeadline (d : BitVec 28) (lt : Dword) (s : State) :
    exec (.neapStreamDeadline d lt) s = .next (neapStreamDeadline d lt s) := rfl

theorem fallCommit_open (hf : (s.pg.falls.find? fun f => f.d == d.toNat) = some f) (hl : f.left ≠ 0) : fallCommit d s = s := by
  simp [fallCommit, hf, hl]

theorem fallCommit_lost (hf : (s.pg.falls.find? fun f => f.d == d.toNat) = some f) (hl : f.left = 0) (hc : f.cls = 9) :
    fallCommit d s = putDesc (stopFall s d.toNat) d.toNat { getDesc s d.toNat with state := 1, commit := false, slot := 0 } := by
  simp [fallCommit, hf, hl, hc]

/-- The descriptor of a page that has fallen. -/
def fallenDesc (x : Desc) : Desc := { x with state := 2, commit := false, frame := 0 }

theorem fallCommit_falls (hf : (s.pg.falls.find? fun f => f.d == d.toNat) = some f) (hl : f.left = 0) (hc : f.cls ≠ 9) :
    fallCommit d s = pushFrame (putDesc (dropFall (commitFall s f) d.toNat) d.toNat (fallenDesc (getDesc (commitFall s f) d.toNat)))
      (getDesc (commitFall s f) d.toNat).frame := by
  unfold fallCommit
  simp only [hf, hl, bne_self_eq_false, Bool.false_eq_true, if_false, beq_eq_false_iff_ne.2 hc]
  rfl

theorem commitFall_open (hl : f.left = 0) (hc : f.cls ≠ 9) (hx : (getDesc s f.d).commit = false) (hs : f.summary = none) :
    commitFall s f = putDesc (s.wr (s.tier.sideBase + 32 * f.d) f.header) f.d { getDesc s f.d with commit := true } := by
  simp [commitFall, hl, hc, hx, hs]

theorem riseComplete_open (hr : (s.pg.rises.find? fun r => r.d == d.toNat) = some r) (hl : r.left ≠ 0) : riseComplete d s = s := by
  simp [riseComplete, hr, hl]

/-- `s` without the rise of page `d`, its shelf slot given back. -/
def unrisen (s : State) (d : Nat) : State :=
  dropShelf { s with pg := { s.pg with rises := s.pg.rises.filter fun g => g.d != d } } d (getDesc s d)

/-- `t` differs from `s` in T1 and in how much of the shelf and of the neap store is free. -/
def Drops (s t : State) : Prop := ∃ m sf nf, t = { s with t1 := m, tier := { s.tier with shelfFree := sf, neapFree := nf } }

theorem Drops.wrNum {s t : State} (h : Drops s t) (a n x sf nf : Nat) :
    Drops s { t.wrNum a n x with tier := { t.tier with shelfFree := sf, neapFree := nf } } := by
  obtain ⟨m, sf', nf', rfl⟩ := h
  exact ⟨m.put a (leBytes n x), sf, nf, rfl⟩

theorem putSide_drops {s t : State} (h : Drops s t) (d x : Nat) : Drops s (putSide t d x) := by
  unfold putSide
  split
  · exact h.wrNum _ _ _ t.tier.shelfFree t.tier.neapFree
  · exact h

theorem pushShelf_drops {s t : State} (h : Drops s t) (x : Nat) : Drops s (pushShelf t x) := h.wrNum _ _ _ _ t.tier.neapFree

theorem pushNeap_drops {s t : State} (h : Drops s t) (x : Nat) : Drops s (pushNeap t x) := h.wrNum _ _ _ t.tier.shelfFree _

theorem dropShelf_drops (s : State) (d : Nat) (x : Desc) : Drops s (dropShelf s d x) := by
  have h : Drops s (pushShelf s x.slot) := pushShelf_drops ⟨s.t1, s.tier.shelfFree, s.tier.neapFree, rfl⟩ _
  unfold dropShelf
  simp only
  split
  · exact putSide_drops (pushNeap_drops h _) ..
  · exact h

/-- A page whose rise fails: it is `NEAR` with poison, counted and recorded. -/
def failRise (s : State) (d e : Nat) : State :=
  let x := getDesc s d
  let s := unrisen s d
  let s := { s with t1 := s.t1.clear (frameAddr s x.frame) 65536, tier := { s.tier with foldErr := add64 s.tier.foldErr 1 } }
  fault (putDesc s d { x with state := 1, slot := 0, poison := true }) 2 2 0xFF false 0 d e

theorem riseComplete_fails (hr : (s.pg.rises.find? fun r => r.d == d.toNat) = some r) (hl : r.left = 0)
    (hbad : r.timedOut = true ∨ r.poisoned = true) : ∃ e, riseComplete d s = failRise s d.toNat e := by
  by_cases ht : r.timedOut = true
  · refine ⟨4, ?_⟩
    unfold riseComplete
    simp only [hr, hl, ht, bne_self_eq_false, Bool.false_eq_true, if_false, if_true]
    rfl
  · have hp : r.poisoned = true := hbad.resolve_left ht
    refine ⟨3, ?_⟩
    unfold riseComplete
    simp only [hr, hl, ht, hp, bne_self_eq_false, Bool.false_eq_true, if_false, if_true]
    rfl

theorem failRise_frame (s : State) (d e : Nat) : (failRise s d e).tier.foldErr = add64 s.tier.foldErr 1 ∧
    (failRise s d e).flt.count.get 2 0 = add64 (s.flt.count.get 2 0) 1 ∧
    (failRise s d e).pg.rises = (s.pg.rises.filter fun g => g.d != d) ∧ (failRise s d e).t0 = s.t0 := by
  obtain ⟨m, sf, nf, hdrop⟩ := dropShelf_drops { s with pg := { s.pg with rises := s.pg.rises.filter fun g => g.d != d } } d (getDesc s d)
  have hcount := (fault_counts (putDesc { unrisen s d with
    t1 := (unrisen s d).t1.clear (frameAddr (unrisen s d) (getDesc s d).frame) 65536
    tier := { (unrisen s d).tier with foldErr := add64 (unrisen s d).tier.foldErr 1 } } d
      { getDesc s d with state := 1, slot := 0, poison := true }) 2 2 0xFF false 0 d e).1
  have hflt : (unrisen s d).flt = s.flt := by rw [unrisen, hdrop]
  refine ⟨?_, ?_, ?_, ?_⟩
  · rw [failRise, fault_eq]
    change add64 (unrisen s d).tier.foldErr 1 = _
    rw [unrisen, hdrop]
  · refine (congrArg (fun c => Tab.get c 2 0) hcount).trans ?_
    change ((unrisen s d).flt.count.put 2 (add64 ((unrisen s d).flt.count.get 2 0) 1)).get 2 0 = _
    rw [hflt, get_put_self]
  · rw [failRise, fault_eq]
    change (unrisen s d).pg.rises = _
    rw [unrisen, hdrop]
  · rw [failRise, fault_eq]
    change (unrisen s d).t0 = _
    rw [unrisen, hdrop]

theorem riseComplete_unfolds {page : List Byte} (hr : (s.pg.rises.find? fun r => r.d == d.toNat) = some r) (hl : r.left = 0)
    (ht : r.timedOut = false) (hp : r.poisoned = false)
    (hok : unfoldPage (fld (sideWord s d.toNat) 2 3) (s.t1.fetch (s.tier.sideBase + 32 * d.toNat) 16).1 r.bytes = .ok page)
    (hfmt : fld (ofLe (s.t1.fetch (s.tier.sideBase + 32 * d.toNat) 16).1) 17 2 ≠ 3) :
    riseComplete d s = putDesc { unrisen s d.toNat with
      t1 := (unrisen s d.toNat).t1.store (frameAddr (unrisen s d.toNat) (getDesc s d.toNat).frame) page [] } d.toNat
      { getDesc s d.toNat with state := 1, slot := 0 } := by
  unfold riseComplete
  simp only [hr, hl, ht, hp, hok, bne_self_eq_false, Bool.false_eq_true, if_false, beq_eq_false_iff_ne.2 hfmt]
  rfl

/-- The fetches of page `d` that a command waits for past their stream deadline. -/
def dueWaits (s : State) (d : Nat) (j : Job) : List (Nat × Nat) :=
  j.kvWaits.filter fun w => w.2 == d &&
    (match streamDeadline s j { sid := w.1 } with | some sd => decide (sd ≤ (s.life.lt : Int)) | none => false)

/-- `j` with those fetches on the neap path. -/
def neapTaken (s : State) (d : Nat) (j : Job) : Job :=
  if j.phase == .done then j
  else { j with
    neaps := j.neaps ++ (dueWaits s d j).map (fun w => (w.1, w.2, fld (sideWord s d) 8 24))
    kvWaits := j.kvWaits.filter fun w => !(dueWaits s d j).contains w }

theorem neapStreamDeadline_eq (d : BitVec 28) (lt : Dword) (s : State) : neapStreamDeadline d lt s =
    if (getDesc (At s lt) d.toNat).state == 1 || !bit (sideWord (At s lt) d.toNat) 0 then At s lt
    else { At s lt with jobs := (At s lt).jobs.map (neapTaken (At s lt) d.toNat) } := rfl

theorem getDesc_at (s : State) (lt : Dword) (d : Nat) : getDesc (At s lt) d = getDesc s d := by
  rw [At, advance_eq]
  rfl

theorem sideWord_at (s : State) (lt : Dword) (d : Nat) : sideWord (At s lt) d = sideWord s d := by
  rw [At, advance_eq]
  rfl

theorem jobs_at (s : State) (lt : Dword) : (At s lt).jobs = s.jobs := by
  rw [At, advance_eq]

theorem mem_dueWaits {j : Job} {w : Nat × Nat} {e : Nat} : w ∈ dueWaits s e j ↔
    w ∈ j.kvWaits ∧ w.2 = e ∧ ∃ sd, streamDeadline s j { sid := w.1 } = some sd ∧ sd ≤ (s.life.lt : Int) := by
  rw [dueWaits, List.mem_filter, Bool.and_eq_true, beq_iff_eq]
  cases streamDeadline s j { sid := w.1 } <;> simp

/-- Settles O38, from what each end leaves of the state and from which fetches are due. -/
theorem fallsRisesAndNeapFetchesEnd : Obligations.FallsRisesAndNeapFetchesEnd := by
  unfold Obligations.FallsRisesAndNeapFetchesEnd
  refine ⟨fun d s => ⟨?_, ?_, ?_, ?_, ?_, ?_, ?_⟩, fun d lt s => ?_⟩
  · intro f hf hl hc s1 x
    rw [exec_fallCommit, fallCommit_falls hf hl hc]
    rfl
  · exact fun f hl hc => ⟨fun hx => by simp [commitFall, hx], commitFall_open hl hc⟩
  · intro f hf hl hc
    rw [exec_fallCommit, fallCommit_lost hf hl hc]
  · intro f hf hl
    rw [exec_fallCommit, fallCommit_open hf hl]
  · intro r hr hl
    rw [exec_riseComplete, riseComplete_open hr hl]
  · intro r page hr hl ht hp x hdr hok hfmt s1
    rw [exec_riseComplete, riseComplete_unfolds hr hl ht hp hok hfmt]
    rfl
  · intro r hr hl hbad
    obtain ⟨e, he⟩ := riseComplete_fails hr hl hbad
    exact ⟨_, congrArg Host.Outcome.next he, failRise_frame s d.toNat e⟩
  · intro s0
    have hrow := neapStreamDeadline_eq d lt s
    rw [getDesc_at, sideWord_at] at hrow
    refine ⟨fun h => ?_, fun hst hside => ?_⟩
    · rw [exec_neapStreamDeadline, hrow, if_pos (by simpa using h)]
    · rw [if_neg (by simp [hst, hside]), jobs_at] at hrow
      refine ⟨_, congrArg Host.Outcome.next hrow, rfl, by simp, fun j hj hphase => ?_⟩
      have hdone : (j.phase == .done) = false := by simpa using hphase
      refine ⟨neapTaken s0 d.toNat j, List.mem_map_of_mem hj, ?_, fun w hw => ⟨fun hdue => ?_, fun hdue => ?_⟩⟩
      · unfold neapTaken
        rw [hdone]
        rfl
      · have hmem : w ∈ dueWaits s0 d.toNat j := mem_dueWaits.2 ⟨hw, hdue⟩
        simp only [neapTaken, hdone, Bool.false_eq_true, if_false, List.mem_append, List.mem_map, List.mem_filter]
        refine ⟨.inr ⟨w, hmem, ?_⟩, by simp [hmem]⟩
        rw [show sideWord s0 d.toNat = sideWord s d.toNat from sideWord_at ..]
      · have hmem : w ∉ dueWaits s0 d.toNat j := fun h => hdue (mem_dueWaits.1 h).2
        simp [neapTaken, hdone, hw, hmem]

end Sys2Proof.Proofs
end

section
set_option Elab.async false
/-! The rows of the cascade's messages: what every one checks before it acts (14 R450, R477; 15 R489, R514). -/
namespace Sys2Proof.Proofs
open Sys2Proof Sys2Proof.Machine Sys2Proof.Laws Sys2Proof.Safety

variable {s : State} {m : Msg} {ty : Nat}

/-- The rows of the cascade's messages and their types. -/
def messageRows (m : Msg) : List (Instr × Nat) :=
  [(.joinMsg m, 0x01), (.welcomeMsg m, 0x02), (.startMsg m, 0x03), (.refuseMsg m, 0x04), (.arriveMsg m, 0x10), (.releaseMsg m, 0x11),
    (.contrib m, 0x20), (.resultMsg m, 0x21), (.creditMsg m, 0x22), (.nak m, 0x23), (.abandon m, 0x24), (.commitMsg m, 0x30),
    (.repeatMsg m, 0x31), (.repeatAck m, 0x32), (.resumeMsg m, 0x33), (.cascadeHalt m, 0x34), (.aperWr m, 0x40), (.aperRd m, 0x41),
    (.aperData m, 0x42), (.aperAck m, 0x43)]

theorem exec_message (m : Msg) (s : State) : ∀ p ∈ messageRows m, exec p.1 s = .next (recvMsg p.2 m s) := by
  simp only [messageRows, List.forall_mem_cons]
  exact ⟨rfl, rfl, rfl, rfl, rfl, rfl, rfl, rfl, rfl, rfl, rfl, rfl, rfl, rfl, rfl, rfl, rfl, rfl, rfl, rfl, fun _ h => nomatch h⟩

theorem recvMsg_otherType (h : m.type.toNat ≠ ty) (hk : msgTypes.contains m.type.toNat = true) : recvMsg ty m s = s := by
  simp only [recvMsg, bne_iff_ne.2 h, hk, Bool.and_self, Bool.or_true, if_true]

theorem recvMsg_beforeReady (h : s.life.ready = false) : recvMsg ty m s = s := by
  simp only [recvMsg, h, Bool.not_false, Bool.true_or, if_true]

theorem recvMsg_beyondCredit (ht : m.type.toNat = ty) (hr : s.life.ready = true) (h : s.str.linkRx < msgFlits m) :
    recvMsg ty m s = portViol s 5 0x06 (m.type.toNat + m.src.toNat <<< 8) := by
  simp [recvMsg, ht, hr, h]

/-- A message of the row's type that fits the receive credit is handled by an awake engine. -/
theorem recvMsg_handles (ht : m.type.toNat = ty) (ha : Awake s) (h : msgFlits m ≤ s.str.linkRx) : recvMsg ty m s = handleMsg s m := by
  simp [recvMsg, ht, ha.1, Nat.not_lt.2 h, awake_of_awake ha]

/-- Settles O39, from the checks that every message row makes. -/
theorem cascadeMessagesAreChecked : Obligations.CascadeMessagesAreChecked := by
  unfold Obligations.CascadeMessagesAreChecked
  intro m s c ty hc
  have hrow : exec c s = .next (recvMsg ty m s) := exec_message m s (c, ty) hc
  rw [hrow]
  refine ⟨fun h hk => ?_, fun h => ?_, fun ht hr h => ?_, fun ht ha hk hok => ?_, fun ht ha hk hok hst => ?_⟩
  · rw [recvMsg_otherType h hk]
  · rw [recvMsg_beforeReady h]
  · rw [recvMsg_beyondCredit ht hr h]
  · rw [recvMsg_handles ht ha hk, handleMsg, hok]
    rfl
  · rw [recvMsg_handles ht ha hk, handleMsg, hok, hst]
    rfl

end Sys2Proof.Proofs
end

section
set_option Elab.async false
/-! SUPPORT. What the work on the streams and the end of a command leave of the cascade: its fields besides the messages that wait for
credits, the buckets and the terms staged for them, and the semaphores. -/
namespace Sys2Proof.Proofs
open Sys2Proof Sys2Proof.Machine Sys2Proof.Laws Sys2Proof.Safety

/-- `s` has the always-on state, the semaphores and the cascade of `a`, but for the messages that wait, the buckets, what is staged for them and
whether one was abandoned. -/
def Calm (a s : State) : Prop :=
  s.life = a.life ∧ s.sync.sem = a.sync.sem ∧ s.cas = { a.cas with
    waiting := s.cas.waiting, buckets := s.cas.buckets, staged := s.cas.staged, abandoned := s.cas.abandoned }

variable {a s t : State}

theorem Calm.refl (a : State) : Calm a a := ⟨rfl, rfl, rfl⟩

theorem Calm.trans {b : State} (h : Calm a b) (h' : Calm b s) : Calm a s := by
  obtain ⟨hl, hs, hc⟩ := h
  obtain ⟨hl', hs', hc'⟩ := h'
  refine ⟨hl'.trans hl, hs'.trans hs, ?_⟩
  conv => lhs; rw [hc']
  conv => lhs; rw [hc]

theorem calm_ite {c : Prop} [Decidable c] (hs : Calm a s) (ht : Calm a t) : Calm a (if c then s else t) := by
  split
  · exact hs
  · exact ht

theorem calm_foldl {β : Type} {f : State → β → State} (l : List β) (hf : ∀ s x, Calm a s → Calm a (f s x)) (h : Calm a s) :
    Calm a (l.foldl f s) := by
  induction l generalizing s with
  | nil => exact h
  | cons x l ih => exact ih (hf s x h)

theorem withJob_calm {q n : Nat} {f : State → Job → State} (h : Calm a s) (hf : ∀ j, Calm a (f s j)) : Calm a (s.withJob q n f) := by
  unfold State.withJob
  split
  · exact h
  · exact hf _

theorem trace_calm (code cls core q n op arg : Nat) (h : Calm a s) : Calm a (trace s code cls core q n op arg) := by
  rw [trace_eq]
  exact h

theorem viol_calm (cmd cause detail aux : Nat) (h : Calm a s) : Calm a (viol s cmd cause detail aux) := by
  rw [viol_eq]
  exact h

theorem fault_calm (cls code core : Nat) (inj : Bool) (cmd detail aux : Nat) (h : Calm a s) : Calm a (fault s cls code core inj cmd detail aux) := by
  rw [fault_eq]
  exact h

theorem count_calm (core slot d : Nat) (h : Calm a s) : Calm a (count s core slot d) := by
  rw [count_eq]
  exact h

theorem sendMsg_calm (dry : Nat) (m : Msg) (h : Calm a s) : Calm a (sendMsg s dry m) := by
  unfold sendMsg
  dsimp only
  obtain ⟨hl, hs, hc⟩ := h
  split
  · exact ⟨hl, hs, hc⟩
  · refine ⟨hl, hs, ?_⟩
    conv => lhs; rw [hc]

theorem sendTag_calm (key : Nat) (h : Calm a s) : Calm a (sendTag s key) := by
  unfold sendTag
  split
  · exact h
  · refine calm_ite h ?_
    dsimp only
    split
    · exact calm_ite h h
    · exact calm_ite h h
    · exact sendMsg_calm _ _ h

theorem takeTag_calm {core : Nat} {g : Tag} (h : Calm a s) (e : takeTag s core g = some t) : Calm a t := by
  unfold takeTag at e
  split at e
  · cases e
  · cases e
    exact sendTag_calm (s := { s with str := _ }) _ h

theorem loseWrite_calm (core tag : Nat) (g : Tag) (h : Calm a s) : Calm a (loseWrite s core tag g) := by
  rw [loseWrite_eq]
  have hcount : Calm a (countLost (viol s (lostBy s g) 0x0B core tag) g) := by
    unfold countLost
    split
    · exact withJob_calm (viol_calm _ _ _ _ h) fun j => viol_calm _ _ _ _ h
    · exact viol_calm _ _ _ _ h
  unfold openBytes
  split
  · cases g.chan <;> exact hcount
  · exact hcount

theorem issueOne_calm {j : Job} (h : Calm a s) (e : issueOne s j = some t) : Calm a t := by
  unfold issueOne at e
  dsimp only at e
  split at e
  · cases e
  · split at e
    · exact takeTag_calm (s := s.setJob _) h e
    · exact takeTag_calm (s := s.setJob _) h e
    · cases e
      exact loseWrite_calm (s := s.setJob _) _ _ _ h

theorem issueWrites_calm (k q n : Nat) (h : Calm a s) : Calm a (issueWrites k s q n) := by
  induction k generalizing s with
  | zero => exact h
  | succ k ih =>
    unfold issueWrites
    split
    · exact h
    · split
      · exact h
      · next e => exact ih (issueOne_calm h e)

theorem landUnit_calm (core : Nat) (g : Tag) (u : Nat × Bool × List Byte) (h : Calm a s) : Calm a (landUnit core g s u) := by
  have hcount : Calm a (if u.2.1 then count s core 11 1 else s) := calm_ite (count_calm _ _ _ h) h
  unfold landUnit
  dsimp only
  split
  · exact withJob_calm hcount fun j => hcount
  · exact hcount
  · exact count_calm _ _ _ h
  · exact h

theorem askPieces_calm (j : Job) (l : List Piece) (h : Calm a s) : Calm a (askPieces s j l).1 := by
  induction l generalizing s with
  | nil => exact h
  | cons p ps ih =>
    unfold askPieces
    dsimp only
    split
    · split
      · exact h
      · next e => exact ih (takeTag_calm h e)
    · split
      · exact h
      · next e => exact ih (takeTag_calm h e)
    · exact ih (calm_foldl _ (fun _ _ h => landUnit_calm _ _ _ h) h)

theorem issueReads_calm (q n : Nat) (h : Calm a s) : Calm a (issueReads s q n) := by
  unfold issueReads
  refine withJob_calm h fun j => ?_
  split
  · exact withJob_calm (askPieces_calm _ _ h) fun j => askPieces_calm _ _ h
  · exact h

theorem issueTags_calm (core : Nat) (l : List Tag) (h : Calm a s) : Calm a (issueTags core l s).2 := by
  induction l generalizing s with
  | nil => exact h
  | cons g l ih =>
    unfold issueTags
    split
    · exact h
    · next e => exact ih (takeTag_calm h e)

theorem issueFall_calm (d : Nat) (h : Calm a s) : Calm a (issueFall s d) := by
  unfold issueFall
  split
  · exact h
  · exact issueTags_calm _ _ h

theorem issueRise_calm (d : Nat) (h : Calm a s) : Calm a (issueRise s d) := by
  unfold issueRise
  split
  · exact h
  · exact issueTags_calm _ _ h

theorem pumpWrites_calm (h : Calm a s) : Calm a (pumpWrites s) := by
  unfold pumpWrites
  refine calm_foldl _ (fun s w h => ?_) h
  split
  · exact issueReads_calm _ _ (issueWrites_calm _ _ _ h)
  · exact issueFall_calm _ h
  · exact issueRise_calm _ h

theorem sinkTags_calm (p : TagFor → Bool) (h : Calm a s) : Calm a (sinkTags s p) := pumpWrites_calm (s := { s with str := _ }) h

theorem sinkUnits_calm (j : Job) (mine : Nat → Bool) (h : Calm a s) : Calm a (sinkUnits s j mine) := by
  rw [sinkUnits_eq]
  have hcount : Calm a ((j.fetched.filter fun f => mine f.unit).foldl (fun s f => count s f.core 10 f.data.length) s) :=
    calm_foldl _ (fun _ _ h => count_calm _ _ _ h) h
  have hsink := sinkTags_calm (readsOf j mine) (withJob_calm (q := j.q) (n := j.n)
    (f := fun s j => s.setJob { j with ask := j.ask.map fun a => a.filter fun p => !mine p.unit }) hcount fun _ => hcount)
  exact withJob_calm hsink fun _ => hsink

theorem pushFrame_calm (f : Nat) (h : Calm a s) : Calm a (pushFrame s f) := by
  unfold pushFrame
  dsimp only
  split <;> exact h

theorem returnNeed_calm (m : Member) (h : Calm a s) : Calm a (returnNeed s m) :=
  calm_foldl _ (fun _ _ h => h) (calm_foldl _ (fun _ _ h => pushFrame_calm _ h) h)

theorem setSlotState_calm (i : Nat) (x : Slot) (st : Nat) (h : Calm a s) : Calm a (setSlotState s i x st) := trace_calm (s := { s with slots := _ }) _ _ _ _ _ _ _ h

theorem memberDropped_calm (s0 : State) (j : Job) (i : Nat) (m : Member) (h : Calm a s0) :
    Calm a (let s := returnNeed (if m.phase == .issued then s0 else sinkUnits s0 j (j.memberPart i)) m
      if m.token then dropToken s m.core else s) := by
  have hret : Calm a (returnNeed (if m.phase == .issued then s0 else sinkUnits s0 j (j.memberPart i)) m) :=
    returnNeed_calm _ (calm_ite h (sinkUnits_calm _ _ h))
  exact calm_ite hret hret

theorem endMember_calm (q n i outcome : Nat) (h : Calm a s) : Calm a (endMember s q n i outcome) := by
  unfold endMember
  refine withJob_calm h fun j => ?_
  split
  · exact h
  · next m hm =>
    refine calm_ite h ?_
    have hdrop := memberDropped_calm s j i m h
    refine withJob_calm ?_ fun k => ?_
    · split
      · exact calm_ite (setSlotState_calm _ _ _ hdrop) hdrop
      · exact hdrop
    · split
      · exact calm_ite (setSlotState_calm _ _ _ hdrop) hdrop
      · exact hdrop

theorem dropFork_calm (j : Job) (h : Calm a s) : Calm a (dropFork s j) := by
  unfold dropFork
  split
  · split
    · exact calm_ite (setSlotState_calm _ _ _ h) h
    · exact h
  · exact h

theorem dropReload_calm (j : Job) (h : Calm a s) : Calm a (dropReload s j) := by
  unfold dropReload
  exact calm_ite h h

theorem withdraw_calm (q n b : Nat) (h : Calm a s) : Calm a (withdraw s q n b) := by
  unfold withdraw
  split
  · exact h
  · exact calm_ite h h

theorem dropHold_calm (q n : Nat) (h : Calm a s) : Calm a (dropHold s q n) := by
  unfold dropHold
  refine withJob_calm h fun j => ?_
  have hpush : Calm a (j.hold.2.foldl pushDesc (j.hold.1.foldl pushFrame s)) :=
    calm_foldl _ (fun _ _ h => h) (calm_foldl _ (fun _ _ h => pushFrame_calm _ h) h)
  exact withJob_calm hpush fun _ => hpush

theorem dropBucket_calm (j : Job) (h : Calm a s) : Calm a (dropBucket s j) := by
  unfold dropBucket
  split
  · exact h
  · next b hb =>
    obtain ⟨hl, hs, hc⟩ := h
    have hdrop : Calm a { s with cas := { s.cas with
        buckets := s.cas.buckets.filter fun x => x.tag != b.tag
        staged := s.cas.staged.filter fun e => e.1 != b.tag } } := by
      refine ⟨hl, hs, ?_⟩
      conv => lhs; rw [hc]
    refine calm_ite (calm_ite ?_ (sendMsg_calm _ _ hdrop)) hdrop
    obtain ⟨hl', hs', hc'⟩ := hdrop
    refine ⟨hl', hs', ?_⟩
    conv => lhs; rw [hc']

/-- The end of a command leaves the cascade as `Calm` says. -/
theorem endJob_calm (q n st : Nat) (h : Calm a s) : Calm a (endJob s q n st) := by
  unfold endJob
  refine withJob_calm h fun j => ?_
  refine calm_ite (calm_ite h h) ?_
  have h1 : Calm a (sinkFetches (dropItems s q n) j) := sinkUnits_calm (s := dropItems s q n) _ _ h
  have h2 := calm_foldl (a := a) (List.range j.members.length) (f := fun s i => endMember s q n i (if st == 2 then 3 else 1))
    (fun s i h => endMember_calm q n i _ h) h1
  have h3 := dropFork_calm j (dropReload_calm j h2)
  have h4 := calm_ite (c := (j.op == 0x31) = true) (withdraw_calm q n (fld (j.body 0) 0 6) h3) h3
  have h5 := dropHold_calm q n (dropBucket_calm j h4)
  exact withJob_calm h5 fun _ => h5

theorem finishJob_calm (q n : Nat) (h : Calm a s) : Calm a (finishJob s q n) := withJob_calm h fun _ => calm_ite h h

theorem satisfyWaits_calm (h : Calm a s) : Calm a (satisfyWaits s) := calm_foldl _ (fun _ _ h => finishJob_calm _ _ h) h

theorem finishJob_sync (s : State) (q n : Nat) : (finishJob s q n).sync = s.sync ∧ (finishJob s q n).cas = s.cas ∧ (finishJob s q n).life = s.life := by
  unfold finishJob State.withJob
  split
  · exact ⟨rfl, rfl, rfl⟩
  · dsimp only
    split <;> exact ⟨rfl, rfl, rfl⟩

theorem foldl_finishJob {β : Type} (f : β → Nat × Nat) (l : List β) (s : State) :
    (l.foldl (fun s x => finishJob s (f x).1 (f x).2) s).sync = s.sync ∧ (l.foldl (fun s x => finishJob s (f x).1 (f x).2) s).cas = s.cas ∧
      (l.foldl (fun s x => finishJob s (f x).1 (f x).2) s).life = s.life := by
  induction l generalizing s with
  | nil => exact ⟨rfl, rfl, rfl⟩
  | cons x l ih =>
    obtain ⟨h1, h2, h3⟩ := finishJob_sync s (f x).1 (f x).2
    obtain ⟨k1, k2, k3⟩ := ih (finishJob s (f x).1 (f x).2)
    exact ⟨k1.trans h1, k2.trans h2, k3.trans h3⟩

theorem satisfyWaits_sync (s : State) : (satisfyWaits s).sync = s.sync ∧ (satisfyWaits s).cas = s.cas ∧ (satisfyWaits s).life = s.life :=
  foldl_finishJob (fun j : Job => (j.q, j.n)) _ s

/-- A semaphore set: it alone has the new value, and the cascade is as it was. -/
theorem setSem_sync (s : State) (i v : Nat) : (setSem s i v).sync = { s.sync with sem := s.sync.sem.put i (v % 2 ^ 32) } ∧
    (setSem s i v).cas = s.cas ∧ (setSem s i v).life = s.life := satisfyWaits_sync _

/-- The semaphores of a list as they were saved. -/
def semsRestored (s : State) (l : List Nat) : State := l.foldl (fun s i => setSem s i (s.cas.semSaved.get i 0)) s

theorem semsRestored_cas (s : State) (l : List Nat) : (semsRestored s l).cas = s.cas ∧ (semsRestored s l).life = s.life := by
  unfold semsRestored
  induction l generalizing s with
  | nil => exact ⟨rfl, rfl⟩
  | cons i l ih =>
    obtain ⟨-, h1, h2⟩ := setSem_sync s i (s.cas.semSaved.get i 0)
    obtain ⟨k1, k2⟩ := ih (setSem s i (s.cas.semSaved.get i 0))
    exact ⟨k1.trans h1, k2.trans h2⟩

theorem semsRestored_get (s : State) (l : List Nat) (i : Nat) : (semsRestored s l).sync.sem.get i 0 =
    if i ∈ l then s.cas.semSaved.get i 0 % 2 ^ 32 else s.sync.sem.get i 0 := by
  unfold semsRestored
  induction l generalizing s with
  | nil => rfl
  | cons k l ih =>
    obtain ⟨h0, h1, -⟩ := setSem_sync s k (s.cas.semSaved.get k 0)
    rw [List.foldl_cons, ih, h0, h1]
    by_cases hl : i ∈ l
    · rw [if_pos hl, if_pos (List.mem_cons_of_mem _ hl)]
    · rw [if_neg hl]
      by_cases hk : i = k
      · subst hk
        rw [if_pos (List.mem_cons_self ..)]
        exact get_put_self ..
      · rw [if_neg (by simp [hk, hl])]
        exact get_put_ne _ _ _ _ _ hk

/-- The step commands end (14 R475). -/
def stepsEnded (s : State) : State := (s.jobs.filter fun j => j.stepCmd).foldl (fun s j => endJob s j.q j.n 7) s

/-- The published commands of the step's queues will end untaken. -/
def untaken (s : State) : State :=
  ((List.range 64).filter fun q => bit s.cas.qmask q && (s.queue q).enable).foldl (fun s q =>
    let k := s.queue q
    s.setQueue q { k with rollLeft := (k.tail + 65536 - k.head) % 65536 }) s

/-- The attempt is forgotten. -/
def forgotten (s : State) : State :=
  let s := clearAttempt s
  { s with
    cas := { s.cas with buckets := [] }
    sync := { s.sync with bars := s.sync.bars.map fun p => (p.1, { p.2 with
      sent := false
      heard := []
      count := if p.2.arrivals.isEmpty then 0 else p.2.count }) } }

/-- The semaphores of `CAS_SEMMASK`. -/
def maskedSems (s : State) : List Nat := (List.range 64).filter fun i => bit s.cas.semmask i

theorem mem_maskedSems {s : State} {i : Nat} (hi : i < 64) (h : bit s.cas.semmask i = true) : i ∈ maskedSems s := by
  simp [maskedSems, hi, h]

theorem rollBack_eq (s : State) (st : Nat) : rollBack s st =
    let s := forgotten (untaken (stepsEnded { s with cas := { s.cas with state := st, resumed := false } }))
    let s := semsRestored s (maskedSems s)
    trace (pulse s 0x0A) 0x0B 6 0xFF 0 0 0 (1 + (s.cas.step % 2 ^ 24) <<< 8) := rfl

theorem untaken_calm (h : Calm a s) : Calm a (untaken s) := calm_foldl _ (fun _ _ h => h) h

theorem stepsEnded_calm (h : Calm a s) : Calm a (stepsEnded s) := calm_foldl _ (fun _ _ h => endJob_calm _ _ _ h) h

/-- The cascade after a roll back to state `st`. -/
def rolledBack (c : Cascade) (st : Nat) (waiting : List (Nat × Nat × Msg)) : Cascade :=
  { c with
    state := st, resumed := false, doneTags := [], privTags := [], staged := [], chunks := [], pendingUp := [], nakked := []
    abandoned := false, buckets := [], waiting := waiting }

/-- A roll back (14 R475): the attempt is forgotten and the semaphores stand as saved. -/
theorem rollBack_cas (s : State) (st : Nat) : (rollBack s st).cas = rolledBack s.cas st (rollBack s st).cas.waiting ∧
    (rollBack s st).life = s.life ∧
    ∀ i, i < 64 → bit s.cas.semmask i = true → (rollBack s st).sync.sem.get i 0 = s.cas.semSaved.get i 0 % 2 ^ 32 := by
  obtain ⟨hl, -, hc⟩ := untaken_calm (stepsEnded_calm (.refl { s with cas := { s.cas with state := st, resumed := false } }))
  rw [rollBack_eq]
  dsimp only
  generalize hu : untaken (stepsEnded { s with cas := { s.cas with state := st, resumed := false } }) = u at hl hc
  have hf : (forgotten u).cas = rolledBack s.cas st u.cas.waiting := by
    rw [show (forgotten u).cas = { (clearAttempt u).cas with buckets := [] } from rfl]
    unfold clearAttempt rolledBack
    conv => lhs; rw [hc]
  obtain ⟨h1, h2⟩ := semsRestored_cas (forgotten u) (maskedSems (forgotten u))
  rw [trace_eq]
  refine ⟨?_, h2.trans hl, fun i hi hb => ?_⟩
  · change (semsRestored _ _).cas = rolledBack s.cas st (semsRestored _ _).cas.waiting
    rw [h1, hf]
    rfl
  · change (semsRestored _ _).sync.sem.get i 0 = _
    rw [semsRestored_get, if_pos (mem_maskedSems hi (by rw [hf]; exact hb)), hf]
    rfl

end Sys2Proof.Proofs
end

section
set_option Elab.async false
/-! Forming a cascade group (14 R442-R444). -/
namespace Sys2Proof.Proofs
open Sys2Proof Sys2Proof.Machine Sys2Proof.Laws Sys2Proof.Safety

variable {s : State} {m : Msg}

theorem exec_joinRetry (lt : Dword) (s : State) : exec (.joinRetry lt) s = .next (joinRetry lt s) := rfl
theorem exec_casEnable (v : Word) (s : State) : exec (.casEnable v) s = .next (portWrite 0xA000 (v ||| 1).toNat s) := rfl
theorem exec_casDisable (s : State) : exec .casDisable s = .next (portWrite 0xA000 (casCtrl s - casCtrl s % 2) s) := rfl

/-- What the engine does with a message of type `ty` that is in form and of this attempt. -/
def handled (s : State) (m : Msg) (ty : Nat) : State :=
  match ty with
  | 0x01 => onJoin s m
  | 0x02 => onWelcome s
  | 0x03 => onStart s
  | 0x04 => onRefuse s m
  | 0x10 => onArrive s m
  | 0x11 => onRelease s m
  | 0x20 => onContrib s m
  | 0x21 => onResult s m
  | 0x22 => onCredit s m
  | 0x23 => onNak s m
  | 0x24 => onAbandon s m
  | 0x30 => onCommit s m
  | 0x31 => onRepeat s m
  | 0x32 => onAck s m
  | 0x33 => onResume s
  | 0x34 => onHalt s
  | 0x40 => onAperWr s m
  | 0x41 => onAperRd s m
  | 0x42 => onAperData s m
  | 0x43 => onAperAck s m
  | _ => s

theorem handleMsg_eq (s : State) (m : Msg) : handleMsg s m =
    if !msgOk m then casViol s 0 m.src.toNat m.tag.toNat (m.arg1.toNat % 2 ^ 24) else if isStale s m then stale s else handled s m m.type.toNat := rfl

/-- A message that the engine receives reaches its handler. -/
theorem exec_received {c : Instr} {ty : Nat} (hc : (c, ty) ∈ messageRows m) (hr : Receives s ty m) : exec c s = .next (handled s m ty) := by
  obtain ⟨ha, ht, hok, hst, hk⟩ := hr
  rw [exec_message m s (c, ty) hc, recvMsg_handles ht ha hk, handleMsg_eq, hok, hst, ht]
  rfl

/-- A message that finds its credits goes out at once. -/
theorem sendMsg_free (hf : LinkFree s) (dry : Nat) (h : msgFlits m ≤ 17) : sendMsg s dry m = SentOne s m := by
  obtain ⟨hw, hc⟩ := hf
  simp only [sendMsg, hw, List.isEmpty_nil, Bool.true_and, decide_eq_true (Nat.le_trans h hc), if_true, SentOne]

theorem msgFlits_empty (h : m.payload = []) : msgFlits m = 1 := by simp [msgFlits, h, cdiv]

theorem becomeReady_cas (s : State) : (becomeReady s).cas.state = 2 ∧ (becomeReady s).cas.credit = 256 ∧ (becomeReady s).cas.resumed = true ∧
    (becomeReady s).cas.base = s.life.lt := ⟨rfl, rfl, rfl, rfl⟩

theorem find_map {α β : Type} (f : α → β) (t : Tab α) (k : Nat) : Tab.find (t.map fun p => (p.1, f p.2)) k = (Tab.find t k).map f := by
  induction t with
  | nil => rfl
  | cons e t ih =>
    obtain ⟨i, b⟩ := e
    rw [List.map_cons, Tab.find, Tab.find]
    split
    · rfl
    · exact ih

/-- A barrier of a group that becomes READY. -/
def barStarted (k : Barrier) : Barrier := { k with gen := 0, heard := [], sent := false }

/-- In a group that becomes READY every barrier stands in generation 0. -/
theorem becomeReady_gen (s : State) (b : Nat) : ((becomeReady s).sync.bars.get b {}).gen = 0 := by
  have : (becomeReady s).sync.bars = s.sync.bars.map fun p => (p.1, barStarted p.2) := rfl
  rw [this, Tab.get, find_map barStarted]
  cases Tab.find s.sync.bars b <;> rfl

/-- The headland's answer to a JOIN. -/
def joinAnswer (s : State) (m : Msg) (ty a : Nat) : Msg := { mkMsg s ty m.src.toNat 0 0 a 0 [] with link := m.link }

theorem joinAnswer_sends (hf : LinkFree s) (m : Msg) (ty a : Nat) : sendMsg s 0 (joinAnswer s m ty a) = SentOne s (joinAnswer s m ty a) :=
  sendMsg_free hf 0 (by rw [msgFlits_empty rfl]; decide)

/-- `s` with the sender of a JOIN on its list. -/
def withRank (s : State) (m : Msg) : State := { s with cas := { s.cas with
  joined := insertBy (fun (a b : Nat × Nat) => decide (a.1 < b.1)) (m.src.toNat, m.link.toNat) s.cas.joined } }

theorem length_insertBy {α : Type} (lt : α → α → Bool) (a : α) (l : List α) : (insertBy lt a l).length = l.length + 1 := by
  induction l with
  | nil => rfl
  | cons b l ih =>
    rw [insertBy]
    split
    · rfl
    · rw [List.length_cons, ih, List.length_cons]

/-- The fields of a JOIN are the group's. -/
def sameGroup (s : State) (m : Msg) : Prop :=
  fld m.arg0.toNat 0 8 = s.cas.size ∧ fld m.arg0.toNat 8 4 = s.cas.fanin ∧ fld m.arg0.toNat 16 6 = s.cas.commitBar

/-- The headland takes a JOIN up. -/
def acceptJoin (s : State) (m : Msg) : State :=
  let t := sendMsg s 0 (joinAnswer s m 0x02 0)
  if (s.cas.joined.any fun p => p.1 == m.src.toNat) || s.cas.state != 1 then t
  else
    let t := { t with cas := { t.cas with
      joined := insertBy (fun (a b : Nat × Nat) => decide (a.1 < b.1)) (m.src.toNat, m.link.toNat) s.cas.joined } }
    if t.cas.joined.length + 1 == t.cas.ranks then becomeReady (toAll t 0x03 0) else t

theorem onJoin_eq (s : State) (m : Msg) : onJoin s m =
    let refuse (reason : Nat) : State := casViol (sendMsg s 0 (joinAnswer s m 0x04 reason)) reason 0 0 0
    if !s.cas.enable || s.cas.rank != 0 || s.cas.state == 4 then sendNak s m 3
    else if fld m.arg0.toNat 0 8 != s.cas.size || fld m.arg0.toNat 8 4 != s.cas.fanin || fld m.arg0.toNat 16 6 != s.cas.commitBar then refuse 5
    else if s.cas.ranks ≤ m.src.toNat then refuse 5
    else if m.src.toNat == 0 || s.cas.joined.any (fun p => p.1 == m.src.toNat && p.2 != m.link.toNat) then refuse 6
    else acceptJoin s m := rfl

theorem acceptJoin_new (hf : LinkFree s) (hst : s.cas.state = 1) (hnew : (s.cas.joined.any fun p => p.1 == m.src.toNat) = false) :
    acceptJoin s m = if s.cas.joined.length + 2 = s.cas.ranks then becomeReady (toAll (withRank (SentOne s (joinAnswer s m 0x02 0)) m) 0x03 0)
      else withRank (SentOne s (joinAnswer s m 0x02 0)) m := by
  unfold acceptJoin
  rw [joinAnswer_sends hf, if_neg (by simp [hnew, hst])]
  refine ite_congr (propext ?_) (fun _ => rfl) fun _ => rfl
  rw [length_insertBy, beq_iff_eq]
  rfl

/-- A new rank joins: it is welcomed, and the last one starts the group. -/
theorem onJoin_joins (he : s.cas.enable = true) (hr : s.cas.rank = 0) (hst : s.cas.state = 1) (hsame : sameGroup s m)
    (h0 : 0 < m.src.toNat) (hlt : m.src.toNat < s.cas.ranks) (hnew : (s.cas.joined.any fun p => p.1 == m.src.toNat) = false) :
    onJoin s m = acceptJoin s m := by
  obtain ⟨h1, h2, h3⟩ := hsame
  have hother : (s.cas.joined.any fun p => p.1 == m.src.toNat && p.2 != m.link.toNat) = false := by
    rw [List.any_eq_false] at hnew ⊢
    intro p hp
    simp [hnew p hp]
  rw [onJoin_eq]
  dsimp only
  rw [if_neg (by simp [he, hr, hst]), if_neg (by simp [h1, h2, h3]), if_neg (Nat.not_le.2 hlt), if_neg (by simp [hother, Nat.pos_iff_ne_zero.1 h0])]

theorem onJoin_differs (he : s.cas.enable = true) (hr : s.cas.rank = 0) (hst : s.cas.state = 1) (h : ¬ sameGroup s m) :
    onJoin s m = casViol (sendMsg s 0 (joinAnswer s m 0x04 5)) 5 0 0 0 := by
  have hdiff : (fld m.arg0.toNat 0 8 != s.cas.size || fld m.arg0.toNat 8 4 != s.cas.fanin || fld m.arg0.toNat 16 6 != s.cas.commitBar) = true := by
    refine Classical.byContradiction fun hc => ?_
    refine h ?_
    simpa [sameGroup, and_assoc] using hc
  rw [onJoin_eq]
  dsimp only
  rw [if_neg (by simp [he, hr, hst]), if_pos hdiff]

theorem toAll_life (s : State) (ty a : Nat) : (toAll s ty a).life = s.life := by
  obtain ⟨x, y, z, h⟩ := foldl_sendMsg_eq 0 (fun s r => mkMsg s ty r 0 0 a 0 []) (others s) s
  rw [toAll, h]

theorem becomeReady_frame (s : State) : becomeReady s = { s with cas := (becomeReady s).cas, sync := (becomeReady s).sync } := rfl

theorem casViol_cas (s : State) (reason rank tag num : Nat) : (casViol s reason rank tag num).cas = s.cas ∧
    (casViol s reason rank tag num).sent = s.sent ∧ (casViol s reason rank tag num).flt.count = s.flt.count := by
  refine ⟨?_, ?_, ?_⟩
  · rw [casViol, casViolOf, viol_eq]
  · rw [casViol, casViolOf, viol_eq]
  · rw [casViol, casViolOf, viol_flt]
    rfl

theorem onRefuse_halts (hst : s.cas.state = 1) (m : Msg) :
    (onRefuse s m).cas.state = 4 ∧ (onRefuse s m).flt.count.get 8 0 = add64 (s.flt.count.get 8 0) 1 := by
  rw [onRefuse, if_neg (by simp [hst])]
  obtain ⟨hc, -, hf⟩ := casViol_cas { s with cas := { s.cas with state := 4 } } (m.arg0.toNat % 256) 0 0 0
  refine ⟨?_, ?_⟩
  · rw [fault_eq]
    exact congrArg Cascade.state hc
  · rw [(fault_counts ..).1]
    exact (get_put_self ..).trans (congrArg (fun c => add64 (Tab.get c 8 0) 1) hf)

/-- Local time leaves the link, and of the cascade all but the count of waiting. -/
theorem at_link (s : State) (lt : Dword) : (At s lt).str.linkCas = s.str.linkCas ∧ (At s lt).cas = { s.cas with waitLt := (At s lt).cas.waitLt } ∧
    (At s lt).life.ready = s.life.ready := by
  unfold At advance
  split
  · exact ⟨rfl, rfl, rfl⟩
  · refine ⟨?_, rfl, rfl⟩
    change (stallTime s _).linkCas = _
    unfold stallTime
    split <;> rfl

theorem sendJoin_free (hf : LinkFree s) : ∃ m, sendJoin s = SentOne { s with cas := { s.cas with joinLt := s.life.lt } } m ∧ m.type = 1 ∧ m.dst = 0 :=
  ⟨_, sendMsg_free (s := { s with cas := { s.cas with joinLt := s.life.lt } }) hf 0 (by rw [msgFlits_empty rfl]; decide), rfl, rfl⟩

theorem joinRetry_eq (lt : Dword) (s : State) : joinRetry lt s =
    if (At s lt).cas.state == 1 && (At s lt).cas.rank != 0 && !(At s lt).cas.welcomed && (At s lt).life.ready &&
      decide ((At s lt).cas.joinLt + 100000 ≤ (At s lt).life.lt) then sendJoin (At s lt) else At s lt := rfl

theorem joinRetry_due (lt : Dword) (hready : s.life.ready = true) (hst : s.cas.state = 1) (hr : s.cas.rank ≠ 0) (hw : s.cas.welcomed = false) :
    joinRetry lt s = if s.cas.joinLt + 100000 ≤ (At s lt).life.lt then sendJoin (At s lt) else At s lt := by
  obtain ⟨-, hc, hl⟩ := at_link s lt
  rw [joinRetry_eq]
  refine ite_congr (propext ?_) (fun _ => rfl) fun _ => rfl
  rw [hl, hc]
  simp [hready, hst, hr, hw]

/-- Writes of `CAS_CTRL`. -/
theorem portWrite_casCtrl {s : State} (v : Nat) (h : Reaches s 0xA000) : portWrite 0xA000 v s = writeCasCtrl s v :=
  (portWrite_reg32 v h rfl rfl rfl).trans rfl

theorem casEnable_alone {v : Nat} (he : s.cas.enable = false) (hv : bit v 0 = true) (hsize : fld v 16 8 = 0) (hp : pairsOverlap s = false) :
    (casEnable s v).cas.enable = true ∧ (casEnable s v).cas.rank = fld v 8 8 ∧ (casEnable s v).cas.size = 0 ∧ (casEnable s v).cas.state = 2 := by
  have hp' : pairsOverlap { s with cas := { s.cas with rank := fld v 8 8, size := fld v 16 8, fanin := fld v 24 4 } } = false := hp
  unfold casEnable
  dsimp only [casFields]
  rw [if_neg (by simp [he]), if_neg (by simp [hv]), if_neg (by simp [hp']), if_pos (by simp [hsize])]
  exact ⟨rfl, rfl, hsize, rfl⟩

theorem casEnable_on (he : s.cas.enable = true) (v : Nat) : (casEnable s v).cas = s.cas := by
  unfold casEnable
  dsimp only
  rw [if_pos he]
  split
  · rfl
  · rw [viol_eq]

theorem casDisable_off (he : s.cas.enable = true) : (casDisable s).cas.enable = false ∧ (casDisable s).cas.state = 0 ∧ (casDisable s).cas.buckets = [] := by
  rw [casDisable, if_neg (by simp [he])]
  have h := (rollBack_cas s 0).1
  exact ⟨rfl, congrArg Cascade.state h, congrArg Cascade.buckets h⟩

/-- Setting bit 0 of a word leaves its higher fields. -/
theorem fld_or_one (v : Word) (a n : Nat) (ha : 0 < a) : fld (v ||| 1).toNat a n = fld v.toNat a n := by
  have hone : 1 >>> a = 0 := by rw [Nat.shiftRight_eq_div_pow]; exact Nat.div_eq_of_lt (Nat.one_lt_two_pow (Nat.ne_of_gt ha))
  rw [fld, fld, BitVec.toNat_or, Nat.shiftRight_or_distrib, show (1 : Word).toNat = 1 from rfl, hone, Nat.or_zero]

/-- Settles O40, from the handlers of the group's messages and from `CAS_CTRL`. -/
theorem groupsFormByJoining : Obligations.GroupsFormByJoining := by
  unfold Obligations.GroupsFormByJoining
  refine ⟨fun m s hr hf he hrank hst => ?_, fun m s hst => ⟨fun hr => ?_, fun hr => ?_, fun hr => ?_⟩, fun lt s hf hready hst hrank hw => ?_,
    fun v s hreach hready => ⟨fun he hsize hp => ?_, fun he => ?_⟩⟩
  · intro r answer same
    have hexec : exec (.joinMsg m) s = .next (onJoin s m) := exec_received (by simp [messageRows]) hr
    refine ⟨fun hsame h0 hlt hnew hlast => ?_, fun hsame h0 hlt hnew hlast => ?_, fun hdiff => ?_⟩
    · rw [hexec, onJoin_joins he hrank hst hsame h0 hlt hnew, acceptJoin_new hf hst hnew, if_neg hlast]
      rfl
    · have hjoin := acceptJoin_new hf hst hnew
      rw [if_pos hlast] at hjoin
      refine ⟨_, hexec.trans (congrArg Host.Outcome.next ((onJoin_joins he hrank hst hsame h0 hlt hnew).trans hjoin)), rfl, rfl, rfl, ?_⟩
      exact congrArg Life.lt (toAll_life ..)
    · obtain ⟨hc, hs, -⟩ := casViol_cas (SentOne s (joinAnswer s m 0x04 5)) 5 0 0 0
      refine ⟨_, hexec.trans (congrArg Host.Outcome.next ((onJoin_differs he hrank hst hdiff).trans (by rw [joinAnswer_sends hf]))), hs, hc⟩
  · rw [exec_received (c := .welcomeMsg m) (by simp [messageRows]) hr]
    exact congrArg _ (if_pos (by simp [hst]))
  · have hstart : onStart s = becomeReady s := if_pos (by simp [hst])
    refine ⟨_, (exec_received (c := .startMsg m) (by simp [messageRows]) hr).trans (congrArg Host.Outcome.next hstart), rfl, rfl, rfl,
      becomeReady_gen s, becomeReady_frame s⟩
  · exact ⟨_, exec_received (c := .refuseMsg m) (by simp [messageRows]) hr, onRefuse_halts hst m⟩
  · intro s0
    obtain ⟨hlink, hc, -⟩ := at_link s lt
    have hdue := joinRetry_due lt hready hst hrank hw
    refine ⟨fun h => ?_, fun h => ?_⟩
    · rw [exec_joinRetry, hdue, if_neg (Nat.not_le.2 h)]
    · have hf0 : LinkFree s0 := ⟨by rw [hc]; exact hf.1, by rw [hlink]; exact hf.2⟩
      obtain ⟨x, hx, hty, hdst⟩ := sendJoin_free hf0
      exact ⟨x, by rw [exec_joinRetry, hdue, if_pos h, hx], hty, hdst⟩
  · have hbit : bit (v ||| 1).toNat 0 = true := by
      rw [bit_toNat, BitVec.getLsbD_or]
      simp
    have hsize' : fld (v ||| 1).toNat 16 8 = 0 := by rw [fld_or_one v 16 8 (by decide), hsize]
    obtain ⟨h1, h2, h3, h4⟩ := casEnable_alone he hbit hsize' hp
    refine ⟨_, (exec_casEnable v s).trans (congrArg Host.Outcome.next (portWrite_casCtrl _ hreach)), ?_⟩
    rw [writeCasCtrl, if_pos hbit, ← fld_or_one v 8 8 (by decide)]
    exact ⟨h1, h2, h3, h4⟩
  · have hbit : bit (casCtrl s - casCtrl s % 2) 0 = false := by
      simp only [bit, Nat.shiftRight_zero, beq_eq_false_iff_ne]
      omega
    have he' : (casEnable s (casCtrl s - casCtrl s % 2)).cas.enable = true := by rw [casEnable_on he, he]
    refine ⟨_, (exec_casDisable s).trans (congrArg Host.Outcome.next (portWrite_casCtrl _ hreach)), ?_⟩
    rw [writeCasCtrl, if_neg (by rw [hbit]; exact Bool.false_ne_true)]
    exact casDisable_off he'

end Sys2Proof.Proofs
end

section
set_option Elab.async false
/-! Barriers between engines, the commit of a step, and its repeats (14 R453, R473-R478). -/
namespace Sys2Proof.Proofs
open Sys2Proof Sys2Proof.Machine Sys2Proof.Laws Sys2Proof.Safety

variable {a s t : State} {m : Msg} {b : Nat}

theorem exec_stepCommit (s : State) : exec .stepCommit s = .next (stepCommit s) := rfl
theorem exec_stepRepeat (lt : Dword) (s : State) : exec (.stepRepeat lt) s = .next (stepRepeat lt s) := rfl

/-! ### Barriers -/

/-- The barrier that an ARRIVE or RELEASE names. -/
def msgBar (s : State) (m : Msg) : Barrier := s.sync.bars.get (fld m.arg0.toNat 0 6) {}

/-- `s` with barrier `b` as `k`. -/
def withBar (s : State) (b : Nat) (k : Barrier) : State := { s with sync := { s.sync with bars := s.sync.bars.put b k } }

/-- A barrier that has heard an ARRIVE. -/
def barHears (k : Barrier) (m : Msg) : Barrier := { k with heard := (m.src.toNat, fld m.arg0.toNat 8 24) :: k.heard }

theorem onArrive_stale (hm : isMember s m = true) (h : notBefore (fld m.arg0.toNat 8 24) (msgBar s m).gen = false) : onArrive s m = stale s := by
  have h' : notBefore (fld m.arg0.toNat 8 24) (s.sync.bars.get (fld m.arg0.toNat 0 6) {}).gen = false := h
  simp [onArrive, hm, h']

theorem onArrive_again (hm : isMember s m = true) (h : notBefore (fld m.arg0.toNat 8 24) (msgBar s m).gen = true)
    (hh : (msgBar s m).heard.contains (m.src.toNat, fld m.arg0.toNat 8 24) = true) : onArrive s m = s := by
  have h' : notBefore (fld m.arg0.toNat 8 24) (s.sync.bars.get (fld m.arg0.toNat 0 6) {}).gen = true := h
  have hh' : (s.sync.bars.get (fld m.arg0.toNat 0 6) {}).heard.contains (m.src.toNat, fld m.arg0.toNat 8 24) = true := hh
  unfold onArrive
  dsimp only
  rw [if_neg (by simp [hm]), if_neg (by simp [h']), if_pos hh']

/-- An ARRIVE heard at a barrier that this engine has not reached. -/
theorem onArrive_heard (hm : isMember s m = true) (h : notBefore (fld m.arg0.toNat 8 24) (msgBar s m).gen = true)
    (hh : (msgBar s m).heard.contains (m.src.toNat, fld m.arg0.toNat 8 24) = false) (hs : (msgBar s m).sent = false) :
    onArrive s m = withBar s (fld m.arg0.toNat 0 6) (barHears (msgBar s m) m) := by
  have h' : notBefore (fld m.arg0.toNat 8 24) (s.sync.bars.get (fld m.arg0.toNat 0 6) {}).gen = true := h
  have hh' : (s.sync.bars.get (fld m.arg0.toNat 0 6) {}).heard.contains (m.src.toNat, fld m.arg0.toNat 8 24) = false := hh
  unfold onArrive
  dsimp only
  rw [if_neg (by simp [hm]), if_neg (by simp [h']), if_neg (by rw [hh']; exact Bool.false_ne_true)]
  unfold tryRelease
  dsimp only
  rw [if_pos]
  · rfl
  · rw [get_put_self]
    have hs' : (s.sync.bars.get (fld m.arg0.toNat 0 6) {}).sent = false := hs
    simp [hs']

theorem releaseBar_eq (s : State) (b : Nat) :
    (releaseBar s b).cas = s.cas ∧ (releaseBar s b).life = s.life ∧ (releaseBar s b).sync.sem = s.sync.sem := by
  obtain ⟨hs, hc, hl⟩ := foldl_finishJob id (s.sync.bars.get b {}).arrivals s
  have hsem := congrArg Sync.sem hs
  exact ⟨hc, hl, hsem⟩

theorem foldl_finishJob_frame (l : List (Nat × Nat)) (s : State) :
    l.foldl (fun s a => finishJob s a.1 a.2) s = { s with jobs := (l.foldl (fun s a => finishJob s a.1 a.2) s).jobs } := by
  induction l generalizing s with
  | nil => rfl
  | cons x l ih =>
    rw [List.foldl_cons, ih]
    unfold finishJob State.withJob
    split
    · rfl
    · dsimp only
      split <;> rfl

/-- A barrier released: nothing else but the commands that arrived changes. -/
theorem releaseBar_bar (s : State) (b : Nat) :
    releaseBar s b = { s with jobs := (releaseBar s b).jobs, sync := (releaseBar s b).sync } ∧
    ((releaseBar s b).sync.bars.get b {}).arrivals = [] ∧ ((releaseBar s b).sync.bars.get b {}).count = 0 ∧
    ((releaseBar s b).sync.bars.get b {}).sent = false ∧ ((releaseBar s b).sync.bars.get b {}).gen =
      if (s.sync.bars.get b {}).cascade then ((s.sync.bars.get b {}).gen + 1) % 2 ^ 24 else (s.sync.bars.get b {}).gen := by
  have hf := foldl_finishJob_frame (s.sync.bars.get b {}).arrivals s
  unfold releaseBar
  dsimp only
  generalize (s.sync.bars.get b {}).arrivals.foldl (fun s a => finishJob s a.1 a.2) s = u at hf
  rw [get_put_self]
  refine ⟨?_, rfl, rfl, rfl, rfl⟩
  rw [hf]

theorem onRelease_waits (hm : isMember s m = true) (h : (msgBar s m).sent = true) (hg : (msgBar s m).gen = fld m.arg0.toNat 8 24) :
    onRelease s m = releaseBar s (fld m.arg0.toNat 0 6) := by
  have h' : (s.sync.bars.get (fld m.arg0.toNat 0 6) {}).sent = true := h
  have hg' : (s.sync.bars.get (fld m.arg0.toNat 0 6) {}).gen = fld m.arg0.toNat 8 24 := hg
  simp [onRelease, hm, h', hg']

theorem onRelease_stale (hm : isMember s m = true) (h : ¬ ((msgBar s m).sent = true ∧ (msgBar s m).gen = fld m.arg0.toNat 8 24)) :
    onRelease s m = stale s := by
  have h' : ((s.sync.bars.get (fld m.arg0.toNat 0 6) {}).sent && (s.sync.bars.get (fld m.arg0.toNat 0 6) {}).gen == fld m.arg0.toNat 8 24) = false :=
    Bool.eq_false_iff.2 fun hc => h (by simpa [msgBar] using hc)
  unfold onRelease
  dsimp only
  rw [if_neg (by simp [hm]), if_neg (by rw [h']; exact Bool.false_ne_true)]

/-- Settles O41, from what ARRIVE and RELEASE find at their barrier. -/
theorem cascadeBarriersRelease : Obligations.CascadeBarriersRelease := by
  unfold Obligations.CascadeBarriersRelease
  intro m s hm b g k
  have harrive : Receives s 0x10 m → exec (.arriveMsg m) s = .next (onArrive s m) := exec_received (by simp [messageRows])
  have hrelease : Receives s 0x11 m → exec (.releaseMsg m) s = .next (onRelease s m) := exec_received (by simp [messageRows])
  refine ⟨fun hr h => ?_, fun hr h hh => ?_, fun hr h hh hs => ?_, fun hr hs hg => ?_, fun hr h => ?_⟩
  · rw [harrive hr, onArrive_stale hm h]
    rfl
  · rw [harrive hr, onArrive_again hm h hh]
  · rw [harrive hr, onArrive_heard hm h hh hs]
    rfl
  · obtain ⟨hf, h1, h2, h3, h4⟩ := releaseBar_bar s b
    refine ⟨_, (hrelease hr).trans (congrArg Host.Outcome.next (onRelease_waits hm hs hg)), h1, h2, h3, h4.trans ?_, hf⟩
    rw [show (s.sync.bars.get b {}).gen = g from hg]
  · rw [hrelease hr, onRelease_stale hm h]
    rfl

/-! ### The commit of a step -/

theorem savedSems_get (s : State) {i : Nat} (hi : i < 64) (h : bit s.cas.semmask i = true) : (savedSems s).get i 0 = s.sync.sem.get i 0 := by
  have hfold : ∀ (l : List Nat) (t : Tab Nat), i ∈ l ∨ t.get i 0 = s.sync.sem.get i 0 →
      (l.foldl (fun (t : Tab Nat) i => t.put i (s.sync.sem.get i 0)) t).get i 0 = s.sync.sem.get i 0 := by
    intro l
    induction l with
    | nil => exact fun t h => h.resolve_left (by simp)
    | cons k l ih =>
      intro t h
      refine ih _ ?_
      by_cases hk : i = k
      · subst hk
        exact .inr (get_put_self ..)
      · rcases h with h | h
        · exact .inl ((List.mem_cons.1 h).resolve_left hk)
        · exact .inr ((get_put_ne _ _ _ _ _ hk).trans h)
  exact hfold _ _ (.inl (mem_maskedSems hi h))

/-- The cascade once a step has committed. -/
def committed (s : State) : Cascade :=
  { (clearAttempt s).cas with step := (s.cas.step + 1) % 2 ^ 32, semSaved := savedSems s, attempt := 0, consec := 0, base := s.life.lt }

/-- `s` with its step committed and traced. -/
def stepDone (s : State) : State :=
  trace (pulse { s with cas := committed s } 0x09) 0x0B 6 0xFF 0 0 0 ((s.cas.step % 2 ^ 24) <<< 8)

theorem applyCommit_eq (s : State) : applyCommit s =
    if ((stepDone s).sync.bars.get (stepDone s).cas.commitBar {}).sent then releaseBar (stepDone s) (stepDone s).cas.commitBar else stepDone s := rfl

theorem stepDone_frame (s : State) : stepDone s = { s with
    cas := committed s, evt := (stepDone s).evt, t1 := (stepDone s).t1, mon := (stepDone s).mon } := by
  rw [stepDone, trace_eq]
  rfl

theorem stepDone_off (hoff : s.mon.trOn = false) : stepDone s = { s with cas := committed s, evt := (stepDone s).evt } := by
  have : stepDone s = pulse { s with cas := committed s } 0x09 := trace_off _ _ _ _ _ _ _ _ hoff
  rw [this]
  rfl

theorem toAll_frame (s : State) (ty x : Nat) : ∃ p q r, toAll s ty x = { s with sent := p, str := q, cas := r } :=
  foldl_sendMsg_eq 0 (fun s r => mkMsg s ty r 0 0 x 0 []) (others s) s

theorem toAll_calm (ty x : Nat) (h : Calm a s) : Calm a (toAll s ty x) := calm_foldl _ (fun _ _ h => sendMsg_calm _ _ h) h

/-- The headland's step may commit. -/
def MayCommit (s : State) : Prop :=
  s.cas.state = 2 ∧ s.cas.rank = 0 ∧ s.cas.commitEn = true ∧ (s.sync.bars.get s.cas.commitBar {}).sent = true ∧
    allHeard s s.cas.commitBar = true ∧ tagsLeft s = []

theorem stepCommit_eq (ha : s.awake = true) [Decidable (MayCommit s)] :
    stepCommit s = if MayCommit s then applyCommit (toAll s 0x30 s.cas.step) else s := by
  unfold stepCommit
  refine ite_congr (propext ?_) (fun _ => rfl) fun _ => rfl
  simp [MayCommit, ha, and_assoc]

/-- The headland's commit: the step moves on and the commit barrier is released. -/
theorem commit_headland (h : (s.sync.bars.get s.cas.commitBar {}).sent = true) :
    (applyCommit (toAll s 0x30 s.cas.step)).cas.step = (s.cas.step + 1) % 2 ^ 32 ∧
    (applyCommit (toAll s 0x30 s.cas.step)).cas.attempt = 0 ∧
    ((applyCommit (toAll s 0x30 s.cas.step)).sync.bars.get s.cas.commitBar {}).arrivals = [] ∧
    ((applyCommit (toAll s 0x30 s.cas.step)).sync.bars.get s.cas.commitBar {}).sent = false ∧
    (applyCommit (toAll s 0x30 s.cas.step)).qs = s.qs ∧ (applyCommit (toAll s 0x30 s.cas.step)).t0 = s.t0 := by
  obtain ⟨p, q, r, hall⟩ := toAll_frame s 0x30 s.cas.step
  have hcas := (toAll_calm 0x30 s.cas.step (.refl s)).2.2
  rw [hall] at hcas
  rw [hall]
  have hrbar : r.commitBar = s.cas.commitBar := by
    have h := congrArg Cascade.commitBar hcas
    exact h
  have hrstep : r.step = s.cas.step := by
    have h := congrArg Cascade.step hcas
    exact h
  have hd := stepDone_frame { s with sent := p, str := q, cas := r }
  generalize hu : stepDone { s with sent := p, str := q, cas := r } = u at hd
  have hbar : u.cas.commitBar = s.cas.commitBar := by
    rw [hd]
    exact hrbar
  have hbars : u.sync = s.sync := by rw [hd]
  have happ : applyCommit { s with sent := p, str := q, cas := r } = releaseBar u s.cas.commitBar := by
    rw [applyCommit_eq, hu, hbar, hbars, if_pos h]
  obtain ⟨hf, h1, -, h3, -⟩ := releaseBar_bar u s.cas.commitBar
  obtain ⟨hc, -, -⟩ := releaseBar_eq u s.cas.commitBar
  rw [happ]
  refine ⟨?_, ?_, h1, h3, ?_, ?_⟩
  · rw [hc, hd]
    exact congrArg (fun n => (n + 1) % 2 ^ 32) hrstep
  · rw [hc, hd]
    rfl
  · rw [hf, hd]
  · rw [hf, hd]

/-- Settles O43, from the cascade of a committed step. -/
theorem stepsCommit : Obligations.StepsCommit := by
  classical
  unfold Obligations.StepsCommit
  refine ⟨fun m s hr hm hoff hsent => ?_, fun s ha => ?_⟩
  · have hexec : exec (.commitMsg m) s = .next (onCommit s m) := exec_received (by simp [messageRows]) hr
    have hd := stepDone_off hoff
    have happ : onCommit s m = stepDone s := by
      rw [onCommit, if_pos hm, applyCommit_eq, if_neg]
      rw [hd]
      rw [show (committed s).commitBar = s.cas.commitBar from rfl, hsent]
      exact Bool.false_ne_true
    have hc : (stepDone s).cas = committed s := by rw [hd]
    refine ⟨_, hexec.trans (congrArg Host.Outcome.next happ), ?_⟩
    rw [hc]
    refine ⟨rfl, rfl, rfl, rfl, rfl, rfl, rfl, fun i hi hb => savedSems_get s hi hb, hd⟩
  · intro b full
    have hrow := stepCommit_eq (awake_of_awake ha)
    refine ⟨fun h => ?_, fun h => ?_⟩
    · have hmay : MayCommit s := h
      rw [if_pos hmay] at hrow
      obtain ⟨h1, h2, h3, h4, h5, h6⟩ := commit_headland h.2.2.2.1
      exact ⟨_, (exec_stepCommit s).trans (congrArg Host.Outcome.next hrow), h1, h2, h3, h4, h5, h6⟩
    · have hmay : ¬ MayCommit s := h
      rw [exec_stepCommit, hrow, if_neg hmay]

end Sys2Proof.Proofs
end

section
set_option Elab.async false
/-! The repeats of a step (14 R474, R475, R478). -/
namespace Sys2Proof.Proofs
open Sys2Proof Sys2Proof.Machine Sys2Proof.Laws Sys2Proof.Safety

variable {a s t : State} {m : Msg} {b : Nat}

/-- `s` has the always-on state and the cascade of `a`, but for the messages and contributions that wait, and the credit. -/
def Flows (a s : State) : Prop :=
  s.life = a.life ∧ s.cas = { a.cas with waiting := s.cas.waiting, credit := s.cas.credit, pendingUp := s.cas.pendingUp }

theorem Flows.refl (a : State) : Flows a a := ⟨rfl, rfl⟩

theorem flows_ite {c : Prop} [Decidable c] (hs : Flows a s) (ht : Flows a t) : Flows a (if c then s else t) := by
  split
  · exact hs
  · exact ht

theorem flows_foldl {β : Type} {f : State → β → State} (l : List β) (hf : ∀ s x, Flows a s → Flows a (f s x)) (h : Flows a s) :
    Flows a (l.foldl f s) := by
  induction l generalizing s with
  | nil => exact h
  | cons x l ih => exact ih (hf s x h)

theorem Flows.with (h : Flows a s) (credit pendingUp waiting) :
    Flows a { s with cas := { s.cas with credit := credit, pendingUp := pendingUp, waiting := waiting } } := by
  obtain ⟨hl, hc⟩ := h
  refine ⟨hl, ?_⟩
  conv => lhs; rw [hc]

theorem sendMsg_flows (dry : Nat) (m : Msg) (h : Flows a s) : Flows a (sendMsg s dry m) := by
  unfold sendMsg
  dsimp only
  split
  · exact h
  · exact h.with s.cas.credit s.cas.pendingUp _

theorem fireInj_flows (k : Nat) (p : Inject → Bool) (h : Flows a s) : Flows a (fireInj s k p).2 := by
  rw [fireInj_eq]
  exact h

theorem sendContrib_flows (m : Msg) (h : Flows a s) : Flows a (sendContrib s m) := by
  unfold sendContrib
  dsimp only
  split
  · have hd := fireInj_flows 6 (fun _ => true) (h.with (s.cas.credit - 1) s.cas.pendingUp s.cas.waiting)
    exact flows_ite hd (sendMsg_flows _ _ hd)
  · exact h.with s.cas.credit _ s.cas.waiting

theorem pumpUp_flows (h : Flows a s) : Flows a (pumpUp s) :=
  flows_foldl _ (fun _ _ h => sendContrib_flows _ h) (h.with s.cas.credit [] s.cas.waiting)

theorem releaseBar_flows (b : Nat) (h : Flows a s) : Flows a (releaseBar s b) := by
  obtain ⟨hc, hl, -⟩ := releaseBar_eq s b
  unfold Flows at *
  rwa [hc, hl]

theorem tryRelease_flows (b : Nat) (h : Flows a s) : Flows a (tryRelease s b) := by
  unfold tryRelease
  dsimp only
  exact flows_ite h (releaseBar_flows _ (flows_foldl _ (fun _ _ h => sendMsg_flows _ _ h) h))

theorem sendArrive_flows (b : Nat) (h : Flows a s) : Flows a (sendArrive s b) := by
  unfold sendArrive
  dsimp only
  exact flows_ite (tryRelease_flows (s := { s with sync := _ }) _ h) (sendMsg_flows (s := { s with sync := _ }) _ _ h)

theorem barrierFull_flows (b : Nat) (h : Flows a s) : Flows a (barrierFull s b) := by
  unfold barrierFull
  dsimp only
  exact flows_ite h (flows_ite (sendArrive_flows _ h) (releaseBar_flows _ h))

/-- `s` with the traffic of its attempt allowed. -/
def allowed (s : State) : State := { s with cas := { s.cas with state := 2, resumed := true, credit := 256, base := s.life.lt } }

theorem resume_flows (s : State) : Flows (allowed s) (resume s) :=
  pumpUp_flows (flows_foldl (f := fun s (p : Nat × Barrier) => if p.2.cascade then barrierFull s p.1 else s) _
    (fun _ _ h => flows_ite (barrierFull_flows _ h) h) (.refl (allowed s)))

theorem resume_cas (s : State) : (resume s).cas.state = 2 ∧ (resume s).cas.resumed = true ∧ (resume s).cas.base = s.life.lt ∧
    (resume s).cas.attempt = s.cas.attempt := by
  have hc := (resume_flows s).2
  refine ⟨?_, ?_, ?_, ?_⟩ <;> rw [hc] <;> rfl

/-- A group that halts forgets its attempt. -/
theorem haltGroup_cas (s : State) : (haltGroup s).cas.state = 4 ∧ (haltGroup s).cas.resumed = true ∧ (haltGroup s).cas.buckets = [] ∧
    (haltGroup s).cas.step = s.cas.step := by
  have hc := (rollBack_cas s 4).1
  have hf : (haltGroup s).cas = { (rollBack s 4).cas with resumed := true } := by
    rw [haltGroup, fault_eq]
  rw [hf]
  refine ⟨?_, rfl, ?_, ?_⟩ <;> rw [hc] <;> rfl

/-- A rank that takes up a new attempt, before its answer. -/
def takenUp (s : State) (n : Nat) : State :=
  let s := { s with cas := { s.cas with attempt := n } }
  rollBack (fault s 8 1 0xFF false 0 s.cas.step s.cas.attempt) 3

theorem takenUp_cas (s : State) (n : Nat) : (takenUp s n).cas = rolledBack { s.cas with attempt := n } 3 (takenUp s n).cas.waiting ∧
    ∀ i, i < 64 → bit s.cas.semmask i = true → (takenUp s n).sync.sem.get i 0 = s.cas.semSaved.get i 0 % 2 ^ 32 := by
  have hf : (fault { s with cas := { s.cas with attempt := n } } 8 1 0xFF false 0 s.cas.step n).cas = { s.cas with attempt := n } := by
    rw [fault_eq]
  obtain ⟨hc, -, hs⟩ := rollBack_cas (fault { s with cas := { s.cas with attempt := n } } 8 1 0xFF false 0 s.cas.step n) 3
  rw [hf] at hc hs
  exact ⟨hc, hs⟩

theorem onRepeat_newer (hm : isMember s m = true) (h : s.cas.attempt < m.attempt.toNat) :
    onRepeat s m = sendMsg (takenUp s m.attempt.toNat) 0 (mkMsg (takenUp s m.attempt.toNat) 0x32 0 0 0 0 0 []) := by
  unfold onRepeat
  rw [if_neg (by simp [hm]), if_neg (Nat.not_le.2 h)]
  rfl

theorem sendMsg_cas (s : State) (dry : Nat) (m : Msg) :
    (sendMsg s dry m).cas = { s.cas with waiting := (sendMsg s dry m).cas.waiting } ∧ (sendMsg s dry m).sync = s.sync := by
  unfold sendMsg
  dsimp only
  split <;> exact ⟨rfl, rfl⟩

theorem toAll_cas (s : State) (ty x : Nat) : (toAll s ty x).cas = { s.cas with waiting := (toAll s ty x).cas.waiting } := by
  have hfold : ∀ (l : List Nat) (t : State), t.cas = { s.cas with waiting := t.cas.waiting } →
      (l.foldl (fun s r => sendMsg s 0 (mkMsg s ty r 0 0 x 0 [])) t).cas =
        { s.cas with waiting := (l.foldl (fun s r => sendMsg s 0 (mkMsg s ty r 0 0 x 0 [])) t).cas.waiting } := by
    intro l
    induction l with
    | nil => exact fun t h => h
    | cons r l ih =>
      intro t h
      refine ih _ ?_
      have hk := (sendMsg_cas t 0 (mkMsg t ty r 0 0 x 0 [])).1
      conv => lhs; rw [hk]
      conv => lhs; rw [h]
  exact hfold _ s rfl

/-- The next attempt of the headland's step, counted and recorded. -/
def nextAttempt (s : State) : State :=
  let tag := (tagsLeft s).headD 0
  let child := missingChild s tag
  let s := { s with cas := { s.cas with
    attempt := (s.cas.attempt + 1) % 256
    repeatCount := add64 s.cas.repeatCount 1
    consec := s.cas.consec + 1
    acks := [] } }
  fault s 8 1 0xFF false 0 s.cas.step (s.cas.attempt + tag <<< 8 + child <<< 16)

theorem nextAttempt_cas (s : State) : (nextAttempt s).cas = { s.cas with
    attempt := (s.cas.attempt + 1) % 256, repeatCount := add64 s.cas.repeatCount 1, consec := s.cas.consec + 1, acks := [] } := by
  rw [nextAttempt, fault_eq]

theorem declareRepeat_eq (s : State) : declareRepeat s =
    if max s.cas.repeatMax 1 ≤ s.cas.consec then haltGroup (toAll s 0x34 0)
    else tryResume (rollBack (toAll (nextAttempt s) 0x31 (nextAttempt s).cas.step) 3) := rfl

/-- A step repeats: the other ranks have still to answer. -/
theorem declareRepeat_repeats (h : s.cas.consec < max s.cas.repeatMax 1) (hranks : 1 < s.cas.ranks) :
    (declareRepeat s).cas.attempt = (s.cas.attempt + 1) % 256 ∧ (declareRepeat s).cas.repeatCount = add64 s.cas.repeatCount 1 ∧
    (declareRepeat s).cas.consec = s.cas.consec + 1 ∧ (declareRepeat s).cas.state = 3 ∧ (declareRepeat s).cas.resumed = false ∧
    (declareRepeat s).cas.step = s.cas.step := by
  have h1 := nextAttempt_cas s
  have h2 := toAll_cas (nextAttempt s) 0x31 (nextAttempt s).cas.step
  have h3 := (rollBack_cas (toAll (nextAttempt s) 0x31 (nextAttempt s).cas.step) 3).1
  rw [declareRepeat_eq, if_neg (Nat.not_le.2 h)]
  generalize rollBack (toAll (nextAttempt s) 0x31 (nextAttempt s).cas.step) 3 = u at h3
  rw [h2, h1] at h3
  have hacks : u.cas.acks = [] := by
    have h := congrArg Cascade.acks h3
    exact h
  have hsize : u.cas.ranks = s.cas.ranks := by
    have h := congrArg Cascade.ranks h3
    exact h
  have hwait : tryResume u = u := by
    have hmem : 1 ∈ others u := by
      rw [others, hsize, tab]
      exact List.mem_map.2 ⟨0, List.mem_range.2 (by omega), rfl⟩
    have hall : ((others u).all fun r => u.cas.acks.contains r) = false := by
      rw [hacks, List.all_eq_false]
      exact ⟨1, hmem, by simp⟩
    refine if_neg ?_
    rw [hall, Bool.and_false]
    exact Bool.false_ne_true
  rw [hwait]
  refine ⟨?_, ?_, ?_, ?_, ?_, ?_⟩ <;> rw [h3] <;> rfl

theorem declareRepeat_halts (h : max s.cas.repeatMax 1 ≤ s.cas.consec) : (declareRepeat s).cas.state = 4 ∧ (declareRepeat s).cas.step = s.cas.step := by
  obtain ⟨h1, -, -, h4⟩ := haltGroup_cas (toAll s 0x34 0)
  have hstep : (toAll s 0x34 0).cas.step = s.cas.step := by
    rw [toAll_cas]
  rw [declareRepeat_eq, if_pos h]
  exact ⟨h1, h4.trans hstep⟩

theorem tagsLeft_at (s : State) (lt : Dword) : tagsLeft (At s lt) = tagsLeft s := by
  rw [tagsLeft, stepTags, (at_link s lt).2.1]
  rfl

/-- STEP_REPEAT at the headland of a group that commits its steps. -/
theorem stepRepeat_due (lt : Dword) (ha : Awake s) (hst : s.cas.state = 2) (hr : s.cas.rank = 0) (hc : s.cas.commitEn = true)
    (h : s.cas.abandoned = true ∨ (s.cas.window ≠ 0 ∧ s.cas.base + s.cas.window ≤ (At s lt).life.lt ∧ tagsLeft s ≠ [])) :
    stepRepeat lt s = declareRepeat (At s lt) := by
  have hcas := (at_link s lt).2.1
  have hawake : (At s lt).awake = true := awake_of_awake (at_awake ha lt)
  have hleft := tagsLeft_at s lt
  unfold stepRepeat
  refine if_pos ?_
  change ((At s lt).cas.state == 2 && (At s lt).cas.rank == 0 && (At s lt).cas.commitEn && (At s lt).awake && ((At s lt).cas.abandoned ||
    ((At s lt).cas.window != 0 && decide ((At s lt).cas.base + (At s lt).cas.window ≤ (At s lt).life.lt) && !(tagsLeft (At s lt)).isEmpty))) = true
  rw [hawake, hleft, hcas]
  simpa [hst, hr, hc, and_assoc] using h

/-- Settles O44, from the cascade that a roll back, a resumption and a halt leave. -/
theorem repeatsRollBackAndResume : Obligations.RepeatsRollBackAndResume := by
  unfold Obligations.RepeatsRollBackAndResume
  refine ⟨fun m s => ⟨fun hr hm h => ?_, fun hr hst hrank => ?_, fun hr hst hrank => ?_, fun hr hst => ?_⟩, fun s s0 c ha hst hrank hc hranks hrow => ?_⟩
  · obtain ⟨hcas, hsem⟩ := takenUp_cas s m.attempt.toNat
    obtain ⟨hk, hsync⟩ := sendMsg_cas (takenUp s m.attempt.toNat) 0 (mkMsg (takenUp s m.attempt.toNat) 0x32 0 0 0 0 0 [])
    have hexec : exec (.repeatMsg m) s = .next (onRepeat s m) := exec_received (by simp [messageRows]) hr
    rw [hcas] at hk
    refine ⟨_, hexec.trans (congrArg Host.Outcome.next (onRepeat_newer hm h)), ?_⟩
    rw [hk, hsync]
    exact ⟨rfl, rfl, rfl, rfl, rfl, rfl, rfl, hsem⟩
  · have hexec : exec (.resumeMsg m) s = .next (onResume s) := exec_received (by simp [messageRows]) hr
    have hres : onResume s = resume s := if_pos (by simp [hst, hrank])
    obtain ⟨h1, h2, h3, h4⟩ := resume_cas s
    exact ⟨_, hexec.trans (congrArg Host.Outcome.next hres), h1, h2, h3, h4⟩
  · intro acks
    have hexec : exec (.repeatAck m) s = .next (onAck s m) := exec_received (by simp [messageRows]) hr
    have hack : onAck s m = tryResume { s with cas := { s.cas with acks := acks } } := if_pos (by simp [hst, hrank])
    refine ⟨fun hall => ?_, fun hall => ?_⟩
    · have hall' : ((others { s with cas := { s.cas with acks := acks } }).all fun r => acks.contains r) = false := hall
      rw [hexec, hack, tryResume, if_neg (by simp only [hall', Bool.and_false]; exact Bool.false_ne_true)]
    · have hres : tryResume { s with cas := { s.cas with acks := acks } } = resume (toAll { s with cas := { s.cas with acks := acks } } 0x33 0) :=
        if_pos (by simp only [hst, hrank]; exact hall)
      obtain ⟨h1, h2, -, -⟩ := resume_cas (toAll { s with cas := { s.cas with acks := acks } } 0x33 0)
      exact ⟨_, hexec.trans (congrArg Host.Outcome.next (hack.trans hres)), h1, h2⟩
  · have hexec : exec (.cascadeHalt m) s = .next (onHalt s) := exec_received (by simp [messageRows]) hr
    have hhalt : onHalt s = haltGroup s := if_pos (by simpa using hst)
    obtain ⟨h1, h2, h3, h4⟩ := haltGroup_cas s
    exact ⟨_, hexec.trans (congrArg Host.Outcome.next hhalt), h1, h2, h3, h4⟩
  · have hexec : exec c s = .next (declareRepeat s0) := by
      rcases hrow with ⟨lt, rfl, rfl, hdue⟩ | ⟨m, rfl, rfl, hr, hm⟩
      · rw [exec_stepRepeat, stepRepeat_due lt ha hst hrank hc hdue]
      · rw [exec_received (c := .abandon m) (by simp [messageRows]) hr]
        exact congrArg _ ((if_neg (by simp [hm])).trans (if_pos hc))
    have hcas : s0.cas = { s.cas with waitLt := s0.cas.waitLt } := by
      rcases hrow with ⟨lt, -, rfl, -⟩ | ⟨m, -, rfl, -⟩
      · exact (at_link s lt).2.1
      · rfl
    have hmax : max s0.cas.repeatMax 1 = max s.cas.repeatMax 1 ∧ s0.cas.consec = s.cas.consec ∧ s0.cas.step = s.cas.step ∧
        s0.cas.attempt = s.cas.attempt ∧ s0.cas.repeatCount = s.cas.repeatCount ∧ s0.cas.ranks = s.cas.ranks := by
      rw [hcas]
      exact ⟨rfl, rfl, rfl, rfl, rfl, rfl⟩
    obtain ⟨e1, e2, e3, e4, e5, e6⟩ := hmax
    refine ⟨fun h => ?_, fun h => ?_⟩
    · rw [← e1, ← e2] at h
      rw [← e3, ← e2, ← e4, ← e5]
      exact ⟨_, hexec, declareRepeat_repeats h (by rw [e6]; exact hranks)⟩
    · rw [← e1, ← e2] at h
      rw [← e3]
      exact ⟨_, hexec, declareRepeat_halts h⟩

end Sys2Proof.Proofs
end

section
set_option Elab.async false
/-! The link aperture (14 R447, R448). -/
namespace Sys2Proof.Proofs
open Sys2Proof Sys2Proof.Machine Sys2Proof.Laws Sys2Proof.Safety

variable {s : State} {m : Msg} {t : Tag}

/-! ### Requests -/

theorem window_inside (hm : isMember s m = true) (h : msgOff m + m.len.toNat ≤ s.cas.aperSize) :
    window s m = .ok (s.cas.aperBase + msgOff m) := by
  simp [window, hm, Nat.not_lt.2 h]

theorem window_outside (hm : isMember s m = true) (h : ¬ msgOff m + m.len.toNat ≤ s.cas.aperSize) : window s m = .error 4 := by
  simp [window, hm, Nat.not_le.1 h]

theorem sendNak_free (hf : LinkFree s) (reason : Nat) :
    ∃ x, sendNak s m reason = SentOne s x ∧ x.type = 0x23 ∧ x.arg0 = BitVec.ofNat 32 reason :=
  ⟨_, sendMsg_free hf 0 (by rw [msgFlits_empty rfl]; decide), rfl, rfl⟩

theorem aperReply_free (hf : LinkFree s) (ty mfl : Nat) (p : List Byte) (hp : p.length ≤ 1024) :
    ∃ x, aperReply s m ty mfl p = SentOne s x ∧ x.type = BitVec.ofNat 8 ty ∧ x.dst = m.src ∧ x.arg0 = m.arg0 ∧ x.arg1 = m.arg1 ∧ x.payload = p := by
  refine ⟨_, sendMsg_free hf 0 ?_, rfl, ?_, ?_, ?_, rfl⟩
  · change cdiv (16 + p.length) 64 ≤ 17
    unfold cdiv
    omega
  · exact BitVec.ofNat_toNat .. |>.trans (BitVec.setWidth_eq _)
  · exact BitVec.ofNat_toNat .. |>.trans (BitVec.setWidth_eq _)
  · exact BitVec.ofNat_toNat .. |>.trans (BitVec.setWidth_eq _)

theorem length_fetch (m : PMem) (a n : Nat) : (m.fetch a n).1.length ≤ n := by
  simp only [PMem.fetch, List.length_map, List.length_zip, tab, List.length_range]
  exact Nat.min_le_right ..

theorem len_of_received {ty : Nat} (h : Receives s ty m) : m.len.toNat ≤ 1024 := by
  have hok := h.2.2.1
  simp only [msgOk, Bool.and_eq_true, decide_eq_true_eq] at hok
  exact hok.1.1.1.1.2

/-! ### Answers -/

/-- The answer `m` is for tag `t`, which is in flight. -/
theorem awaits_aper {ty : Nat} (hr : Receives s ty m) (hgen : s.str.gens.get (tagKey (fld (aperId m) 11 8) (fld (aperId m) 2 9)) 0 = fld (aperId m) 0 2)
    (hfind : s.str.tags.find (tagKey (fld (aperId m) 11 8) (fld (aperId m) 2 9)) = some t) (hsent : t.sent = true) (hchan : t.chan = .aper m.src.toNat) :
    Awaits s (toRank m.src.toNat) (aperId m) t :=
  ⟨hr.1.1, hgen, hfind, hsent, by simp [toRank, hchan]⟩

/-- Units that land one after another from landing number `k` on. -/
def unitsLanded (t : Tag) (core unit k : Nat) : List (Nat × Bool × List Byte) → List Landed
  | [] => []
  | u :: l => ⟨unit, core, (unitSpan t u.1).1, landData t u, u.2.1, k, t.stage⟩ :: unitsLanded t core unit (k + 1) l

theorem landNext_unitLanded (s v : State) (core : Nat) (stage bad : Bool) (h : v.str = unitLanded s core stage bad) :
    landNext v core stage = landNext s core stage + 1 := by
  rw [landNext, h, unitLanded]
  cases stage <;> simp [landNext]

theorem unitLanded_tags (s : State) (core : Nat) (stage bad : Bool) : (unitLanded s core stage bad).tags = s.str.tags := by
  rw [unitLanded]
  split <;> rw [unitCounted_keeps]

/-- What unitsLanded for a command leave: it knows of each, and the bytes stand in T0. -/
structure LandsAll (s v : State) (j : Job) (l : List Landed) : Prop where
  frame : v = { s with jobs := v.jobs, str := v.str, t0 := v.t0 }
  jobs : v.jobs = (s.setJob { j with fetched := j.fetched ++ l }).jobs
  tags : v.str.tags = s.str.tags
  idle : NothingWaits v

theorem LandsAll.job {v : State} {j : Job} {l : List Landed} {q n : Nat} (h : LandsAll s v j l) (hj : s.job q n = some j) :
    v.job q n = some { j with fetched := j.fetched ++ l } := by
  have : v.job q n = (s.setJob { j with fetched := j.fetched ++ l }).job q n := by rw [State.job, h.jobs]; rfl
  rw [this]
  obtain ⟨hq, hn⟩ := job_names _ _ _ _ hj
  exact job_setJob _ _ _ j _ hj rfl hq hn

theorem landUnit_first {core q n unit : Nat} {j : Job} (hu : t.use = .fetch q n unit) (hj : s.job q n = some j) (hidle : NothingWaits s)
    (u : Nat × Bool × List Byte) :
    LandsAll s (landUnit core t s u) j (unitsLanded t core unit (landNext s core t.stage) [u]) ∧
      landNext (landUnit core t s u) core t.stage = landNext s core t.stage + 1 := by
  have hidle' := landUnit_fetch_idle (core := core) hu hj u hidle
  have hland := landUnit_fetch (core := core) hu hj u
  refine ⟨⟨?_, ?_, ?_, hidle'⟩, landNext_unitLanded s _ core t.stage u.2.1 (by rw [hland])⟩
  · rw [hland]
  · rw [hland]
    rfl
  · rw [hland]
    exact unitLanded_tags ..

theorem landFrame_trans {v w : State} (h : v = { s with jobs := v.jobs, str := v.str, t0 := v.t0 })
    (h' : w = { v with jobs := w.jobs, str := w.str, t0 := w.t0 }) : w = { s with jobs := w.jobs, str := w.str, t0 := w.t0 } := by
  conv => lhs; rw [h']
  conv => lhs; rw [h]

theorem LandsAll.step {v : State} {core q n unit k : Nat} {j : Job} {l : List Landed} (h : LandsAll s v j l) (hu : t.use = .fetch q n unit)
    (hj : s.job q n = some j) (hk : landNext v core t.stage = k) (u : Nat × Bool × List Byte) :
    LandsAll s (landUnit core t v u) j (l ++ unitsLanded t core unit k [u]) ∧ landNext (landUnit core t v u) core t.stage = k + 1 := by
  obtain ⟨⟨hf, hjobs, htags, hidle⟩, hnext⟩ := landUnit_first (core := core) hu (h.job hj) h.idle u
  rw [hk] at hjobs hnext
  refine ⟨⟨landFrame_trans h.frame hf, ?_, htags.trans h.tags, hidle⟩, hnext⟩
  · rw [hjobs]
    have hset : (v.setJob { j with fetched := (j.fetched ++ l) ++ unitsLanded t core unit k [u] }).jobs =
        ((s.setJob { j with fetched := j.fetched ++ l }).setJob { j with fetched := (j.fetched ++ l) ++ unitsLanded t core unit k [u] }).jobs := by
      rw [State.setJob, h.jobs]
      rfl
    refine hset.trans ?_
    rw [setJob_setJob s (j := { j with fetched := j.fetched ++ l }) (k := { j with fetched := (j.fetched ++ l) ++ unitsLanded t core unit k [u] }) rfl,
      List.append_assoc]

theorem landAll_from {core q n unit : Nat} {j : Job} (hu : t.use = .fetch q n unit) (hj : s.job q n = some j) (us : List (Nat × Bool × List Byte))
    {v : State} {k : Nat} {l : List Landed} (h : LandsAll s v j l) (hk : landNext v core t.stage = k) :
    LandsAll s (us.foldl (landUnit core t) v) j (l ++ unitsLanded t core unit k us) := by
  induction us generalizing v k l with
  | nil => simpa [unitsLanded] using h
  | cons u us ih =>
    obtain ⟨h', hk'⟩ := h.step hu hj hk u
    have := ih h' hk'
    rwa [List.append_assoc] at this

/-- The units of a read, one at least, land for its command. -/
theorem landAll {core q n unit : Nat} {j : Job} (hu : t.use = .fetch q n unit) (hj : s.job q n = some j) (hidle : NothingWaits s)
    (u : Nat × Bool × List Byte) (us : List (Nat × Bool × List Byte)) :
    LandsAll s ((u :: us).foldl (landUnit core t) s) j (unitsLanded t core unit (landNext s core t.stage) (u :: us)) := by
  obtain ⟨h, hk⟩ := landUnit_first (core := core) hu hj hidle u
  exact landAll_from hu hj us h hk

theorem unitsLanded_map (t : Tag) (core unit k i : Nat) (f : Nat → Nat × Bool × List Byte) (l : List Nat) :
    unitsLanded t core unit (k + i) (l.map f) = (l.zipIdx i).map fun v =>
      ⟨unit, core, (unitSpan t (f v.1).1).1, landData t (f v.1), (f v.1).2.1, k + v.2, t.stage⟩ := by
  induction l generalizing i with
  | nil => rfl
  | cons a l ih =>
    rw [List.map_cons, unitsLanded, List.zipIdx_cons, List.map_cons, Nat.add_assoc, ih]

/-- The part of an answer for unit `u` of tag `t`, as its read delivers it. -/
def aperUnit (m : Msg) (t : Tag) (u : Nat) : Nat × Bool × List Byte :=
  (u, false, List.replicate ((unitSpan t u).1 % 64) 0 ++ (m.payload.drop ((unitSpan t u).1 - t.addr)).take ((unitSpan t u).2 - (unitSpan t u).1))

theorem landData_aperUnit (m : Msg) (t : Tag) (u : Nat) :
    landData t (aperUnit m t u) = (m.payload.drop ((unitSpan t u).1 - t.addr)).take ((unitSpan t u).2 - (unitSpan t u).1) := by
  rw [landData, aperUnit, if_neg Bool.false_ne_true, List.drop_append_of_le_length (by simp), List.drop_replicate, Nat.sub_self, List.replicate_zero,
    List.nil_append, List.take_take, Nat.min_self]

theorem span_cons (t : Tag) : ∃ u us, t.span = u :: us := by
  have : t.span ≠ [] := by
    rw [Tag.span, tab, unitCount]
    simp
  exact List.exists_cons_of_ne_nil this

theorem onAperData_lands (h : Awaits s (toRank m.src.toNat) (aperId m) t) (hw : t.write = false) (hb : t.bad = false) (hinj : s.mon.inj = [])
    (hlen : m.payload.length = t.len) (hbit : bit m.mflags.toNat 5 = false) :
    onAperData s m = endRead s (tagKey (fld (aperId m) 11 8) (fld (aperId m) 2 9)) t (t.span.map (aperUnit m t)) := by
  obtain ⟨-, hgen, hfind, hsent, hok⟩ := h
  unfold onAperData
  simp only [hgen, hfind, hsent, hok, hw, hb, hlen, hbit, fireInj_none hinj, bne_self_eq_false, Bool.not_true, Bool.or_self,
    Bool.false_eq_true, if_false]
  rfl

/-- Settles O45, from the window of a request and from the landing of an answer's units. -/
theorem aperturesReadAndWrite : Obligations.AperturesReadAndWrite := by
  unfold Obligations.AperturesReadAndWrite
  refine ⟨fun m s hm hf => ?_, fun m s t => ?_⟩
  · intro a inside
    have hwr : Receives s 0x40 m → exec (.aperWr m) s = .next (onAperWr s m) := exec_received (by simp [messageRows])
    have hrd : Receives s 0x41 m → exec (.aperRd m) s = .next (onAperRd s m) := exec_received (by simp [messageRows])
    refine ⟨fun hr hin hbit => ?_, fun hr hin => ?_, fun hout c hc => ?_⟩
    · have hon : onAperWr s m = aperReply { s with t1 := s.t1.put a m.payload } m 0x43 0 [] := by
        rw [onAperWr, window_inside hm hin]
        simp only [hbit, Bool.false_eq_true, if_false]
        rfl
      obtain ⟨x, hx, h1, h2, h3, h4, -⟩ := aperReply_free (s := { s with t1 := s.t1.put a m.payload }) (m := m) hf 0x43 0 [] (by simp)
      exact ⟨x, by rw [hwr hr, hon, hx], h1, h2, h3, h4⟩
    · have hon : onAperRd s m = aperReply s m 0x42 (if (s.t1.fetch a m.len.toNat).2.any id then 32 else 0) (s.t1.fetch a m.len.toNat).1 := by
        rw [onAperRd, window_inside hm hin]
      obtain ⟨x, hx, h1, -, -, h4, h5⟩ := aperReply_free (m := m) hf 0x42 (if (s.t1.fetch a m.len.toNat).2.any id then 32 else 0)
        (s.t1.fetch a m.len.toNat).1 (Nat.le_trans (length_fetch ..) (len_of_received hr))
      exact ⟨x, by rw [hrd hr, hon, hx], h1, h5, h4⟩
    · obtain ⟨x, hx, h1, h2⟩ := sendNak_free (m := m) hf 4
      refine ⟨x, ?_, h1, h2⟩
      obtain ⟨rfl, hr⟩ | ⟨rfl, hr⟩ := hc
      · rw [hwr hr, onAperWr, window_outside hm hout, ← hx]
      · rw [hrd hr, onAperRd, window_outside hm hout, ← hx]
  · intro id core key hgen hfind hsent hchan hidle
    refine ⟨fun hr hw huse => ?_, fun q n u j hr hw hb hinj huse hj hlen hbit => ?_⟩
    · have hack := writeAck_taken (port := 5) (err := false) (awaits_aper hr hgen hfind hsent hchan) hw
      have hexec : exec (.aperAck m) s = .next (onAperAck s m) := exec_received (by simp [messageRows]) hr
      rw [hexec, onAperAck, hack, if_neg Bool.false_ne_true, fallEnds_other huse, dropTag_idle hidle]
    · have hexec : exec (.aperData m) s = .next (onAperData s m) := exec_received (by simp [messageRows]) hr
      have hcore : key / 512 = core := tagKey_core (fld_lt ..)
      obtain ⟨u0, us, hspan⟩ := span_cons t
      have hall := landAll (core := core) huse hj hidle (aperUnit m t u0) (us.map (aperUnit m t))
      rw [← List.map_cons, ← hspan] at hall
      have hend : onAperData s m = { (t.span.map (aperUnit m t)).foldl (landUnit core t) s with
          str := { ((t.span.map (aperUnit m t)).foldl (landUnit core t) s).str with
            tags := ((t.span.map (aperUnit m t)).foldl (landUnit core t) s).str.tags.del key } } := by
        rw [onAperData_lands (awaits_aper hr hgen hfind hsent hchan) hw hb hinj hlen hbit, endRead, huse]
        rw [show tagKey (fld (aperId m) 11 8) (fld (aperId m) 2 9) / 512 = core from hcore]
        exact dropTag_idle hall.idle _
      refine ⟨_, hexec.trans (congrArg Host.Outcome.next hend), ?_, ?_, ?_⟩
      · exact congrArg (fun x => Tab.del x key) hall.tags
      · refine hall.jobs.trans ?_
        have hmap := unitsLanded_map t core u (landNext s core t.stage) 0 (aperUnit m t) t.span
        rw [Nat.add_zero] at hmap
        rw [hmap]
        simp only [landData_aperUnit]
        rfl
      · exact congrArg (fun v : State => { v with str := { ((t.span.map (aperUnit m t)).foldl (landUnit core t) s).str with
            tags := ((t.span.map (aperUnit m t)).foldl (landUnit core t) s).str.tags.del key } }) hall.frame

end Sys2Proof.Proofs
end

section
set_option Elab.async false
/-! The reduction on the link: buckets, terms, results, credits and refusals (14 R448, R452, R456-R464). -/
namespace Sys2Proof.Proofs
open Sys2Proof Sys2Proof.Machine Sys2Proof.Laws Sys2Proof.Safety

variable {s t : State} {m : Msg} {j : Job} {b : Bucket}

/-! ### REDUCE -/

theorem exec_reduce (q : BitVec 6) (n : BitVec 16) (s : State) : exec (.reduce q n) s = .next (reduceRow q n s) := rfl

theorem sendMsg_buckets (s : State) (dry : Nat) (m : Msg) : (sendMsg s dry m).cas.buckets = s.cas.buckets := by
  rw [(sendMsg_cas s dry m).1]

/-- Opening a bucket adds it behind those there are. -/
theorem openBucket_buckets (s : State) (j : Job) (word : Nat) : (openBucket s j word).cas.buckets =
    s.cas.buckets ++ [⟨fld word 0 8, j.q, j.n, bit word 8, fld word 9 3, btCount s (fld word 0 8), cdiv (btCount s (fld word 0 8)) 256⟩] := by
  unfold openBucket
  dsimp only
  refine congrArg (· ++ _) ?_
  generalize s.cas.chunks.flatMap _ = l
  induction l generalizing s with
  | nil => rfl
  | cons x l ih => exact (ih _).trans (sendMsg_buckets ..)

/-- A command with a bucket in flight does not end. -/
theorem settle_bucket {q n : Nat} (h : (s.cas.buckets.any fun b => b.q == q && b.n == n) = true) : settle s q n = s := by
  unfold settle State.withJob
  split
  · rfl
  · exact if_neg (by simp [h])

theorem takeTiles_whole (f : Nat → Tile) (l : List Nat) : takeTiles (l.map fun k => (none, fun _ => f k)) = (l.map f, none) := by
  induction l with
  | nil => rfl
  | cons k l ih => rw [List.map_cons, takeTiles, ih, List.map_cons]

theorem missing_dense {l : List (Tensor × Nat)} (h : ∀ p ∈ l, p.1.list = false) (s : State) (x : Ctx) : missing s x l = none := by
  rw [missing, List.find?_eq_none.2, Option.map_none]
  intro p hp
  simp [Tensor.gives, h p hp]

theorem placeTiles_bare (q n : Nat) {tiles : List Tile} (h : ∀ x ∈ tiles, x.items = []) (s : State) : placeTiles s q n tiles = s := by
  unfold placeTiles
  induction tiles generalizing s with
  | nil => rfl
  | cons x l ih =>
    rw [List.foldl_cons, h x (by simp)]
    exact ih (fun y hy => h y (by simp [hy])) s

/-- A REDUCE of this attempt whose tag it has. -/
def tagged (s : State) (j : Job) : Job := { j with attempt := s.cas.attempt, tagWait := false }

/-- The chunks of a REDUCE. -/
def reduceTiles (s : State) (j : Job) (src : Tensor) : List Tile := tab (cdiv src.count 256) fun k => reduceTile s j.ctx src k

/-- A REDUCE under its tag takes its chunks up. -/
def reduceStarts (s : State) (j : Job) (src : Tensor) : State :=
  let r := takeTiles (tab (cdiv src.count 256) fun k =>
    (missing s j.ctx (tab (chunkLen src.count k) fun i => (src, 256 * k + i)), fun _ => reduceTile s j.ctx src k))
  match r.2 with
  | some f => malform { s with cas := { s.cas with buckets := s.cas.buckets.filter fun b => !(b.q == j.q && b.n == j.n) } } j f.1 f.2.1 f.2.2
  | none => runTiles s j r.1 none

theorem runReduce_eq (s : State) (j : Job) (p : Tensor × Tensor) : runReduce s j p =
    if bucketWaits s (j.body 0x10) then s.setJob { j with tagWait := true }
    else withOperands s j j.ctx [p.1] (reduceParts p.1) fun t k => reduceStarts (openBucket t (tagged t k) (j.body 0x10)) (tagged t k) p.1 := rfl

theorem reduceStarts_runs {src : Tensor} (hoff : s.mon.trOn = false) (hb : (s.cas.buckets.any fun b => b.q == j.q && b.n == j.n) = true)
    (hsrc : src.list = false) : reduceStarts s j src = s.setJob (running j (reduceTiles s j src) none) := by
  have htiles : takeTiles (tab (cdiv src.count 256) fun k =>
      (missing s j.ctx (tab (chunkLen src.count k) fun i => (src, 256 * k + i)), fun _ => reduceTile s j.ctx src k)) = (reduceTiles s j src, none) := by
    have hnone : ∀ k, missing s j.ctx (tab (chunkLen src.count k) fun i => (src, 256 * k + i)) = none := fun k => by
      refine missing_dense (fun p hp => ?_) s j.ctx
      obtain ⟨i, -, rfl⟩ := List.mem_map.1 hp
      exact hsrc
    simp only [hnone]
    exact takeTiles_whole (fun k => reduceTile s j.ctx src k) (List.range (cdiv src.count 256))
  have hbare : ∀ x ∈ reduceTiles s j src, x.items = [] := fun x hx => by
    obtain ⟨k, -, rfl⟩ := List.mem_map.1 hx
    rfl
  unfold reduceStarts
  simp only [htiles]
  rw [runTiles, trace_off _ _ _ _ _ _ _ _ (by exact hoff), placeTiles_bare _ _ hbare]
  exact settle_bucket hb

theorem runReduce_opens {src dst : Tensor} (hoff : s.mon.trOn = false) (hj : s.job j.q j.n = some j) (hw : bucketWaits s (j.body 0x10) = false)
    (hat : AtHand s j j.ctx (reduceParts src)) (hsrc : src.list = false) : runReduce s j (src, dst) =
      (openBucket s j (j.body 0x10)).setJob (running (tagged s j) (reduceTiles (openBucket s j (j.body 0x10)) (tagged s j) src) none) := by
  obtain ⟨x, y, z, hframe⟩ := openBucket_eq s j (j.body 0x10)
  have hoff' : (openBucket s j (j.body 0x10)).mon.trOn = false := by rw [hframe]; exact hoff
  rw [runReduce_eq, hw, if_neg Bool.false_ne_true, withOperands_atHand _ _ _ _ _ _ hj hat]
  refine reduceStarts_runs hoff' ?_ hsrc
  rw [show openBucket s (tagged s j) (j.body 0x10) = openBucket s j (j.body 0x10) from rfl, openBucket_buckets]
  simp [tagged]

/-! ### CONTRIB and CREDIT -/

theorem onContrib_checks (hm : isMember s m = true) (hc : s.cas.children.contains m.src.toNat = true) (hs : bit s.cas.stepMask m.tag.toNat = true)
    (hn : btCount s m.tag.toNat ≠ 0) (hmode : modeBad s m = false) : onContrib s m =
      if (chunkOf s m.tag.toNat (msgChunk m)).terms.any fun t => t.rank == m.src.toNat then
        casViol { s with cas := { s.cas with dupCount := add64 s.cas.dupCount 1 } } 0 m.src.toNat m.tag.toNat (msgChunk m)
      else addTerm s m.tag.toNat (msgChunk m) ⟨m.src.toNat, readChunk (bit (msgMode m) 0) (bit m.mflags.toNat 4)
        (chunkLen (btCount s m.tag.toNat) (msgChunk m)) m.payload, msgFlags m, bit m.mflags.toNat 5, msgMode m⟩ := by
  unfold onContrib
  dsimp only
  rw [if_neg (by simp [hm]; simpa using hc), if_neg (by simp [hs, hn]), if_neg (by simp [hmode])]

theorem onContrib_noTag (hm : isMember s m = true) (hc : s.cas.children.contains m.src.toNat = true) (hs : bit s.cas.stepMask m.tag.toNat = false) :
    onContrib s m = sendNak s m 1 := by
  unfold onContrib
  dsimp only
  rw [if_neg (by simp [hm]; simpa using hc), if_pos (by simp [hs])]

theorem chunkOf_names (s : State) (tag num : Nat) : (chunkOf s tag num).tag = tag ∧ (chunkOf s tag num).num = num := by
  rw [chunkOf]
  cases h : s.cas.chunks.find? fun c => c.tag == tag && c.num == num with
  | none => exact ⟨rfl, rfl⟩
  | some c => simpa using List.find?_some h

theorem chunkOf_putChunk (s : State) (c : Chunk) : chunkOf (putChunk s c) c.tag c.num = c := by
  rw [chunkOf, putChunk, List.find?_cons]
  simp

/-- Every rank of a list has sent its term exactly when a term of each is found. -/
theorem terms_all (want : List Nat) (terms : List Term) :
    (want.filterMap fun r => terms.find? fun t => t.rank == r).length = want.length ↔ ∀ r ∈ want, ∃ t ∈ terms, t.rank = r := by
  rw [List.length_filterMap_eq_countP, List.countP_eq_length]
  refine forall₂_congr fun r _ => ?_
  simp [List.find?_isSome]

/-- What the adder needs to act on a chunk: its bucket, every term, and that it has not acted. -/
theorem actChunk_rests {tag num : Nat} (h : bucketOf s tag = none ∨
    (¬ ∀ r ∈ s.cas.rank :: s.cas.children, ∃ t ∈ (chunkOf s tag num).terms, t.rank = r) ∨ (chunkOf s tag num).sent = true) : actChunk s tag num = s := by
  unfold actChunk
  split
  · rfl
  · next b hb =>
    rw [hb] at h
    simp only [reduceCtorEq, false_or] at h
    refine if_pos ?_
    rcases h with h | h
    · rw [← terms_all] at h
      rw [bne_iff_ne.2 h, Bool.or_true]
    · rw [h, Bool.true_or]

theorem Flows.chunk {a s : State} (h : Flows a s) (tag num : Nat) : chunkOf s tag num = chunkOf a tag num := by
  unfold chunkOf
  rw [h.2]

theorem actChunk_acts {tag num : Nat} (hb : bucketOf s tag ≠ none)
    (hall : ∀ r ∈ s.cas.rank :: s.cas.children, ∃ t ∈ (chunkOf s tag num).terms, t.rank = r) (hr : s.cas.rank ≠ 0) :
    (chunkOf (actChunk s tag num) tag num).sent = true := by
  obtain ⟨b, hb⟩ := Option.ne_none_iff_exists'.1 hb
  by_cases hsent : (chunkOf s tag num).sent = true
  · rw [actChunk_rests (.inr (.inr hsent)), hsent]
  · obtain ⟨htag, hnum⟩ := chunkOf_names s tag num
    have hput : ∀ u : State, (chunkOf (putChunk u { chunkOf s tag num with sent := true }) tag num).sent = true := fun u => by
      have h := chunkOf_putChunk u { chunkOf s tag num with sent := true }
      rw [show ({ chunkOf s tag num with sent := true } : Chunk).tag = tag from htag,
        show ({ chunkOf s tag num with sent := true } : Chunk).num = num from hnum] at h
      rw [h]
    unfold actChunk
    simp only [hb]
    rw [if_neg (by rw [(terms_all ..).2 hall]; simpa using hsent)]
    generalize hU : putChunk _ _ = U
    have hcas : U.cas.rank = s.cas.rank := by
      rw [← hU, report_eq]
      rfl
    have hflow : Flows U (U.cas.children.foldl (fun s r => sendMsg s 0 (mkMsg s 0x22 r 0 0 1 0 [])) U) :=
      flows_foldl _ (fun _ _ h => sendMsg_flows _ _ h) (.refl U)
    have hrank : (U.cas.children.foldl (fun s r => sendMsg s 0 (mkMsg s 0x22 r 0 0 1 0 [])) U).cas.rank ≠ 0 := by
      rw [hflow.2]
      exact hcas ▸ hr
    rw [if_neg (by simpa using hrank), (sendContrib_flows _ hflow).chunk, ← hU]
    exact hput _

/-- A CREDIT from the parent. -/
theorem onCredit_adds (hm : isMember s m = true) (hr : s.cas.rank ≠ 0) (hp : m.src.toNat = s.cas.parent) :
    onCredit s m = pumpUp { s with cas := { s.cas with credit := s.cas.credit + m.arg0.toNat } } :=
  if_neg (by simp [hm, hr, hp])

theorem pumpUp_none (h : s.cas.pendingUp = []) : pumpUp s = s := by
  unfold pumpUp
  rw [h, List.foldl_nil, ← h]

/-! ### RESULT -/

theorem onResult_new (hm : isMember s m = true) (hr : s.cas.rank ≠ 0) (hp : m.src.toNat = s.cas.parent) (hb : bucketOf s m.tag.toNat = some b)
    (hmode : modeBad s m = false) : onResult s m =
      if (chunkOf s m.tag.toNat (msgChunk m)).got then s
      else deliver (putChunk s { chunkOf s m.tag.toNat (msgChunk m) with got := true }) m.tag.toNat (msgChunk m) b
        (readChunk b.priv (bit m.mflags.toNat 4) (chunkLen b.count (msgChunk m)) m.payload) (msgFlags m) (bit m.mflags.toNat 5) m.mflags.toNat := by
  unfold onResult
  dsimp only
  rw [if_neg (by simp [hm, hr, hp]), hb]
  dsimp only
  rw [if_neg (by simp [hmode])]

/-- The bytes of a result for a destination. -/
def resultBytes (b : Bucket) (dst : Tensor) (vals : List (Option Nat)) : List Byte :=
  vals.flatMap fun v =>
    let c := wire32 b.priv (v.getD 0)
    leBytes (dst.fmt.bits / 8) (if dst.fmt == .bf16 then (f32ToIeee ieeeBf false c).1 else c)

/-- The command that a result's flags and poison are noted on. -/
def resultNoted (j : Job) (vals : List (Option Nat)) (fl : Flags) (poison : Bool) : Job :=
  { j with fl := j.fl ||| fl, poison := if poison then sat32 j.poison vals.length else j.poison }

/-- A bucket with one chunk fewer to come. -/
def chunkDone (s : State) (b : Bucket) : State :=
  { s with cas := { s.cas with
    buckets := if b.left - 1 == 0 then s.cas.buckets.filter fun x => x.tag != b.tag
      else s.cas.buckets.map fun x => if x.tag == b.tag then { b with left := b.left - 1 } else x
    doneTags := if b.left - 1 == 0 then b.tag :: s.cas.doneTags else s.cas.doneTags } }

/-- The write of a result. -/
def resultWr (b : Bucket) (dst : Tensor) (num : Nat) (vals : List (Option Nat)) (poison : Bool) : Wr :=
  ⟨.t1, dst.addr + 256 * num * (dst.fmt.bits / 8), resultBytes b dst vals, (resultBytes b dst vals).map fun _ => poison, dst.fmt.bits, 0⟩

/-- The writes of a command with those of `w` behind them. -/
def withWr (s : State) (j : Job) (core : Nat) (w : Wr) : Job := { j with wq := j.wq ++ cutWr s j.stepCmd core w }

/-- `s` with a result's flags reported and noted, and its write behind the others of its command. -/
def resultQueued (s : State) (b : Bucket) (j : Job) (dst : Tensor) (num : Nat) (vals : List (Option Nat)) (fl : Flags) (poison : Bool) : State :=
  let s := (report s j.loc 0 ⟨fl, []⟩).setJob (resultNoted j vals fl poison)
  s.setJob (withWr s (resultNoted j vals fl poison) 0 (resultWr b dst num vals poison))

/-- A result's flags are reported and noted, and its writes queued; a chunk is done. -/
def resultPut (s : State) (b : Bucket) (j : Job) (vals : List (Option Nat)) (fl : Flags) (poison : Bool) (ws : List Wr) : State :=
  let s := (report s j.loc 0 ⟨fl, []⟩).setJob (resultNoted j vals fl poison)
  match writeRuns false b.q b.n 0 0 s ws with
  | none => s.withJob b.q b.n fun s j =>
    { s.setJob (j.mark 5).end with cas := { s.cas with buckets := s.cas.buckets.filter fun x => x.tag != b.tag } }
  | some s => pumpWrites (settle (chunkDone s b) b.q b.n)

theorem writeResult_eq (s : State) (b : Bucket) (num : Nat) (vals : List (Option Nat)) (fl : Flags) (poison : Bool) :
    writeResult s b num vals fl poison = s.withJob b.q b.n fun s j =>
      match tensor s j.ctx .any (if j.op == 0x38 then j.body 8 else j.body 0x10) with
      | .error _ => s
      | .ok t => resultPut s b j vals fl poison
        (t.put s j.ctx (256 * num * (t.fmt.bits / 8)) (resultBytes b t vals) ((resultBytes b t vals).map fun _ => poison)) := rfl

theorem report_job (s : State) (cmd core : Nat) (r : Rep) (q n : Nat) : (report s cmd core r).job q n = s.job q n := by
  rw [report_eq]
  rfl

theorem writeResult_dense {dst : Tensor} {num : Nat} {vals : List (Option Nat)} {fl : Flags} {poison : Bool} (hj : s.job b.q b.n = some j)
    (hdst : tensor s j.ctx .any (if j.op = 0x38 then j.body 8 else j.body 0x10) = .ok dst) (hl : dst.list = false) (hs : dst.space = 0) :
    writeResult s b num vals fl poison = pumpWrites (settle (chunkDone (resultQueued s b j dst num vals fl poison) b) b.q b.n) := by
  have hdst' : tensor s j.ctx .any (if (j.op == 0x38) = true then j.body 8 else j.body 0x10) = .ok dst := by simpa using hdst
  have hput : dst.put s j.ctx (256 * num * (dst.fmt.bits / 8)) (resultBytes b dst vals) ((resultBytes b dst vals).map fun _ => poison) =
      [resultWr b dst num vals poison] := by
    simp [Tensor.put, hl, hs, Tensor.base, resultWr]
  obtain ⟨hq, hn⟩ := job_names _ _ _ _ hj
  have hjob : ((report s j.loc 0 ⟨fl, []⟩).setJob (resultNoted j vals fl poison)).job b.q b.n = some (resultNoted j vals fl poison) :=
    job_setJob _ _ _ j _ (by rw [report_job]; exact hj) rfl hq hn
  have hrun : writeRuns false b.q b.n 0 0 ((report s j.loc 0 ⟨fl, []⟩).setJob (resultNoted j vals fl poison)) [resultWr b dst num vals poison] =
      some (((report s j.loc 0 ⟨fl, []⟩).setJob (resultNoted j vals fl poison)).withJob b.q b.n fun s j =>
        s.setJob (withWr s j 0 (resultWr b dst num vals poison))) := rfl
  rw [withJob_some _ _ _ _ _ hjob] at hrun
  rw [writeResult_eq, withJob_some _ _ _ _ _ hj]
  simp only [hdst', hput, resultPut, hrun]
  rfl

/-- What the end of a command leaves of it and of the state. -/
theorem settle_leaves {q n : Nat} (hj : s.job q n = some j) : ∃ y, (settle s q n).job q n = some y ∧ y.fl = j.fl ∧ y.wq = j.wq ∧
    (settle s q n).cas = s.cas ∧ (settle s q n).flg = s.flg := by
  obtain ⟨hq, hn⟩ := job_names _ _ _ _ hj
  rw [settle, withJob_some _ _ _ _ _ hj]
  split
  · split
    · next f hf =>
      have hmark : ∀ k : Job, (k.mark 4).fl = k.fl ∧ (k.mark 4).wq = k.wq ∧ (k.mark 4).take = k.take ∧ (k.mark 4).q = k.q ∧ (k.mark 4).n = k.n :=
        fun k => by
          unfold Job.mark
          split <;> exact ⟨rfl, rfl, rfl, rfl, rfl⟩
      obtain ⟨h1, h2, h3, h4, h5⟩ := hmark j
      have hviol : ∀ v : State, v.job q n = s.job q n → v.cas = s.cas → v.flg = s.flg →
          ∃ y, (v.setJob ({ (j.mark 4) with vlogged := true } : Job).end).job q n = some y ∧ y.fl = j.fl ∧ y.wq = j.wq ∧
            (v.setJob ({ (j.mark 4) with vlogged := true } : Job).end).cas = s.cas ∧
            (v.setJob ({ (j.mark 4) with vlogged := true } : Job).end).flg = s.flg := fun v hv hc hf =>
        ⟨_, job_setJob _ _ _ j ({ (j.mark 4) with vlogged := true } : Job).end (hv.trans hj) h3 (h4.trans hq) (h5.trans hn), h1, h2, hc, hf⟩
      unfold malform
      dsimp only
      split
      · exact hviol s rfl rfl rfl
      · exact hviol _ (by rw [viol_eq]; rfl) (by rw [viol_eq]) (by rw [viol_eq])
    · exact ⟨_, job_setJob _ _ _ j j.end hj rfl hq hn, rfl, rfl, rfl, rfl⟩
  · exact ⟨j, hj, rfl, rfl, rfl, rfl⟩

theorem redirect_of_cas {s t : State} (h : ∃ chunks, t.cas = { s.cas with chunks := chunks }) (step write : Bool) (a : Nat) :
    redirect t step write a = redirect s step write a := by
  obtain ⟨chunks, h⟩ := h
  rw [redirect, h]
  rfl

theorem cutWr_of_cas {s t : State} (h : ∃ chunks, t.cas = { s.cas with chunks := chunks }) (step : Bool) (core : Nat) (w : Wr) :
    cutWr t step core w = cutWr s step core w := by
  simp only [cutWr, redirect_of_cas h]

/-! ### NAK -/

theorem onNak_other {ty : Nat} (h : fld m.arg1.toNat 0 8 = ty) (h0 : ty ≠ 0x20) (h1 : ty ≠ 0x40) (h2 : ty ≠ 0x41) :
    onNak s m = casViolOf s (nakCmd s m) (m.arg0.toNat % 256) m.src.toNat m.tag.toNat (fld m.arg1.toNat 8 24) := by
  unfold onNak
  simp [h, h0, h1, h2]

theorem onNak_aper {ty : Nat} (h : fld m.arg1.toNat 0 8 = ty) (hty : ty = 0x40 ∨ ty = 0x41) : onNak s m =
    nakAper (casViolOf s (nakCmd s m) (m.arg0.toNat % 256) m.src.toNat m.tag.toNat (fld m.arg1.toNat 8 24)) m (ty == 0x40) := by
  unfold onNak
  rcases hty with rfl | rfl <;> simp [h]

theorem onNak_again (h : fld m.arg1.toNat 0 8 = 0x20) (hk : s.cas.nakked.contains (m.tag.toNat, s.cas.attempt) = true) : onNak s m = s := by
  unfold onNak
  dsimp only
  rw [h, hk]
  rfl

theorem casViolOf_cas (s : State) (cmd reason rank tag num : Nat) : (casViolOf s cmd reason rank tag num).cas = s.cas := by
  rw [casViolOf, viol_eq]

/-- A refused term under `key` ends the command of its bucket, once. -/
def termRefused (s : State) (key : Nat × Nat) : Option Bucket → State
  | none => s
  | some b => endJob { s with cas := { s.cas with nakked := key :: s.cas.nakked } } b.q b.n 4

theorem onNak_contrib (h : fld m.arg1.toNat 0 8 = 0x20) (hk : s.cas.nakked.contains (m.tag.toNat, s.cas.attempt) = false) : onNak s m =
    termRefused (casViolOf s (nakCmd s m) (m.arg0.toNat % 256) m.src.toNat m.tag.toNat (fld m.arg1.toNat 8 24)) (m.tag.toNat, s.cas.attempt)
      (bucketOf s m.tag.toNat) := by
  have hb : bucketOf (casViolOf s (nakCmd s m) (m.arg0.toNat % 256) m.src.toNat m.tag.toNat (fld m.arg1.toNat 8 24)) m.tag.toNat =
      bucketOf s m.tag.toNat := by rw [bucketOf, casViolOf_cas, bucketOf]
  unfold onNak
  dsimp only
  rw [h, hk]
  simp only [beq_self_eq_true, Bool.true_and, Bool.false_eq_true, if_false, Bool.not_false, if_true, Nat.reduceBEq, hb]
  cases bucketOf s m.tag.toNat with
  | none => rfl
  | some b => rfl

/-! ### The whole -/

/-- A result for a command without children on the tree: its bytes wait as writes. -/
theorem deliver_waits {s0 : State} {dst : Tensor} {tag num mfl : Nat} {vals : List (Option Nat)} {fl : Flags} {poison : Bool}
    (htag : b.tag = tag) (hs0 : ∃ chunks, s = { s0 with cas := { s0.cas with chunks := chunks } })
    (hc : s.cas.children = []) (hj : s.job b.q b.n = some j)
    (hdst : tensor s j.ctx .any (if j.op = 0x38 then j.body 8 else j.body 0x10) = .ok dst) (hl : dst.list = false) (hsp : dst.space = 0) :
    ∃ s2 y, deliver s tag num b vals fl poison mfl = pumpWrites s2 ∧ s2.job b.q b.n = some y ∧ y.fl = j.fl ||| fl ∧
      y.wq = j.wq ++ cutWr s0 j.stepCmd 0 (resultWr b dst num vals poison) ∧ s2.flg.eng = s0.flg.eng ||| fl ∧
      (b.left ≤ 1 → tag ∈ s2.cas.doneTags ∧ s2.cas.buckets = s0.cas.buckets.filter fun x => x.tag != tag) ∧
      (1 < b.left → s2.cas.doneTags = s0.cas.doneTags ∧
        s2.cas.buckets = s0.cas.buckets.map fun x => if x.tag == tag then { b with left := b.left - 1 } else x) := by
  subst htag
  obtain ⟨chunks, rfl⟩ := hs0
  generalize hs : ({ s0 with cas := { s0.cas with chunks := chunks } } : State) = s at *
  have hframe : s.cas = { s0.cas with chunks := chunks } := by rw [← hs]
  have hflg : s.flg = s0.flg := by rw [← hs]
  have hdel : deliver s b.tag num b vals fl poison mfl = writeResult s b num vals fl poison := by
    unfold deliver
    rw [hc]
    rfl
  obtain ⟨hq, hn⟩ := job_names _ _ _ _ hj
  have hrep := report_eq s j.loc 0 ⟨fl, []⟩
  have hcas : (resultQueued s b j dst num vals fl poison).cas = s.cas := by
    change (report s j.loc 0 ⟨fl, []⟩).cas = s.cas
    rw [hrep]
  have hcut : cutWr ((report s j.loc 0 ⟨fl, []⟩).setJob (resultNoted j vals fl poison)) j.stepCmd 0 (resultWr b dst num vals poison) =
      cutWr s0 j.stepCmd 0 (resultWr b dst num vals poison) :=
    cutWr_of_cas ⟨chunks, by
      change (report s j.loc 0 ⟨fl, []⟩).cas = _
      rw [hrep]
      exact hframe⟩ ..
  have hjob : (chunkDone (resultQueued s b j dst num vals fl poison) b).job b.q b.n =
      some (withWr ((report s j.loc 0 ⟨fl, []⟩).setJob (resultNoted j vals fl poison)) (resultNoted j vals fl poison) 0
        (resultWr b dst num vals poison)) := by
    refine job_setJob _ b.q b.n (resultNoted j vals fl poison) _ (job_setJob _ _ _ j _ ?_ rfl hq hn) rfl hq hn
    rw [report_job]
    exact hj
  obtain ⟨y, hy, hfl, hwq, hc2, hf2⟩ := settle_leaves hjob
  refine ⟨_, y, hdel.trans (writeResult_dense hj hdst hl hsp), hy, hfl, ?_, ?_, fun h => ?_, fun h => ?_⟩
  · rw [hwq]
    change j.wq ++ cutWr ((report s j.loc 0 ⟨fl, []⟩).setJob (resultNoted j vals fl poison)) j.stepCmd 0 _ = _
    rw [hcut]
  · rw [hf2]
    change (report s j.loc 0 ⟨fl, []⟩).flg.eng = _
    rw [report_eng, hflg]
  · have hz : (b.left - 1 == 0) = true := by simpa using (by omega : b.left - 1 = 0)
    rw [hc2, chunkDone]
    dsimp only
    rw [hz, hcas, hframe]
    exact ⟨List.mem_cons_self .., rfl⟩
  · have hz : (b.left - 1 == 0) = false := by simpa using (by omega : b.left - 1 ≠ 0)
    rw [hc2, chunkDone]
    dsimp only
    rw [hz, hcas, hframe]
    exact ⟨rfl, rfl⟩

/-- Settles O42, from what REDUCE opens and from the handlers of the reduction's messages. -/
theorem reductionsTravelTheTree : Obligations.ReductionsTravelTheTree := by
  unfold Obligations.ReductionsTravelTheTree
  refine ⟨fun q n s j hquiet ht hs => ⟨fun b hb => ?_, fun src dst hok => ?_⟩, fun m s hm => ?_, fun m s hr => ?_⟩
  · rw [exec_reduce, reduceRow, startRow_error _ _ _ _ j b _ _ ht.1 ht.2 hs hb]
  · intro word tag
    have hrow : exec (.reduce q n) s = .next (runReduce (s.served j) j (src, dst)) := by
      rw [exec_reduce, reduceRow, startRow_ok _ _ _ _ j (src, dst) _ _ ht.1 ht.2 hs hok]
    have hj : (s.served j).job j.q j.n = some j := by rw [served_job]; exact job_taken ht
    have hwaits : bucketWaits (s.served j) word = bucketWaits s word := by
      rw [served_eq]
      rfl
    refine ⟨fun hw => ?_, fun hw hat hsrc => ?_⟩
    · rw [hrow, runReduce_eq, if_pos (by rw [hwaits]; exact hw)]
    · intro s0
      have hrun := runReduce_opens (dst := dst) (by rw [served_mon]; exact hquiet.1) hj (hwaits.trans hw) hat hsrc
      obtain ⟨x, y, z, hframe⟩ := openBucket_eq (s.served j) j word
      obtain ⟨hq, hn⟩ := job_names _ _ _ _ ht.1
      have hj0 : s0.job q.toNat n.toNat = some j := by
        rw [show s0 = openBucket (s.served j) j word from rfl, hframe]
        exact (served_job ..).trans ht.1
      refine ⟨_, _, hrow.trans (congrArg Host.Outcome.next hrun), job_setJob _ _ _ j _ hj0 rfl hq hn, rfl, rfl, ?_, ?_, ?_, rfl, ?_, rfl⟩
      · change (s.served j).cas.attempt = _
        rw [served_eq]
      · simp [running, Job.run, reduceTiles, tab]
      · simp [running, Job.run, reduceTiles, tab]
      · refine (openBucket_buckets ..).trans ?_
        rw [served_eq]
        rfl
  · intro tag num c
    have hcon : Receives s 0x20 m → exec (.contrib m) s = .next (onContrib s m) := exec_received (by simp [messageRows])
    have hcre : Receives s 0x22 m → exec (.creditMsg m) s = .next (onCredit s m) := exec_received (by simp [messageRows])
    have hres : Receives s 0x21 m → exec (.resultMsg m) s = .next (onResult s m) := exec_received (by simp [messageRows])
    refine ⟨fun hr hch hst hn hmode => ⟨fun hdup => ?_, fun hnew => ?_⟩, fun hr hch hst hf => ?_, fun hr hrank hp => ?_,
      fun b hr hrank hp hb hmode => ⟨fun hgot => ?_, fun hgot => ?_⟩⟩
    · rw [hcon hr, onContrib_checks hm hch hst hn hmode, if_pos hdup]
    · intro x terms s1 all
      obtain ⟨htag, hnum⟩ := chunkOf_names s tag num
      have hchunk : chunkOf s1 tag num = { c with terms := terms } := by
        have hnames : chunkOf s1 tag num = chunkOf s1 c.tag c.num := by rw [htag, hnum]
        exact hnames.trans (chunkOf_putChunk s { c with terms := terms })
      have hterms : (chunkOf s1 tag num).terms = terms := by rw [hchunk]
      have hsent : (chunkOf s1 tag num).sent = c.sent := by rw [hchunk]
      refine ⟨?_, rfl, hterms, fun h => ?_, fun hb hall hrank => ?_⟩
      · rw [hcon hr, onContrib_checks hm hch hst hn hmode, if_neg (by simpa using hnew)]
        rfl
      · refine actChunk_rests ?_
        rw [hterms, hsent]
        exact h
      · exact actChunk_acts (s := s1) hb (by rw [hterms]; exact hall) hrank
    · obtain ⟨x, hx, h1, h2⟩ := sendNak_free (m := m) hf 1
      exact ⟨x, by rw [hcon hr, onContrib_noTag hm hch hst, hx], h1, h2⟩
    · intro s1
      exact ⟨by rw [hcre hr, onCredit_adds hm hrank hp], fun h => pumpUp_none (s := s1) h⟩
    · rw [hres hr, onResult_new hm hrank hp hb hmode, if_pos hgot]
    · intro s1 vals poison t
      have htag : b.tag = tag := by simpa using List.find?_some hb
      refine ⟨?_, fun j dst hc hj hdst hl hsp => ?_⟩
      · rw [hres hr, onResult_new hm hrank hp hb hmode, if_neg (by simpa using hgot)]
      · intro w bytes
        have hd := deliver_waits (s := s1) (s0 := s) (b := b) (num := num) (mfl := m.mflags.toNat) (vals := vals) (fl := msgFlags m)
          (poison := poison) htag ⟨_, rfl⟩ hc hj hdst hl hsp
        have hbytes : resultBytes b dst vals = bytes := by simp [resultBytes, bytes, w]
        unfold resultWr at hd
        rw [hbytes] at hd
        exact hd
  · intro ty tag key s1
    have hnak : exec (.nak m) s = .next (onNak s m) := exec_received (by simp [messageRows]) hr
    refine ⟨fun h0 h1 h2 => ?_, fun h => ?_, fun h => ?_, fun h hk => ?_, fun h hk hb => ?_, fun b h hk hb => ?_⟩
    · rw [hnak, onNak_other rfl h0 h1 h2]
    · rw [hnak, onNak_aper h (.inl rfl)]
      rfl
    · rw [hnak, onNak_aper h (.inr rfl)]
      rfl
    · rw [hnak, onNak_again h hk]
    · rw [hnak, onNak_contrib h hk, hb]
      rfl
    · rw [hnak, onNak_contrib h hk, hb]
      rfl

end Sys2Proof.Proofs
end

section
set_option Elab.async false
/-! TILE_COMMIT (03 R98-R100; 13 R423, R425). -/
namespace Sys2Proof.Proofs
open Sys2Proof Sys2Proof.Machine Sys2Proof.Laws Sys2Proof.Safety

variable {a s t : State} {j y : Job} {q n : Nat} {e : Flags}

/-! ### The one command whose writes wait -/

/-- `y` is the command that `q` and `n` name in `s`, and nothing else waits for a tag: it waits for writes to T1 below the apertures only.
The queues, the tables, the power state and, but for `e`, the flags are those of `a`. -/
structure Lone (a : State) (e : Flags) (q n : Nat) (y : Job) (s : State) : Prop where
  kept : s.qs = a.qs ∧ s.tbl = a.tbl ∧ s.pwr = a.pwr
  eng : s.flg.eng = e
  job : s.job q n = some y
  jobs : ∀ x ∈ s.jobs, x = y ∨ x.wq = [] ∧ x.ask.getD [] = []
  ask : y.ask.getD [] = []
  low : ∀ w ∈ y.wq, w.2.addr < 2 ^ 47
  falls : ∀ f ∈ s.pg.falls, f.todo = []
  rises : ∀ r ∈ s.pg.rises, r.todo = []

theorem Lone.of_nothingWaits (h : NothingWaits s) (hj : s.job q n = some j) : Lone s s.flg.eng q n j s := by
  obtain ⟨hjobs, hfalls, hrises⟩ := (nothingWaits_iff s).1 h
  obtain ⟨hw, ha⟩ := hjobs j (job_mem hj).1
  exact ⟨⟨rfl, rfl, rfl⟩, rfl, hj, fun x hx => .inr (hjobs x hx), ha, by simp [hw], hfalls, hrises⟩

/-- What leaves the commands and the moves, the queues, the tables, the power state and the flags. -/
theorem Lone.of_frame (h : Lone a e q n y s) (hk : t.qs = s.qs ∧ t.tbl = s.tbl ∧ t.pwr = s.pwr := by exact ⟨rfl, rfl, rfl⟩)
    (he : t.flg.eng = s.flg.eng := by rfl) (hj : t.jobs = s.jobs := by rfl) (hp : t.pg = s.pg := by rfl) : Lone a e q n y t := by
  obtain ⟨⟨hq, ht, hw⟩, heng, hjob, hjobs, hask, hlow, hfalls, hrises⟩ := h
  obtain ⟨kq, kt, kw⟩ := hk
  exact ⟨⟨kq.trans hq, kt.trans ht, kw.trans hw⟩, he.trans heng, by rwa [State.job, hj], by rwa [hj], hask, hlow, by rwa [hp], by rwa [hp]⟩

theorem lone_ite {c : Prop} [Decidable c] (hs : Lone a e q n y s) (ht : Lone a e q n y t) : Lone a e q n y (if c then s else t) := by
  split
  · exact hs
  · exact ht

/-- The command changes, its names and what it asks for standing. -/
theorem Lone.setJob {k : Job} (h : Lone a e q n y s) (hl : ∀ w ∈ k.wq, w.2.addr < 2 ^ 47) (ht : k.take = y.take := by rfl)
    (hq : k.q = y.q := by rfl) (hn : k.n = y.n := by rfl) (ha : k.ask = y.ask := by rfl) : Lone a e q n k (s.setJob k) := by
  obtain ⟨hkept, heng, hjob, hjobs, hask, hlow, hfalls, hrises⟩ := h
  obtain ⟨hyq, hyn⟩ := job_names _ _ _ _ hjob
  refine ⟨hkept, heng, job_setJob _ q n y k hjob ht (hq.trans hyq) (hn.trans hyn), fun x hx => ?_, by rwa [ha], hl, hfalls, hrises⟩
  obtain ⟨z, hz, rfl⟩ := List.mem_map.1 hx
  split
  · exact .inl rfl
  · next hne =>
    obtain rfl | hz := hjobs z hz
    · exact absurd (beq_iff_eq.2 ht.symm) hne
    · exact .inr hz

/-! ### The writes that wait take their tags -/

theorem sendTag_lone (key : Nat) (h : Lone a e q n y s) : Lone a e q n y (sendTag s key) := by
  unfold sendTag
  split
  · exact h
  · refine lone_ite h ?_
    dsimp only
    split
    · exact lone_ite h h.of_frame
    · exact lone_ite h h.of_frame
    · unfold sendMsg
      exact lone_ite h.of_frame h.of_frame

theorem takeTag_lone {core : Nat} {g : Tag} (h : Lone a e q n y s) (e' : takeTag s core g = some t) : Lone a e q n y t := by
  unfold takeTag at e'
  split at e'
  · cases e'
  · cases e'
    exact sendTag_lone (s := { s with str := _ }) _ h.of_frame

theorem bit_47_of_lt {x : Nat} (h : x < 2 ^ 47) : bit x 47 = false := by
  rw [bit_eq_testBit, Nat.testBit_lt_two_pow h]

theorem reach_low {x : Nat} (h : x < 2 ^ 47) (len : Nat) : reach s x len = .here x := by
  simp [reach, bit_47_of_lt h]

theorem issueOne_lone (h : Lone a e q n y s) (e' : issueOne s y = some t) : ∃ l, Lone a e q n { y with wq := l } t := by
  unfold issueOne at e'
  split at e'
  · cases e'
  · next core w rest hwq =>
    have hlow := h.low
    rw [hwq] at hlow
    rw [reach_low (hlow _ (List.mem_cons_self ..))] at e'
    exact ⟨rest, takeTag_lone (h.setJob (k := { y with wq := rest }) fun w' hw' => hlow w' (List.mem_cons_of_mem _ hw')) e'⟩

theorem issueWrites_lone (k : Nat) (h : Lone a e q n y s) : ∃ l, Lone a e q n { y with wq := l } (issueWrites k s q n) := by
  induction k generalizing s y with
  | zero => exact ⟨y.wq, h⟩
  | succ k ih =>
    rw [issueWrites, h.job]
    dsimp only
    split
    · exact ⟨y.wq, h⟩
    · next t ht =>
      obtain ⟨l, hl⟩ := issueOne_lone h ht
      obtain ⟨l', hl'⟩ := ih hl
      exact ⟨l', hl'⟩

theorem issueReads_lone (h : Lone a e q n y s) : issueReads s q n = s := by
  rw [issueReads, withJob_of_job h.job]
  have hask := h.ask
  split
  · next p ps hp =>
    rw [hp] at hask
    cases hask
  · rfl

theorem mem_insertBy {α : Type} {lt : α → α → Bool} {x z : α} {l : List α} : z ∈ insertBy lt x l ↔ z = x ∨ z ∈ l := by
  induction l with
  | nil => rw [insertBy, List.mem_singleton]; simp
  | cons w l ih =>
    rw [insertBy]
    split
    · rw [List.mem_cons]
    · rw [List.mem_cons, ih, List.mem_cons, or_left_comm]

theorem mem_sortBy {α : Type} {lt : α → α → Bool} {z : α} {l : List α} : z ∈ sortBy lt l ↔ z ∈ l := by
  have hfold : ∀ acc : List α, z ∈ l.foldl (fun acc x => insertBy lt x acc) acc ↔ z ∈ l ∨ z ∈ acc := by
    induction l with
    | nil => simp
    | cons w l ih =>
      intro acc
      rw [List.foldl_cons, ih, mem_insertBy, List.mem_cons, or_assoc, or_left_comm]
  rw [sortBy, hfold]
  simp

/-- The writes that wait are the one command's, and it changes by the writes that it still waits for. -/
theorem pumpWrites_lone (h : Lone a e q n y s) : ∃ l, Lone a e q n { y with wq := l } (pumpWrites s) := by
  obtain ⟨hyq, hyn⟩ := job_names _ _ _ _ h.job
  have hall : ∀ w ∈ sortBy (fun (x y : List Nat × Waiter) => lexLt x.1 y.1) (waiters s), ∃ i, w.2 = .job q n i := by
    intro w hw
    rw [mem_sortBy] at hw
    simp only [waiters, List.mem_append, List.mem_map, List.mem_filter, List.mem_flatMap] at hw
    obtain (⟨x, ⟨hx, hwait⟩, rfl⟩ | ⟨f, hf, hw⟩) | ⟨r, hr, hw⟩ := hw
    · obtain rfl | ⟨hw, ha⟩ := h.jobs x hx
      · exact ⟨_, by rw [hyq, hyn]⟩
      · simp [hw, ha] at hwait
    · rw [h.falls f hf] at hw
      simp at hw
    · rw [h.rises r hr] at hw
      simp at hw
  unfold pumpWrites
  generalize sortBy _ (waiters s) = l at hall
  induction l generalizing s y with
  | nil => exact ⟨y.wq, h⟩
  | cons w l ih =>
    obtain ⟨i, hi⟩ := hall w (List.mem_cons_self ..)
    obtain ⟨l1, h1⟩ := issueWrites_lone i h
    rw [List.foldl_cons, hi]
    dsimp only
    rw [issueJob, issueReads_lone h1]
    obtain ⟨l2, h2⟩ := ih h1 hyq hyn fun x hx => hall x (List.mem_cons_of_mem _ hx)
    exact ⟨l2, h2⟩

/-! ### A tile's writes -/

theorem mem_cut256 {k x len : Nat} {p : Nat × Nat} (h : p ∈ cut256 k x len) : p.1 < x + len := by
  induction k generalizing x len with
  | zero => cases h
  | succ k ih =>
    rw [cut256] at h
    split at h
    · cases h
    · next hlen =>
      have hpos : len ≠ 0 := by simpa using hlen
      obtain rfl | h := List.mem_cons.1 h
      · change x < _
        omega
      · have := ih h
        omega

/-- Outside a step command a write in T1 below the apertures is cut into transfers there. -/
theorem mem_cutWr {core : Nat} {w : Wr} (h : w.addr + w.data.length ≤ 2 ^ 47) : ∀ p ∈ cutWr s false core w, p.2.addr < 2 ^ 47 := by
  intro p hp
  simp only [cutWr, Bool.false_eq_true, if_false, List.mem_map] at hp
  obtain ⟨x, hx, rfl⟩ := hp
  exact Nat.lt_of_lt_of_le (mem_cut256 hx) h

/-- The runs of a tile's output in stores and in T1 below the apertures. -/
def PlainRuns (l : List Wr) : Prop := ∀ w ∈ l, (∃ c, w.place = .store c) ∨ (w.place = .t1 ∧ w.addr + w.data.length ≤ 2 ^ 47)

theorem writeRun_lone {core kv : Nat} {w : Wr} (h : Lone a e q n y s) (hs : y.stepCmd = false)
    (hw : (∃ c, w.place = .store c) ∨ (w.place = .t1 ∧ w.addr + w.data.length ≤ 2 ^ 47)) :
    ∃ t l, writeRun false q n core kv s w = some t ∧ Lone a e q n { y with wq := l } t := by
  unfold writeRun
  obtain ⟨c, hc⟩ | ⟨hp, hlen⟩ := hw
  · rw [hc]
    exact ⟨_, y.wq, rfl, h.of_frame⟩
  · rw [hp]
    refine ⟨_, y.wq ++ cutWr s y.stepCmd core w, rfl, ?_⟩
    rw [withJob_of_job h.job]
    exact h.setJob (k := { y with wq := y.wq ++ cutWr s y.stepCmd core w }) fun w' hw' =>
      (List.mem_append.1 hw').elim (h.low w') fun hw' => mem_cutWr hlen w' (hs ▸ hw')

theorem writeRuns_lone {core kv : Nat} {l : List Wr} (h : Lone a e q n y s) (hs : y.stepCmd = false) (hl : PlainRuns l) :
    ∃ t wq, writeRuns false q n core kv s l = some t ∧ Lone a e q n { y with wq := wq } t := by
  unfold writeRuns
  induction l generalizing s y with
  | nil => exact ⟨s, y.wq, rfl, h⟩
  | cons w l ih =>
    obtain ⟨s1, wq1, h1, hlone⟩ := writeRun_lone (core := core) (kv := kv) h hs (hl w (List.mem_cons_self ..))
    rw [List.foldl_cons, Option.bind_some, h1]
    obtain ⟨s2, wq2, h2, hlone2⟩ := ih hlone hs fun x hx => hl x (List.mem_cons_of_mem _ hx)
    exact ⟨s2, wq2, h2, hlone2⟩

theorem wrPages_plain {l : List Wr} (hl : PlainRuns l) : wrPages l = [] := by
  unfold wrPages
  rw [List.flatMap_eq_nil_iff.2 fun w hw => ?_, List.eraseDups_nil]
  obtain ⟨c, hc⟩ | ⟨hp, -⟩ := hl w hw
  · rw [hc]
  · rw [hp]

/-! ### What follows the writes -/

theorem report_lone (cmd core : Nat) (r : Rep) (h : Lone a e q n y s) : Lone a (e ||| r.fl) q n y (report s cmd core r) := by
  have he : (report s cmd core r).flg.eng = e ||| r.fl := by rw [report_eng, h.eng]
  rw [report_eq] at he ⊢
  obtain ⟨hkept, -, hjob, hjobs, hask, hlow, hfalls, hrises⟩ := h
  exact ⟨hkept, he, hjob, hjobs, hask, hlow, hfalls, hrises⟩

theorem count_lone (core slot d : Nat) (h : Lone a e q n y s) : Lone a e q n y (count s core slot d) := by
  rw [count_eq]
  exact h.of_frame

theorem bubbles_lone (core k : Nat) (h : Lone a e q n y s) : Lone a e q n y (bubbles s core k) := by
  unfold bubbles
  exact lone_ite h h.of_frame

theorem putSeq_lone (sid : Nat) (x : Slot) (h : Lone a e q n y s) : Lone a e q n y (putSeq s sid x) := by
  unfold putSeq
  split
  · exact h.of_frame
  · exact h.of_frame

theorem seqPoison_lone (k : Job) (u : Tile) (last : Bool) (h : Lone a e q n y s) : Lone a e q n y (seqPoison s k u last) := by
  unfold seqPoison
  split
  · split
    · exact h
    · exact lone_ite (putSeq_lone _ _ h) (lone_ite (putSeq_lone _ _ h) h)
  · exact h

theorem contribute_nil (s : State) (b : Bucket) : contribute s b [] = s := by
  unfold contribute
  rw [List.map_nil, List.map_nil, List.append_nil, List.eraseDups_nil]
  rfl

theorem endRows_other (hj : s.job q n = some y) (h : y.op ≠ 0x0A) : endRows s q n = s := by
  rw [endRows, withJob_of_job hj, if_pos (by simpa using h)]

theorem viol_lone (cmd cause detail aux : Nat) (h : Lone a e q n y s) : Lone a e q n y (viol s cmd cause detail aux) := by
  rw [viol_eq]
  exact h.of_frame

/-- The fields of a command that its end leaves. -/
def Ended (y z : Job) : Prop := z.tiles = y.tiles ∧ z.finished = y.finished ∧ z.fl = y.fl ∧ z.poison = y.poison ∧ z.idx = y.idx

theorem settle_lone (h : Lone a e q n y s) : ∃ z, Lone a e q n z (settle s q n) ∧ Ended y z := by
  rw [settle, withJob_of_job h.job]
  split
  · next hdone =>
    have htiles : y.tiles = [] := by
      simp only [Bool.and_eq_true, List.isEmpty_iff] at hdone
      exact hdone.1.1.2
    split
    · have hmark : (y.mark 4).fl = y.fl ∧ (y.mark 4).wq = y.wq ∧ (y.mark 4).take = y.take ∧ (y.mark 4).q = y.q ∧ (y.mark 4).n = y.n ∧
          (y.mark 4).ask = y.ask ∧ (y.mark 4).finished = y.finished ∧ (y.mark 4).poison = y.poison ∧ (y.mark 4).idx = y.idx := by
        unfold Job.mark
        split <;> exact ⟨rfl, rfl, rfl, rfl, rfl, rfl, rfl, rfl, rfl⟩
      obtain ⟨mfl, mwq, mtake, mq, mn, mask, mfin, mpoison, midx⟩ := hmark
      refine ⟨({ (y.mark 4) with vlogged := true } : Job).end, ?_, htiles.symm, mfin, mfl, mpoison, midx⟩
      have hlow : ∀ w ∈ ({ (y.mark 4) with vlogged := true } : Job).end.wq, w.2.addr < 2 ^ 47 := fun w hw => h.low w (mwq ▸ hw)
      unfold malform
      dsimp only
      split
      · exact h.setJob hlow mtake mq mn mask
      · exact (viol_lone _ _ _ _ h).setJob hlow mtake mq mn mask
    · exact ⟨y.end, h.setJob h.low, htiles.symm, rfl, rfl, rfl, rfl⟩
  · exact ⟨y, h, rfl, rfl, rfl, rfl, rfl⟩

/-! ### The commit -/

/-- A command with its front tile committed and the writes `wq` still to go out. -/
def tileDone (j : Job) (u : Tile) (rest : List Tile) : Job :=
  ({ j with poison := sat32 j.poison u.poison, result := j.result + u.result, tiles := rest, finished := j.finished + 1, dry := false } :
    Job).commitUnit u.num u.index u.rep.fl

/-- What follows the writes of a tile up to the contributions. -/
def tileNoted (s : State) (j : Job) (u : Tile) (rest : List Tile) : State :=
  let s := report s j.loc u.core u.rep
  let s := bubbles (count (count s u.core 12 u.floor) u.core 13 u.masked) u.core u.bubble
  s.withJob j.q j.n fun s j =>
    let j := { j with
      poison := sat32 j.poison u.poison
      result := j.result + u.result
      tiles := rest
      finished := j.finished + 1
      dry := false }
    seqPoison (s.setJob (j.commitUnit u.num u.index u.rep.fl)) j u (j.finished == j.total)

/-- A tile's contributions are made, and the command ends with its last. -/
def tileContributes (s : State) (j : Job) (u : Tile) : State :=
  let s := match s.cas.buckets.find? fun b => b.q == j.q && b.n == j.n with
    | none => s
    | some b => contribute s b u.contrib
  pumpWrites (settle (endRows s j.q j.n) j.q j.n)

theorem commitTile_eq (s : State) (j : Job) (u : Tile) (rest : List Tile) : commitTile s j u rest =
    if slotsFull s u then s
    else
      let a := touchAll s u.core (some (j.q, j.n)) (wrPages u.wr)
      if !a.1 then a.2
      else match takePages a.2 ((a.2.job j.q j.n).getD j) fun s => (writeRuns false j.q j.n u.core plainKv s u.wr).map fun s => (s, ()) with
      | (none, s) => s
      | (some _, s) => tileContributes (tileNoted s j u rest) j u := rfl

theorem takePages_at_once {α : Type} {act : State → Option (State × α)} {r : State × α} (hh : j.hold = ([], [])) (h : act s = some r) :
    takePages s j act = (some r, r.1) := by
  unfold takePages
  rw [hh]
  simp [h]

theorem commitTile_plain {u : Tile} {rest : List Tile} (hj : s.job j.q j.n = some j) (hc : u.contrib = []) (hh : j.hold = ([], []))
    (hl : PlainRuns u.wr) (h : writeRuns false j.q j.n u.core plainKv s u.wr = some t) :
    commitTile s j u rest = tileContributes (tileNoted t j u rest) j u := by
  have hfull : slotsFull s u = false := by simp [slotsFull, hc]
  rw [commitTile_eq, hfull, wrPages_plain hl]
  have htake : takePages s ((s.job j.q j.n).getD j) (fun s => (writeRuns false j.q j.n u.core plainKv s u.wr).map fun s => (s, ())) =
      (some (t, ()), t) := takePages_at_once (by rw [hj]; exact hh) (by rw [h]; rfl)
  simp only [touchAll, List.foldl_nil, Bool.not_true, Bool.false_eq_true, if_false, htake]

theorem tileNoted_lone {u : Tile} {rest : List Tile} (h : Lone a e y.q y.n y s) (hq : j.q = y.q) (hn : j.n = y.n) :
    Lone a (e ||| u.rep.fl) y.q y.n (tileDone y u rest) (tileNoted s j u rest) := by
  have h1 := bubbles_lone u.core u.bubble (count_lone u.core 13 u.masked (count_lone u.core 12 u.floor (report_lone j.loc u.core u.rep h)))
  unfold tileNoted
  dsimp only
  rw [hq, hn, withJob_of_job h1.job]
  exact seqPoison_lone _ _ _ (h1.setJob (k := tileDone y u rest) h.low)

theorem tileContributes_lone {u : Tile} (h : Lone a e j.q j.n y s) (hop : y.op ≠ 0x0A) (hc : u.contrib = []) :
    ∃ z, Lone a e j.q j.n z (tileContributes s j u) ∧ Ended y z := by
  have hs : (match s.cas.buckets.find? fun b => b.q == j.q && b.n == j.n with
    | none => s
    | some b => contribute s b u.contrib) = s := by
    split
    · rfl
    · rw [hc, contribute_nil]
  unfold tileContributes
  dsimp only
  rw [hs, endRows_other h.job hop]
  obtain ⟨z, hz, h1, h2, h3, h4, h5⟩ := settle_lone h
  obtain ⟨l, hl⟩ := pumpWrites_lone hz
  exact ⟨_, hl, h1, h2, h3, h4, h5⟩

/-! ### The row -/

theorem exec_tileCommit (q : BitVec 6) (n : BitVec 16) (s : State) : exec (.tileCommit q n) s = .next (tileCommit q n s) := rfl

theorem tileCommit_running {q : BitVec 6} {n : BitVec 16} {u : Tile} {rest : List Tile} (hj : s.job q.toNat n.toNat = some j) (hop : j.op ≠ 0x0A)
    (hp : j.phase = .running) (ht : j.tiles = u :: rest) : tileCommit q n s = finishTile s j u rest := by
  rw [tileCommit, withJob_of_job hj, if_neg (by simpa using hop), withJob_of_job hj, ht]
  simp [hp]

theorem tileCommit_nil {q : BitVec 6} {n : BitVec 16} (hj : s.job q.toNat n.toNat = some j) (hop : j.op ≠ 0x0A) (ht : j.tiles = []) :
    tileCommit q n s = s := by
  rw [tileCommit, withJob_of_job hj, if_neg (by simpa using hop), withJob_of_job hj, ht]

/-- Settles O46: the front tile commits when no item of it is left, an item of it runs where a core takes it next, and else nothing happens. -/
theorem tilesCommitInOrder : Obligations.TilesCommitInOrder := by
  unfold Obligations.TilesCommitInOrder
  intro q n s j hj hop hp
  obtain ⟨hq, hn⟩ := job_names _ _ _ _ hj
  refine ⟨fun ht => by rw [exec_tileCommit, tileCommit_nil hj hop ht], fun u rest ht => ⟨fun hi hc hstep hw hh hl => ?_,
    fun c it hi hstop hnext hland => ?_, fun hi hall => ?_⟩⟩
  · have hj' : s.job j.q j.n = some j := by rwa [hq, hn]
    obtain ⟨t, wq, ht1, hlone⟩ := writeRuns_lone (core := u.core) (kv := plainKv) (.of_nothingWaits hw hj') hstep hl
    obtain ⟨z, hz, h1, h2, h3, h4, h5⟩ := tileContributes_lone (u := u) (tileNoted_lone (j := j) (y := { j with wq := wq }) (u := u) (rest := rest) hlone rfl rfl) hop hc
    obtain ⟨hqs, htbl, hpwr⟩ := hz.kept
    refine ⟨_, z, ?_, by rw [← hq, ← hn]; exact hz.job, h1, h2, h3, h4, h5, hz.eng, hqs, htbl, hpwr⟩
    rw [exec_tileCommit, tileCommit_running hj hop hp ht, finishTile, hi]
    exact congrArg Host.Outcome.next (commitTile_plain hj' hc hh hl ht1)
  · intro own j1 s1
    have hrun : runItem s j u [(c, it)] = some (s1, j1) := by
      simp [runItem, hstop, hnext, hland, s1, j1, own]
    have htiles : j1.tiles = own u :: rest.map own := by simp [j1, ht]
    rw [exec_tileCommit, tileCommit_running hj hop hp ht, finishTile, hi]
    simp [hrun, htiles]
  · have hrun : runItem s j u (tileItems s j u) = none := by
      rw [runItem, List.find?_eq_none.2, Option.map_none]
      intro p hp
      obtain h | h | h := hall p hp
      · simp [h]
      · simp [h]
      · simp [h]
    rw [exec_tileCommit, tileCommit_running hj hop hp ht, finishTile]
    split
    · next h => exact absurd h hi
    · rw [hrun]

end Sys2Proof.Proofs
end

section
set_option Elab.async false
/-! COMPLETION_RECORD and DEADLINE_MISS (13 R422, R423, R430-R433). -/
namespace Sys2Proof.Proofs
open Sys2Proof Sys2Proof.Machine Sys2Proof.Laws Sys2Proof.Safety

variable {a s t : State} {j y : Job} {q n : Nat}

/-! ### The record -/

theorem length_leBytes (k x : Nat) : (leBytes k x).length = k := by
  induction k generalizing x with
  | zero => rfl
  | succ k ih => rw [leBytes, List.length_cons, ih]

theorem recordBytes_length (s : State) (k : Queue) (j : Job) : (recordBytes s k j).length = 32 := by
  simp [recordBytes, length_leBytes]

/-- The record of a command whose deadlines have been looked at stands in the ring and the command is gone. -/
def recordMade (s : State) (j : Job) : State :=
  let s := moveOn (writeOutcomes s j) j
  let k := s.queue j.q
  let s := s.wr (k.cpl + 32 * (k.cplTail % 2 ^ k.log2)) (recordBytes s k j)
  let s := s.setQueue j.q { k with cplTail := (k.cplTail + 1) % 65536 }
  settleClaims { s with jobs := s.jobs.filter fun x => x.take != j.take } j.loc

/-- What a record tells the host and the trace. -/
def recordTold (s : State) (j : Job) : State :=
  let s := if bit j.hflags 2 then pulse s 0x06 else s
  let s := trace s 0x03 0 0xFF j.q j.n j.op (j.status + j.fl.toNat <<< 8 + (fld (j.idx.getD 0xFFFFFFFFFFFF) 32 16) <<< 16)
  match breakpoint s j.q j.n 1 with
  | none => s
  | some i => hitBreak s i j.q j.n

theorem completionRecord_eq (q : BitVec 6) (n : BitVec 16) (s : State) : completionRecord q n s =
    s.withJob q.toNat n.toNat fun s j =>
      if !recordReady s j || !s.awake then s
      else
        let s := checkMiss (dropHold s j.q j.n) j.q j.n
        let j := (s.job j.q j.n).getD j
        recordTold (recordMade s j) j := rfl

theorem exec_completionRecord (q : BitVec 6) (n : BitVec 16) (s : State) :
    exec (.completionRecord q n) s = .next (fetchAhead (completionRecord q n s) q.toNat) := rfl

theorem missMembers_nil (hj : s.job q n = some j) (hm : j.members = []) : missMembers s q n = s := by
  rw [missMembers, withJob_of_job hj, hm]
  rfl

/-- A command without members that is up to its deadline, or has none, and is not running, is left by the look at its deadlines. -/
theorem checkMiss_in_time (hj : s.job q n = some j) (hm : j.members = []) (hp : j.phase ≠ .running)
    (hd : j.deadline = 0 ∨ s.life.lt ≤ j.deadline) : checkMiss s q n = s := by
  have hlate : (j.deadline != 0 && decide (j.deadline < s.life.lt)) = false := by
    obtain hd | hd := hd
    · simp [hd]
    · simp only [Bool.and_eq_false_iff, decide_eq_false_iff_not]
      exact .inr (by omega)
  rw [checkMiss, withJob_of_job hj]
  dsimp only
  rw [hlate]
  simp only [Bool.false_and, Bool.false_eq_true, if_false]
  rw [missMembers_nil hj hm, settle, withJob_of_job hj, if_neg (by simp [hp])]

theorem dropHold_none (hj : s.job q n = some j) (hh : j.hold = ([], [])) : dropHold s q n = s.setJob j := by
  have hsame : ({ j with hold := ([], []) } : Job) = j := by rw [← hh]
  rw [dropHold, withJob_of_job hj, hh]
  dsimp only [List.foldl_nil]
  rw [withJob_of_job hj, hsame]

theorem writeOutcomes_nil (s : State) (hm : j.members = []) : writeOutcomes s j = s := by
  simp [writeOutcomes, hm]

theorem moveOn_nil (s : State) (hm : j.members = []) : moveOn s j = s := by
  simp [moveOn, hm]

/-- Without traces and breakpoints a record pulses at most. -/
theorem recordTold_quiet (h : s.mon.trOn = false) (hb : s.mon.bp = []) : ∃ e, recordTold s j = { s with evt := e } := by
  have hpulse : ∃ e, (if bit j.hflags 2 then pulse s 0x06 else s) = { s with evt := e } := by
    split
    · exact ⟨_, rfl⟩
    · exact ⟨s.evt, rfl⟩
  obtain ⟨e, he⟩ := hpulse
  have hbp : breakpoint { s with evt := e } j.q j.n 1 = none := by
    simp [breakpoint, hb, Tab.get, Tab.find, bit]
  refine ⟨e, ?_⟩
  unfold recordTold
  dsimp only
  rw [he, trace_off { s with evt := e } _ _ _ _ _ _ _ h, hbp]

theorem filter_setJob (s : State) (j : Job) : ((s.setJob j).jobs.filter fun x => x.take != j.take) = s.jobs.filter fun x => x.take != j.take := by
  rw [State.setJob]
  dsimp only
  induction s.jobs with
  | nil => rfl
  | cons x l ih => by_cases hx : x.take = j.take <;> simpa [hx] using ih

/-- The record of a finished command that stands as it did. -/
theorem recordMade_eq (s : State) (hm : j.members = []) (hq : j.q = q) : ∃ flg : FlagRegs, flg.eng = s.flg.eng ∧ recordMade (s.setJob j) j =
    { s with
      t1 := s.t1.put ((s.queue q).cpl + 32 * ((s.queue q).cplTail % 2 ^ (s.queue q).log2)) (recordBytes s (s.queue q) j)
      qs := s.qs.put q { s.queue q with cplTail := ((s.queue q).cplTail + 1) % 65536 }
      jobs := s.jobs.filter fun x => x.take != j.take
      flg := flg } := by
  subst hq
  refine ⟨(settleClaims s j.loc).flg, rfl, ?_⟩
  rw [← filter_setJob, recordMade, writeOutcomes_nil _ hm, moveOn_nil _ hm]
  rfl

/-- Without members, held pages, deadline, traces and breakpoints a finished command leaves its record and is gone. -/
theorem completionRecord_made {q : BitVec 6} {n : BitVec 16} (hj : s.job q.toNat n.toNat = some j) (hr : recordReady s j = true)
    (hawake : Awake s) (hoff : s.mon.trOn = false) (hbp : s.mon.bp = []) (hm : j.members = []) (hd : j.deadline = 0) (hh : j.hold = ([], [])) :
    ∃ (flg : FlagRegs) (e : EvtRegs), flg.eng = s.flg.eng ∧ completionRecord q n s =
      { s with
        t1 := s.t1.put ((s.queue q.toNat).cpl + 32 * ((s.queue q.toNat).cplTail % 2 ^ (s.queue q.toNat).log2)) (recordBytes s (s.queue q.toNat) j)
        qs := s.qs.put q.toNat { s.queue q.toNat with cplTail := ((s.queue q.toNat).cplTail + 1) % 65536 }
        jobs := s.jobs.filter fun x => x.take != j.take
        flg := flg
        evt := e } := by
  obtain ⟨hq, hn⟩ := job_names _ _ _ _ hj
  have hjob : (s.setJob j).job j.q j.n = some j := by
    rw [hq, hn]
    exact job_setJob _ _ _ j j hj rfl hq hn
  have hphase : j.phase ≠ .running := by
    simp only [recordReady, Bool.and_eq_true, beq_iff_eq] at hr
    rw [hr.1.1.1]
    decide
  obtain ⟨flg, hflg, hmade⟩ := recordMade_eq s hm hq
  have htold : ∃ e, recordTold (recordMade (s.setJob j) j) j = { recordMade (s.setJob j) j with evt := e } :=
    recordTold_quiet (by rw [hmade]; exact hoff) (by rw [hmade]; exact hbp)
  obtain ⟨e, he⟩ := htold
  refine ⟨flg, e, hflg, ?_⟩
  rw [completionRecord_eq, withJob_of_job hj, hr, awake_of_awake hawake]
  simp only [Bool.not_true, Bool.or_self, Bool.false_eq_true, if_false]
  rw [dropHold_none (by rwa [hq, hn]) hh, checkMiss_in_time hjob hm hphase (.inl hd), hjob, Option.getD_some, he, hmade]

/-! ### No fault is counted where transfers are issued -/

/-- `s` has counted the faults that `a` has. -/
def SameFaults (a s : State) : Prop := s.flt.count = a.flt.count

theorem sameFaults_ite {c : Prop} [Decidable c] (hs : SameFaults a s) (ht : SameFaults a t) : SameFaults a (if c then s else t) := by
  split
  · exact hs
  · exact ht

theorem sameFaults_foldl {β : Type} {f : State → β → State} (l : List β) (hf : ∀ s x, SameFaults a s → SameFaults a (f s x))
    (h : SameFaults a s) : SameFaults a (l.foldl f s) := by
  induction l generalizing s with
  | nil => exact h
  | cons x l ih => exact ih (hf s x h)

theorem withJob_sameFaults {f : State → Job → State} (h : SameFaults a s) (hf : ∀ j, SameFaults a (f s j)) : SameFaults a (s.withJob q n f) := by
  unfold State.withJob
  split
  · exact h
  · exact hf _

theorem viol_sameFaults (cmd cause detail aux : Nat) (h : SameFaults a s) : SameFaults a (viol s cmd cause detail aux) := by
  rw [SameFaults, viol_flt]
  exact h

theorem count_sameFaults (core slot d : Nat) (h : SameFaults a s) : SameFaults a (count s core slot d) := by
  rw [count_eq]
  exact h

theorem sendMsg_sameFaults (dry : Nat) (m : Msg) (h : SameFaults a s) : SameFaults a (sendMsg s dry m) := by
  unfold sendMsg
  exact sameFaults_ite h h

theorem sendTag_sameFaults (key : Nat) (h : SameFaults a s) : SameFaults a (sendTag s key) := by
  unfold sendTag
  split
  · exact h
  · refine sameFaults_ite h ?_
    dsimp only
    split
    · exact sameFaults_ite h h
    · exact sameFaults_ite h h
    · exact sendMsg_sameFaults _ _ h

theorem takeTag_sameFaults {core : Nat} {g : Tag} (h : SameFaults a s) (e : takeTag s core g = some t) : SameFaults a t := by
  unfold takeTag at e
  split at e
  · cases e
  · cases e
    exact sendTag_sameFaults (s := { s with str := _ }) _ h

theorem loseWrite_sameFaults (core tag : Nat) (g : Tag) (h : SameFaults a s) : SameFaults a (loseWrite s core tag g) := by
  rw [loseWrite_eq]
  have hcount : SameFaults a (countLost (viol s (lostBy s g) 0x0B core tag) g) := by
    unfold countLost
    split
    · exact withJob_sameFaults (viol_sameFaults _ _ _ _ h) fun j => viol_sameFaults _ _ _ _ h
    · exact viol_sameFaults _ _ _ _ h
  unfold openBytes
  split
  · cases g.chan <;> exact hcount
  · exact hcount

theorem issueOne_sameFaults (h : SameFaults a s) (e : issueOne s j = some t) : SameFaults a t := by
  unfold issueOne at e
  dsimp only at e
  split at e
  · cases e
  · split at e
    · exact takeTag_sameFaults (s := s.setJob _) h e
    · exact takeTag_sameFaults (s := s.setJob _) h e
    · cases e
      exact loseWrite_sameFaults (s := s.setJob _) _ _ _ h

theorem issueWrites_sameFaults (k q n : Nat) (h : SameFaults a s) : SameFaults a (issueWrites k s q n) := by
  induction k generalizing s with
  | zero => exact h
  | succ k ih =>
    unfold issueWrites
    split
    · exact h
    · split
      · exact h
      · next e => exact ih (issueOne_sameFaults h e)

theorem landUnit_sameFaults (core : Nat) (g : Tag) (u : Nat × Bool × List Byte) (h : SameFaults a s) : SameFaults a (landUnit core g s u) := by
  have hcount : SameFaults a (if u.2.1 then count s core 11 1 else s) := sameFaults_ite (count_sameFaults _ _ _ h) h
  unfold landUnit
  dsimp only
  split
  · exact withJob_sameFaults hcount fun j => hcount
  · exact hcount
  · exact count_sameFaults _ _ _ h
  · exact h

theorem askPieces_sameFaults (j : Job) (l : List Piece) (h : SameFaults a s) : SameFaults a (askPieces s j l).1 := by
  induction l generalizing s with
  | nil => exact h
  | cons p ps ih =>
    unfold askPieces
    dsimp only
    split
    · split
      · exact h
      · next e => exact ih (takeTag_sameFaults h e)
    · split
      · exact h
      · next e => exact ih (takeTag_sameFaults h e)
    · exact ih (sameFaults_foldl _ (fun _ _ h => landUnit_sameFaults _ _ _ h) h)

theorem issueReads_sameFaults (q n : Nat) (h : SameFaults a s) : SameFaults a (issueReads s q n) := by
  unfold issueReads
  refine withJob_sameFaults h fun j => ?_
  split
  · exact withJob_sameFaults (askPieces_sameFaults _ _ h) fun j => askPieces_sameFaults _ _ h
  · exact h

theorem issueTags_sameFaults (core : Nat) (l : List Tag) (h : SameFaults a s) : SameFaults a (issueTags core l s).2 := by
  induction l generalizing s with
  | nil => exact h
  | cons g l ih =>
    unfold issueTags
    split
    · exact h
    · next e => exact ih (takeTag_sameFaults h e)

theorem pumpWrites_sameFaults (h : SameFaults a s) : SameFaults a (pumpWrites s) := by
  unfold pumpWrites
  refine sameFaults_foldl _ (fun s w h => ?_) h
  split
  · exact issueReads_sameFaults _ _ (issueWrites_sameFaults _ _ _ h)
  · unfold issueFall
    split
    · exact h
    · exact issueTags_sameFaults _ _ h
  · unfold issueRise
    split
    · exact h
    · exact issueTags_sameFaults _ _ h

/-! ### A missed command ends -/

/-- `q` and `n` name a command that has missed its deadline and has no other status, and no fault is counted beyond those of `a`. -/
def Doomed (a : State) (q n : Nat) (s : State) : Prop :=
  SameFaults a s ∧ ∃ y, Sole s q n y ∧ y.missed = true ∧ y.status = 0

theorem Doomed.frame (h : Doomed a q n s) (hj : t.jobs = s.jobs := by rfl) (hf : t.flt = s.flt := by rfl) : Doomed a q n t := by
  obtain ⟨hfaults, y, ⟨hjob, hsole⟩, hy⟩ := h
  refine ⟨?_, y, ⟨by rwa [State.job, hj], by rwa [hj]⟩, hy⟩
  rw [SameFaults, hf]
  exact hfaults

theorem doomed_ite {c : Prop} [Decidable c] (hs : Doomed a q n s) (ht : Doomed a q n t) : Doomed a q n (if c then s else t) := by
  split
  · exact hs
  · exact ht

theorem doomed_foldl {β : Type} {f : State → β → State} (l : List β) (hf : ∀ s x, Doomed a q n s → Doomed a q n (f s x))
    (h : Doomed a q n s) : Doomed a q n (l.foldl f s) := by
  induction l generalizing s with
  | nil => exact h
  | cons x l ih => exact ih (hf s x h)

/-- The command changes in what neither names it nor says how it ends. -/
theorem Doomed.change {f : Job → Job} (h : Doomed a q n s) (hf : ∀ y, (f y).take = y.take ∧ (f y).q = y.q ∧ (f y).n = y.n)
    (hm : ∀ y, (f y).missed = y.missed ∧ (f y).status = y.status) : Doomed a q n (s.withJob q n fun s y => s.setJob (f y)) := by
  obtain ⟨hfaults, y, ⟨hjob, -⟩, hmiss, hst⟩ := h
  obtain ⟨ht, hq, hn⟩ := hf y
  obtain ⟨hm1, hm2⟩ := hm y
  rw [withJob_of_job hjob]
  exact ⟨hfaults, f y, sole_setJob hjob ht hq hn, hm1.trans hmiss, hm2.trans hst⟩

theorem Doomed.pump (h : Doomed a q n s) : Doomed a q n (pumpWrites s) := by
  obtain ⟨hfaults, y, hsole, hmiss, hst⟩ := h
  obtain ⟨k, hk, hlike⟩ := (pumpWrites_stirs (.refl s)).job q n y hsole
  exact ⟨pumpWrites_sameFaults hfaults, k, hk, by rw [hlike]; exact hmiss, by rw [hlike]; exact hst⟩

theorem sinkUnits_doomed (mine : Nat → Bool) (hq : j.q = q) (hn : j.n = n) (h : Doomed a q n s) : Doomed a q n (sinkUnits s j mine) := by
  subst hq hn
  rw [sinkUnits_eq]
  have hcount := doomed_foldl (j.fetched.filter fun f => mine f.unit) (f := fun s f => count s f.core 10 f.data.length)
    (fun s f h => by rw [count_eq]; exact h.frame) h
  have hask := hcount.change (f := fun y => { y with ask := y.ask.map fun a => a.filter fun p => !mine p.unit })
    (fun _ => ⟨rfl, rfl, rfl⟩) fun _ => ⟨rfl, rfl⟩
  have hsink : Doomed a j.q j.n (sinkTags _ (readsOf j mine)) := hask.frame.pump
  exact hsink.change (fun _ => ⟨rfl, rfl, rfl⟩) fun _ => ⟨rfl, rfl⟩

theorem setSlotState_doomed (i : Nat) (x : Slot) (st : Nat) (h : Doomed a q n s) : Doomed a q n (setSlotState s i x st) := by
  rw [setSlotState_eq]
  exact h.frame

theorem dropFork_doomed (j : Job) (h : Doomed a q n s) : Doomed a q n (dropFork s j) := by
  unfold dropFork
  split
  · split
    · exact doomed_ite (setSlotState_doomed _ _ _ h) h
    · exact h
  · exact h

theorem dropReload_doomed (j : Job) (h : Doomed a q n s) : Doomed a q n (dropReload s j) := by
  unfold dropReload
  exact doomed_ite h.frame h

theorem withdraw_doomed (q' n' b : Nat) (h : Doomed a q n s) : Doomed a q n (withdraw s q' n' b) := by
  unfold withdraw
  split
  · exact h
  · exact doomed_ite h.frame h

theorem dropBucket_doomed (j : Job) (h : Doomed a q n s) : Doomed a q n (dropBucket s j) := by
  unfold dropBucket
  split
  · exact h
  · refine doomed_ite (doomed_ite h.frame ?_) h.frame
    unfold sendMsg
    exact doomed_ite h.frame h.frame

theorem forget_keeps (j : Job) (x k : Nat) : j.forget x k = { j with fetched := (j.forget x k).fetched } := by
  unfold Job.forget
  split <;> rfl

theorem Doomed.forget (h : Doomed a q n s) (x k : Nat) : Doomed a q n { s with jobs := s.jobs.map fun j => j.forget x k } := by
  obtain ⟨hfaults, y, ⟨hjob, hsole⟩, hmiss, hst⟩ := h
  refine ⟨hfaults, y.forget x k, ⟨?_, fun z hz hzt => ?_⟩, ?_, ?_⟩
  · have hname : ((fun j : Job => j.q == q && j.n == n) ∘ fun j : Job => j.forget x k) = fun j : Job => j.q == q && j.n == n := by
      funext j
      rw [Function.comp_apply, forget_keeps]
    rw [State.job, List.find?_map, hname]
    exact congrArg (Option.map _) hjob
  · obtain ⟨w, hw, rfl⟩ := List.mem_map.1 hz
    rw [forget_keeps, forget_keeps y] at hzt
    rw [hsole w hw hzt]
  · rw [forget_keeps]
    exact hmiss
  · rw [forget_keeps]
    exact hst

theorem pushFrame_doomed (f : Nat) (h : Doomed a q n s) : Doomed a q n (pushFrame s f) := by
  have hforget := h.forget (s.pg.frameBase + 65536 * f) 65536
  unfold pushFrame
  dsimp only
  split
  · exact hforget.frame
  · exact hforget.frame

theorem dropHold_doomed (h : Doomed a q n s) : Doomed a q n (dropHold s q n) := by
  have hjob := h
  obtain ⟨-, y, ⟨hjob, -⟩, -⟩ := hjob
  rw [dropHold, withJob_of_job hjob]
  have hpush : Doomed a q n (y.hold.2.foldl pushDesc (y.hold.1.foldl pushFrame s)) :=
    doomed_foldl _ (fun _ _ h => h.frame) (doomed_foldl _ (fun _ _ h => pushFrame_doomed _ h) h)
  exact hpush.change (fun _ => ⟨rfl, rfl, rfl⟩) fun _ => ⟨rfl, rfl⟩

/-- The end of a command that has missed its deadline. -/
theorem endJob_doomed (hj : s.job q n = some j) (hp : j.phase ≠ .done) (hm : j.members = []) (h : Doomed a q n s) :
    SameFaults a (endJob s q n 2) ∧
      ∃ y, (endJob s q n 2).job q n = some y ∧ y.missed = true ∧ y.status = 2 ∧ y.phase = .done := by
  obtain ⟨hq, hn⟩ := job_names _ _ _ _ hj
  rw [endJob, withJob_of_job hj, if_neg (by simpa using hp), hm]
  have h1 : Doomed a q n (sinkFetches (dropItems s q n) j) := sinkUnits_doomed _ hq hn h.frame
  have h2 := dropFork_doomed j (dropReload_doomed j h1)
  have h3 := doomed_ite (c := (j.op == 0x31) = true) (withdraw_doomed q n (fld (j.body 0) 0 6) h2) h2
  obtain ⟨hfaults, y, ⟨hy, -⟩, hmiss, hst⟩ := dropHold_doomed (dropBucket_doomed j h3)
  have hmark : y.mark 2 = { y with status := 2 } := by
    unfold Job.mark
    rw [hst]
    rfl
  dsimp only [List.length_nil, List.range_zero, List.foldl_nil]
  rw [withJob_of_job hy, hmark]
  obtain ⟨hyq, hyn⟩ := job_names _ _ _ _ hy
  exact ⟨hfaults, _, job_setJob _ _ _ y _ hy rfl hyq hyn, hmiss, rfl, rfl⟩

/-! ### The rows -/

/-- The command `j` with its deadline missed. -/
def missed (j : Job) : Job := { j with missed := true }

theorem missFault_first (hj : s.job j.q j.n = some j) (h : j.missed = false) (code : Nat) (inj : Bool) (aux : Nat) :
    missFault s j code inj aux = (fault s 1 code 0xFF inj j.loc (stallCause s j) aux).setJob (missed j) := by
  have hjob : (fault s 1 code 0xFF inj j.loc (stallCause s j) aux).job j.q j.n = some j := by
    rw [fault_eq]
    exact hj
  unfold missFault
  rw [h, if_neg Bool.false_ne_true]
  exact withJob_of_job hjob _

/-- What the fault record of a missed deadline says of the command's members. -/
def lateAux (j : Job) : Nat :=
  if j.op == 0x09 then (match j.members.findIdx? fun m => m.phase != .ended with | some i => i | none => 0) else 0xFFFFFFFF

/-- A command that runs on past its deadline. -/
def lateJob (j : Job) : Job :=
  { (j.mark 1) with members := j.members.map fun m => if m.phase == .ended then m else { m with missed := true } }

/-- What a missed deadline does to a command whose fault is recorded. -/
def lateEnds (s : State) (q n : Nat) (abort : Bool) : State :=
  if abort then endJob s q n 2 else s.withJob q n fun s j => s.setJob (lateJob j)

theorem missJob_eq (s : State) (q n : Nat) (inj : Bool) : missJob s q n inj = s.withJob q n fun s j =>
    lateEnds (missFault s j (if j.abort && !j.noDl then 2 else 1) inj (lateAux j)) q n (j.abort && !j.noDl) := rfl

theorem lateJob_first (h : j.status = 0) : (lateJob j).status = 1 ∧ (lateJob j).missed = j.missed ∧ (lateJob j).phase = j.phase ∧
    (lateJob j).take = j.take ∧ (lateJob j).q = j.q ∧ (lateJob j).n = j.n := by
  have hmark : j.mark 1 = { j with status := 1 } := by
    unfold Job.mark
    rw [h]
    rfl
  rw [lateJob, hmark]
  exact ⟨rfl, rfl, rfl, rfl, rfl, rfl⟩

/-- Past its deadline a command without members is recorded as missed, and then marked or ended. -/
theorem checkMiss_late (hj : s.job q n = some j) (hd : j.deadline ≠ 0) (hlate : j.deadline < s.life.lt) (h : j.missed = false) :
    ∃ code, checkMiss s q n =
      lateEnds ((fault s 1 code 0xFF false j.loc (stallCause s j) (lateAux j)).setJob (missed j)) q n (j.abort && !j.noDl) := by
  obtain ⟨hq, hn⟩ := job_names _ _ _ _ hj
  have hj' : s.job j.q j.n = some j := by rwa [hq, hn]
  refine ⟨if j.abort && !j.noDl then 2 else 1, ?_⟩
  rw [checkMiss, withJob_of_job hj]
  dsimp only
  rw [if_pos (by simp [hd, hlate, h]), missJob_eq, withJob_of_job hj, missFault_first hj' h]

theorem flt_at (s : State) (lt : Dword) : (At s lt).flt = s.flt := by
  rw [At, advance_eq]

theorem mon_at (s : State) (lt : Dword) : (At s lt).mon = s.mon := by
  rw [At, advance_eq]

theorem t1_at (s : State) (lt : Dword) : (At s lt).t1 = s.t1 := by
  rw [At, advance_eq]

theorem deadline_noDl (h : j.deadline ≠ 0) : j.noDl = false := by
  unfold Job.deadline at h
  split at h
  · exact absurd rfl h
  · next hn => exact Bool.eq_false_iff.2 hn

theorem exec_deadlineMiss (q : BitVec 6) (n : BitVec 16) (lt : Dword) (s : State) :
    exec (.deadlineMiss q n lt) s = .next (checkMiss (At s lt) q.toNat n.toNat) := rfl

/-- Settles O47, from what a record leaves and from the end of a command that has missed its deadline. -/
theorem completionsAndMissesAreRecorded : Obligations.CompletionsAndMissesAreRecorded := by
  unfold Obligations.CompletionsAndMissesAreRecorded
  refine ⟨fun q n s j hj => ⟨fun hr => ?_, fun hr hawake hquiet hm hd hh => ?_⟩, fun q n lt s j hj hm hp hst hoff => ?_⟩
  · have hrow : completionRecord q n s = s := by rw [completionRecord_eq, withJob_of_job hj, hr]; rfl
    rw [exec_completionRecord, hrow]
  · intro k a
    obtain ⟨hoff, hbp, -⟩ := hquiet
    obtain ⟨flg, e, hflg, hrow⟩ := completionRecord_made hj hr hawake hoff hbp hm hd hh
    refine ⟨_, (exec_completionRecord q n s).trans (congrArg (fun t => Host.Outcome.next (fetchAhead t q.toNat)) hrow), rfl,
      recordBytes_length .., fun x hx => ?_, ?_, fun p hp => ?_, rfl, hflg, rfl⟩
    · refine (get_write ..).trans (if_neg ?_)
      rw [recordBytes_length]
      change ¬(a ≤ x ∧ x < a + 32)
      omega
    · exact get_put_self ..
    · exact get_put_ne _ _ _ _ _ hp
  · intro s0
    have hj0 : s0.job q.toNat n.toNat = some j := by
      rw [State.job, jobs_at]
      exact hj
    refine ⟨fun hd => ?_, fun hd hlate hnew => ?_⟩
    · rw [exec_deadlineMiss, checkMiss_in_time hj0 hm (by rw [hp]; decide) hd]
    · obtain ⟨code, hrow⟩ := checkMiss_late hj0 hd hlate hnew
      have hnoDl := deadline_noDl hd
      generalize hs1 : fault s0 1 code 0xFF false j.loc (stallCause s0 j) (lateAux j) = s1 at hrow
      have hcount : s1.flt.count.get 1 0 = add64 (s.flt.count.get 1 0) 1 := by
        rw [← hs1, (fault_counts ..).1]
        refine (get_put_self ..).trans ?_
        rw [flt_at]
      have ht1 : s1.t1 = s.t1 := by
        rw [← hs1, (fault_traceOff s0 _ _ _ _ _ _ _ (by rw [mon_at]; exact hoff)).1, t1_at]
      have hj1 : s1.job q.toNat n.toNat = some j := by
        rw [← hs1, fault_eq]
        exact hj0
      obtain ⟨hq, hn⟩ := job_names _ _ _ _ hj1
      have hj2 : (s1.setJob (missed j)).job q.toNat n.toNat = some (missed j) := job_setJob _ _ _ j _ hj1 rfl hq hn
      rw [exec_deadlineMiss, hrow]
      cases habort : j.abort with
      | false =>
        obtain ⟨h1, h2, h3, h4, h5, h6⟩ := lateJob_first (j := missed j) hst
        refine ⟨(s1.setJob (missed j)).setJob (lateJob (missed j)), lateJob (missed j), ?_, ?_, h2, hcount, fun _ => ⟨h1, h3.trans hp, ht1⟩,
          fun h => by cases h⟩
        · exact congrArg Host.Outcome.next (withJob_of_job hj2 fun s j => s.setJob (lateJob j))
        · exact job_setJob _ _ _ _ _ hj2 h4 (h5.trans hq) (h6.trans hn)
      | true =>
        rw [hnoDl]
        have hdoom : Doomed (s1.setJob (missed j)) q.toNat n.toNat (s1.setJob (missed j)) :=
          ⟨rfl, missed j, sole_setJob hj1 rfl rfl rfl, rfl, hst⟩
        obtain ⟨hfaults, y, hy, hmiss, hst2, hdone⟩ := endJob_doomed hj2 (by rw [missed, hp]; decide) hm hdoom
        exact ⟨endJob (s1.setJob (missed j)) q.toNat n.toNat 2, y, rfl, hy, hmiss, (congrArg (Tab.get · 1 0) hfaults).trans hcount,
          (fun h => by cases h), fun _ => ⟨hst2, hdone⟩⟩

end Sys2Proof.Proofs
end

section
set_option Elab.async false
/-! The setpoint handshake (15 R493, R514). -/
namespace Sys2Proof.Proofs
open Sys2Proof Sys2Proof.Machine Sys2Proof.Laws Sys2Proof.Safety

variable {s : State}

/-- Passing time changes nothing of the power state but its residencies, and nothing of the always-on state but LT. -/
theorem pwr_at (s : State) (lt : Dword) : (At s lt).pwr = { s.pwr with resAcc := (At s lt).pwr.resAcc } := by
  unfold At advance
  split <;> rfl

theorem life_at (s : State) (lt : Dword) : (At s lt).life = { s.life with lt := (At s lt).life.lt } := by
  unfold At advance
  split <;> rfl

/-- The rows of the handshake, once the pin reaches the engine. -/
theorem vackRise_reaches (h : PinsReach s) : vackRise s = ackRise { s with pwr := { s.pwr with vackPin := true } } := by
  obtain ⟨hrun, htap⟩ := h
  unfold vackRise State.running
  dsimp only
  rw [hrun, htap]
  rfl

theorem vackFall_reaches (h : PinsReach s) : vackFall s = ackFall { s with pwr := { s.pwr with vackPin := false } } := by
  obtain ⟨hrun, htap⟩ := h
  unfold vackFall State.running
  dsimp only
  rw [hrun, htap]
  rfl

/-- `s` with the setpoint that it drives taken as in force. -/
def acked (s : State) : State :=
  { s with pwr := { s.pwr with
      rails := s.pwr.rails.put s.pwr.vsel s.pwr.vset
      op := s.pwr.asking.getD s.pwr.op
      asking := none
      vreq := false
      vack := true
      ackInj := false
      late := false
      hsLt := s.life.lt } }

theorem ackRise_eq (s : State) : ackRise s =
    if s.pwr.vack then s
    else if !s.pwr.vreq then portViol s 7 0x09 (railWord s)
    else
      let d := fireInj s 7 fun _ => true
      if d.1 then { d.2 with pwr := { d.2.pwr with ackInj := true } } else tracePower (acked (lateAck s)) := rfl

theorem ackRise_taken (ha : s.pwr.vack = false) (hr : s.pwr.vreq = true) (hinj : s.mon.inj = []) (hoff : s.mon.trOn = false)
    (hm : s.pwr.move = none) : ackRise s = acked s := by
  have hlate : lateAck s = s := by
    rw [lateAck, hm]
  rw [ackRise_eq, ha, hr, fireInj_none hinj, hlate]
  exact trace_off (acked s) _ _ _ _ _ _ _ hoff

theorem ackRise_stray (ha : s.pwr.vack = false) (hr : s.pwr.vreq = false) : ackRise s = portViol s 7 0x09 (railWord s) := by
  rw [ackRise_eq, ha, hr]
  rfl

/-- A port violation counts no fault and changes nothing of the power state. -/
theorem portViol_counts (s : State) (port code aux : Nat) :
    (portViol s port code aux).flt.count = s.flt.count ∧ (portViol s port code aux).pwr = s.pwr := by
  unfold portViol
  dsimp only
  split
  · exact ⟨rfl, rfl⟩
  · refine ⟨?_, ?_⟩
    · rw [viol_flt]
      rfl
    · rw [viol_eq]

/-- The state of a handshake that overruns. -/
def overrun (s : State) : State :=
  let s := portViol s 7 0x08 (railWord s)
  let s := fault s 4 1 0xFF s.pwr.ackInj 0 (railWord s) (if s.pwr.vreq then 2 else 4)
  { s with pwr := { s.pwr with late := true } }

theorem vackLate_eq (lt : Dword) (s : State) : vackLate lt s =
    if (At s lt).running && ((At s lt).pwr.vreq || (At s lt).pwr.vack) && !(At s lt).pwr.late &&
      decide ((At s lt).pwr.hsLt + 100000 ≤ (At s lt).life.lt) then overrun (At s lt) else At s lt := rfl

theorem overrun_faults (s : State) : (overrun s).pwr = { s.pwr with late := true } ∧
    (overrun s).flt.count.get 4 0 = add64 (s.flt.count.get 4 0) 1 := by
  obtain ⟨hcount, hpwr⟩ := portViol_counts s 7 0x08 (railWord s)
  unfold overrun
  dsimp only
  refine ⟨?_, ?_⟩
  · rw [fault_eq]
    dsimp only
    rw [hpwr]
  · rw [(fault_counts ..).1]
    refine (get_put_self ..).trans ?_
    rw [hcount]

/-- Settles O49, row by row. -/
theorem setpointsShakeHands : Obligations.SetpointsShakeHands := by
  unfold Obligations.SetpointsShakeHands
  intro s hpins
  have hrun : s.running = true := by simp [State.running, hpins.1]
  refine ⟨fun h => ?_, fun sel code rest hr ha hw => ?_, fun ha hr hinj hoff hm => ?_, fun ha hr => ?_, fun ha => ?_, fun lt hphase hlate hlt => ?_,
    fun lt hlt => ?_⟩
  · have hrow : setpointChange s = s := if_pos (by obtain h | h := h <;> simp [h])
    exact congrArg Host.Outcome.next hrow
  · have hrow : setpointChange s = driveRail { s with pwr := { s.pwr with want := rest } } sel code none := by
      rw [setpointChange, hrun, hr, ha, hw]
      rfl
    exact congrArg Host.Outcome.next hrow
  · exact congrArg Host.Outcome.next ((vackRise_reaches hpins).trans (ackRise_taken ha hr hinj hoff hm))
  · exact congrArg Host.Outcome.next ((vackRise_reaches hpins).trans (ackRise_stray ha hr))
  · refine congrArg Host.Outcome.next ((vackFall_reaches hpins).trans ?_)
    rw [ackFall, if_pos ha]
  · obtain ⟨hpwr, hcount⟩ := overrun_faults (At s lt)
    refine ⟨overrun (At s lt), ?_, by rw [hpwr], ?_, ?_, ?_⟩
    · refine congrArg Host.Outcome.next ((vackLate_eq lt s).trans (if_pos ?_))
      have hlow : (At s lt).life.rstLow = false := by
        rw [life_at]
        exact hpins.1
      have hhs : (At s lt).pwr.hsLt = s.pwr.hsLt := by rw [pwr_at]
      rw [State.running, hlow, hhs, pwr_at]
      dsimp only
      rw [hlate]
      obtain h | h := hphase <;> simp [h, hlt]
    · rw [hpwr, pwr_at]
    · rw [hpwr, pwr_at]
    · rw [hcount, flt_at]
  · have hrow : vackLate lt s = At s lt := by
      refine (vackLate_eq lt s).trans (if_neg ?_)
      have hhs : (At s lt).pwr.hsLt = s.pwr.hsLt := by rw [pwr_at]
      rw [hhs, decide_eq_false (by omega), Bool.and_false]
      decide
    exact congrArg Host.Outcome.next hrow

end Sys2Proof.Proofs
end

section
set_option Elab.async false
/-! Thermal limit, telemetry, slow clusters, scrubbing and calibration (16 R526, R527, R536, R537, R539). -/
namespace Sys2Proof.Proofs
open Sys2Proof Sys2Proof.Machine Sys2Proof.Laws Sys2Proof.Safety

variable {s : State}

theorem retarget_pwr (s : State) : ∃ i, retarget s = { s with pwr := { s.pwr with opTarget := i } } := by
  unfold retarget
  split
  · exact ⟨_, rfl⟩
  · exact ⟨s.pwr.opTarget, rfl⟩

theorem running_at (h : s.life.rstLow = false) (lt : Dword) : (At s lt).running = true := by
  rw [State.running, life_at]
  simp [h]

theorem t0_at (s : State) (lt : Dword) : (At s lt).t0 = s.t0 := by
  rw [At, advance_eq]

theorem hottest_at (s : State) (lt : Dword) : hottest (At s lt) = hottest s := by
  unfold hottest
  rw [pwr_at]

/-! ### The thermal limit -/

/-- `s` with the thermal limit lowered at its LT. -/
def steppedDown (s : State) : State := { s with pwr := { s.pwr with thermalLimit := s.pwr.thermalLimit - 1, lastStep := some s.life.lt } }

/-- The last step of the thermal limit was long enough ago. -/
def stepDue (s : State) : Bool := match s.pwr.lastStep with | none => true | some t => decide (t + 1000000 ≤ s.life.lt)

theorem thermalStepdown_eq (lt : Dword) (s : State) : thermalStepdown lt s =
    if (At s lt).running && (At s lt).pwr.stepdown && decide ((8 * (At s lt).pwr.tempHi : Nat) ≤ (hottest (At s lt)).2) && stepDue (At s lt) &&
      (At s lt).pwr.thermalLimit != 0 then retarget (steppedDown (At s lt)) else At s lt := rfl

/-- `s` with the thermal limit raised at its LT. -/
def steppedUp (s : State) : State := { s with pwr := { s.pwr with thermalLimit := s.pwr.thermalLimit + 1, loSince := some s.life.lt } }

theorem thermalStepup_some {a : Nat} {lt : Dword} (h : (At s lt).pwr.loSince = some a) : thermalStepup lt s =
    if (At s lt).running && decide (a + 1000000 ≤ (At s lt).life.lt) && decide ((At s lt).pwr.thermalLimit < 2) then
      retarget (steppedUp (At s lt))
    else At s lt := by
  change (match (At s lt).pwr.loSince with
    | none => At s lt
    | some t =>
      if (At s lt).running && decide (t + 1000000 ≤ (At s lt).life.lt) && decide ((At s lt).pwr.thermalLimit < 2) then
        retarget (steppedUp (At s lt))
      else At s lt) = _
  rw [h]

/-! ### Telemetry -/

/-- `s` with the readings of the sensors and the energy since the last ones. -/
def measured (s : State) (temps : List (BitVec 16)) (power : BitVec 16) : State :=
  let e := s.pwr.energyRem + power.toNat * (s.life.lt - s.pwr.telLt)
  let s := { s with pwr := { s.pwr with
    temp := readings temps
    est := power.toNat
    energy := add64 s.pwr.energy (e / 100000)
    energyRem := e % 100000
    res := s.pwr.resAcc.map fun (p : Nat × Nat) => (p.1, p.2 % 2 ^ 64)
    telLt := s.life.lt } }
  { s with pwr := { s.pwr with
    loSince := if (hottest s).2 ≤ (8 * s.pwr.tempLo : Nat) then some (s.pwr.loSince.getD s.life.lt) else none } }

theorem telemetryUpdate_eq (lt : Dword) (temps : List (BitVec 16)) (power : BitVec 16) (s : State) : telemetryUpdate lt temps power s =
    if !(At s lt).running || decide ((At s lt).life.lt < (At s lt).pwr.telLt + 1000) then At s lt else measured (At s lt) temps power := rfl

/-- `s` with a window of beat rates. -/
def beaten (s : State) (rates : List (BitVec 16)) : State :=
  let slow := ((rates.take 16).filter fun r => decide (r.toNat < opRate s s.pwr.op)).length
  { s with pwr := { s.pwr with beat := readings rates, slow := add64 s.pwr.slow (1000 * slow) } }

theorem beatRateWindow_eq (lt : Dword) (rates : List (BitVec 16)) (s : State) : beatRateWindow lt rates s =
    if !(At s lt).running then At s lt else beaten (At s lt) rates := rfl

/-! ### Scrubbing -/

/-- The row of core `c` scrubbed in `s`, the words being looked at already. -/
def rowScrubbed (s : State) (c row : Nat) : State :=
  let last := row == 32767
  let s := s.setCore c { s.core c with scrubRow := (row + 1) % 32768, scrubLt := s.life.lt }
  if last && c == 0 then { s with pwr := { s.pwr with scrubPass := add64 s.pwr.scrubPass 1 } } else s

theorem scrub_eq (c : BitVec 8) (lt : Dword) (s : State) : scrub c lt s =
    let k := (At s lt).core c.toNat
    if !(At s lt).life.ready || (At s lt).pwr.scrubRate == 0 || decide (2 < (At s lt).pwr.state) ||
      decide ((At s lt).life.lt < k.scrubLt + (At s lt).pwr.scrubRate) then At s lt
    else rowScrubbed ((badWords (At s lt).t0 (c.toNat * 2 ^ 21 + 64 * k.scrubRow) 64).foldl (scrubWord c.toNat 1) (At s lt)) c.toNat k.scrubRow := rfl

theorem rowScrubbed_frame (s : State) (c row : Nat) : ((rowScrubbed s c row).core c).scrubRow = (row + 1) % 32768 ∧
    ((rowScrubbed s c row).core c).scrubLt = s.life.lt ∧ (rowScrubbed s c row).t0 = s.t0 ∧
    rowScrubbed s c row = { s with cores := (rowScrubbed s c row).cores, pwr := (rowScrubbed s c row).pwr } := by
  have hcore := core_setCore_self s c { s.core c with scrubRow := (row + 1) % 32768, scrubLt := s.life.lt }
  unfold rowScrubbed
  dsimp only
  split
  · exact ⟨congrArg Core.scrubRow hcore, congrArg Core.scrubLt hcore, rfl, rfl⟩
  · exact ⟨congrArg Core.scrubRow hcore, congrArg Core.scrubLt hcore, rfl, rfl⟩

/-- Settles O50, row by row. -/
theorem telemetryFollowsTheSensors : Obligations.TelemetryFollowsTheSensors := by
  unfold Obligations.TelemetryFollowsTheSensors
  intro s lt hrst s0
  have hrun : s0.running = true := running_at hrst lt
  have hhot : hottest s0 = hottest s := hottest_at s lt
  obtain ⟨r, hpwr⟩ : ∃ r, s0.pwr = { s.pwr with resAcc := r } := ⟨_, pwr_at s lt⟩
  have hlimit : s0.pwr.thermalLimit = s.pwr.thermalLimit := by rw [hpwr]
  have hlo : s0.pwr.loSince = s.pwr.loSince := by rw [hpwr]
  have hstep : s0.pwr.stepdown = s.pwr.stepdown := by rw [hpwr]
  have hhi : s0.pwr.tempHi = s.pwr.tempHi := by rw [hpwr]
  have htel : s0.pwr.telLt = s.pwr.telLt := by rw [hpwr]
  refine ⟨fun hon hhot' hlast hne => ?_, fun h => ?_, fun a ha hlow => ⟨fun hlt => ?_, fun hlt => ?_⟩, fun temps power hlt => ?_, fun rates => ?_, rfl,
    fun c hready hrate hst hdue hgood => ?_⟩
  · obtain ⟨i, hi⟩ := retarget_pwr (steppedDown s0)
    have hdue : stepDue s0 = true := by
      unfold stepDue
      split
      · rfl
      · next t ht => exact decide_eq_true (hlast t (by rw [← ht, hpwr]))
    have hrow : thermalStepdown lt s = retarget (steppedDown s0) := by
      refine (thermalStepdown_eq lt s).trans (if_pos ?_)
      change (s0.running && s0.pwr.stepdown && decide ((8 * s0.pwr.tempHi : Nat) ≤ (hottest s0).2) && stepDue s0 && s0.pwr.thermalLimit != 0) = true
      rw [hrun, hstep, hon, hhi, hhot, hdue, hlimit, decide_eq_true hhot']
      simpa using hne
    rw [hi] at hrow
    exact ⟨_, congrArg Host.Outcome.next hrow, congrArg (· - 1) hlimit, rfl, rfl⟩
  · refine congrArg Host.Outcome.next ((thermalStepdown_eq lt s).trans (if_neg ?_))
    change ¬(s0.running && s0.pwr.stepdown && decide ((8 * s0.pwr.tempHi : Nat) ≤ (hottest s0).2) && stepDue s0 && s0.pwr.thermalLimit != 0) = true
    rw [hstep, hhi, hhot]
    obtain h | h := h
    · simp [h]
    · rw [decide_eq_false (by omega)]
      simp
  · obtain ⟨i, hi⟩ := retarget_pwr (steppedUp s0)
    have hrow : thermalStepup lt s = retarget (steppedUp s0) := by
      refine (thermalStepup_some (hlo.trans ha)).trans (if_pos ?_)
      change (s0.running && decide (a + 1000000 ≤ s0.life.lt) && decide (s0.pwr.thermalLimit < 2)) = true
      rw [hrun, hlimit, decide_eq_true hlt, decide_eq_true hlow]
      rfl
    rw [hi] at hrow
    exact ⟨_, congrArg Host.Outcome.next hrow, congrArg (· + 1) hlimit, rfl, rfl⟩
  · refine congrArg Host.Outcome.next ((thermalStepup_some (hlo.trans ha)).trans (if_neg ?_))
    change ¬(s0.running && decide (a + 1000000 ≤ s0.life.lt) && decide (s0.pwr.thermalLimit < 2)) = true
    rw [decide_eq_false (by omega)]
    simp
  · have hrow : telemetryUpdate lt temps power s = measured s0 temps power := by
      refine (telemetryUpdate_eq lt temps power s).trans (if_neg ?_)
      change ¬(!s0.running || decide (s0.life.lt < s0.pwr.telLt + 1000)) = true
      rw [hrun, htel, decide_eq_false (by omega)]
      decide
    refine ⟨_, congrArg Host.Outcome.next hrow, rfl, rfl, rfl, ?_, rfl⟩
    change add64 s0.pwr.energy ((s0.pwr.energyRem + power.toNat * (s0.life.lt - s0.pwr.telLt)) / 100000) = _
    rw [hpwr]
  · have hrow : beatRateWindow lt rates s = beaten s0 rates := by
      refine (beatRateWindow_eq lt rates s).trans (if_neg ?_)
      change ¬(!s0.running) = true
      rw [hrun]
      decide
    refine ⟨_, congrArg Host.Outcome.next hrow, rfl, ?_, rfl⟩
    change add64 s0.pwr.slow (1000 * ((rates.take 16).filter fun r => decide (r.toNat < opRate s0 s0.pwr.op)).length) = _
    unfold opRate
    rw [hpwr]
  · have hrow : scrub c lt s = rowScrubbed s0 c.toNat (s.core c.toNat).scrubRow := by
      have hcore : s0.core c.toNat = s.core c.toNat := core_at s lt c.toNat
      have ht0 : s0.t0 = s.t0 := t0_at s lt
      have hlife : s0.life.ready = true := by rw [life_at]; exact hready
      have hcond : (!s0.life.ready || s0.pwr.scrubRate == 0 || decide (2 < s0.pwr.state) ||
          decide (s0.life.lt < (s.core c.toNat).scrubLt + s0.pwr.scrubRate)) = false := by
        rw [hlife, hpwr]
        simp [hrate, hst, hdue]
      refine (scrub_eq c lt s).trans ?_
      change (if !s0.life.ready || s0.pwr.scrubRate == 0 || decide (2 < s0.pwr.state) ||
          decide (s0.life.lt < (s0.core c.toNat).scrubLt + s0.pwr.scrubRate) then s0
        else rowScrubbed ((badWords s0.t0 (c.toNat * 2 ^ 21 + 64 * (s0.core c.toNat).scrubRow) 64).foldl (scrubWord c.toNat 1) s0) c.toNat
          (s0.core c.toNat).scrubRow) = _
      rw [hcore, ht0, hgood, hcond]
      rfl
    obtain ⟨h1, h2, h3, h4⟩ := rowScrubbed_frame s0 c.toNat (s.core c.toNat).scrubRow
    exact ⟨_, congrArg Host.Outcome.next hrow, h1, h2, h3.trans (t0_at s lt), h4⟩

end Sys2Proof.Proofs
end

section
set_option Elab.async false
/-! Power states (16 R528-R535). -/
namespace Sys2Proof.Proofs
open Sys2Proof Sys2Proof.Machine Sys2Proof.Laws Sys2Proof.Safety

variable {s : State}

/-- The next known event does not depend on local time. -/
theorem nextEvent_at (s : State) (lt : Dword) : nextEvent (At s lt) = nextEvent s := by
  unfold At advance
  split <;> rfl

/-! ### Choosing a state -/

theorem chooseRow_busy (hst : s.pwr.state = 0) (hq : isQuiescent s = false) : chooseRow s = s :=
  if_pos (by simp [hst, hq])

/-- An engine at rest stays where it is, or begins to enter the state chosen. -/
theorem chooseRow_rest (hr : s.life.ready = true) (hm : s.pwr.move = none) (hq : s.pwr.state ≠ 0 ∨ isQuiescent s = true) : chooseRow s =
    if max 1 s.pwr.state < chooseState s then enterState s (chooseState s)
    else if chooseState s == max 1 s.pwr.state then s
    else if chooseState s == 1 then startWake (shortWake s) 0
    else startWake s (chooseState s) :=
  if_neg (by obtain h | h := hq <;> simp [hr, hm, h])

theorem enterState_shallow {st : Nat} (h : st ≠ 4) : enterState s st = { s with pwr := { s.pwr with
    move := some ⟨false, st, s.life.lt⟩
    want := s.pwr.want ++ if st = 3 then [(1, 20)] else []
    stayAwake := false } } := by
  have h4 : (st == 4) = false := by simpa using h
  unfold enterState
  dsimp only
  rw [h4]
  by_cases h3 : st = 3
  · subst h3
    rfl
  · simp [h3]

/-! ### Timed wakes -/

theorem timedWake_event {lt : Dword} {e : Nat} (h : nextEvent s = some e) : timedWake lt s =
    if (At s lt).life.ready && decide (2 ≤ (At s lt).pwr.state) && decide (e ≤ (At s lt).life.lt + wakeTime (At s lt).pwr.state) then
      startWake (At s lt) 0
    else At s lt := by
  change (match nextEvent (At s lt) with
    | none => At s lt
    | some e =>
      if (At s lt).life.ready && decide (2 ≤ (At s lt).pwr.state) && decide (e ≤ (At s lt).life.lt + wakeTime (At s lt).pwr.state) then
        startWake (At s lt) 0
      else At s lt) = _
  rw [nextEvent_at, h]

theorem startWake_begins (hm : s.pwr.move = none) (hst : s.pwr.state ≠ 0) (st : Nat) : startWake s st = { s with pwr := { s.pwr with
    move := some ⟨true, st, s.life.lt + wakeTime s.pwr.state⟩
    want := s.pwr.want ++ wakeRails s s.pwr.state } } := by
  rw [startWake, hm]
  exact if_neg (by simpa using hst)

theorem wakeAtReached_eq (lt : Dword) (s : State) : wakeAtReached lt s =
    if (At s lt).running && (At s lt).pwr.wakeAt != 0 && decide ((At s lt).pwr.wakeAt ≤ (At s lt).life.lt) then
      { At s lt with pwr := { (At s lt).pwr with wakeAt := 0 } }
    else At s lt := rfl

/-! ### The end of a move -/

/-- `s` with the power state that the move `m` leads to. -/
def moved (s : State) (m : PowerMove) : State := { s with pwr := { s.pwr with state := m.dest, move := none } }

/-- The stores at the end of the move `m`. -/
def storesMoved (s : State) (m : PowerMove) : State :=
  let s := if m.wake then wakeStores s else s
  if !m.wake && 3 ≤ m.dest then { s with t0 := dropScratch s.t0 } else s

/-- The end of the move `m`. -/
def moveArrives (s : State) (m : PowerMove) : State :=
  let s := tracePower (moved (storesMoved s m) m)
  afterMove (if m.dest < 3 then flushFlips s else s)

theorem moveDone_some {lt : Dword} {m : PowerMove} (h : (At s lt).pwr.move = some m) : moveDone lt s =
    if decide ((At s lt).life.lt < m.done) || (At s lt).pwr.vreq || !(At s lt).pwr.want.isEmpty then At s lt else moveArrives (At s lt) m := by
  change (match (At s lt).pwr.move with
    | none => At s lt
    | some m =>
      if decide ((At s lt).life.lt < m.done) || (At s lt).pwr.vreq || !(At s lt).pwr.want.isEmpty then At s lt else moveArrives (At s lt) m) = _
  rw [h]

theorem tracePower_off (h : s.mon.trOn = false) : tracePower s = s := trace_off s _ _ _ _ _ _ _ h

theorem flushFlips_none (h : s.mon.inj = []) : flushFlips s = s := by
  have hmon : ({ s.mon with inj := [] } : Monitor) = s.mon := by rw [← h]
  unfold flushFlips
  rw [h]
  dsimp only [List.filter_nil, List.foldl_nil]
  rw [hmon]

/-- With nothing traced and no flip injected, the engine goes on from the new state. -/
theorem moveArrives_quiet {m : PowerMove} (hq : Quiet (storesMoved s m)) : moveArrives s m = afterMove (moved (storesMoved s m) m) := by
  obtain ⟨hoff, -, hinj⟩ := hq
  unfold moveArrives
  dsimp only
  rw [tracePower_off (s := moved (storesMoved s m) m) hoff, flushFlips_none (s := moved (storesMoved s m) m) hinj, ite_self]

/-- An entry loses the scratchpads from S3 on. -/
theorem moveArrives_entered {m : PowerMove} (hq : Quiet s) (hw : m.wake = false) (hd : m.dest = 2 ∨ m.dest = 3) (hstay : s.pwr.stayAwake = false) :
    moveArrives s m = { moved s m with t0 := if m.dest = 3 then dropScratch s.t0 else s.t0 } := by
  have hstores : storesMoved s m = { s with t0 := if m.dest = 3 then dropScratch s.t0 else s.t0 } := by
    unfold storesMoved
    rw [hw]
    obtain hd | hd := hd <;> simp [hd]
  have hdest : m.dest ≠ 0 := by omega
  rw [moveArrives_quiet (by rw [hstores]; exact hq), hstores, afterMove, if_neg (by simpa [moved] using hdest)]
  exact if_neg (by simp [moved, hstay])

theorem drainInbox_empty (h : s.cas.inbox = []) : drainInbox s = s := by
  have hcas : ({ s.cas with inbox := [] } : Cascade) = s.cas := by rw [← h]
  unfold drainInbox
  rw [h]
  dsimp only [List.map_nil, List.foldl_nil]
  rw [hcas]
  split <;> rfl

theorem answerHeld_none (h : s.pwr.heldAcc = []) : answerHeld s = s := by
  have hpwr : ({ s.pwr with heldAcc := [] } : Power) = s.pwr := by rw [← h]
  unfold answerHeld
  rw [h]
  dsimp only [List.foldl_nil]
  rw [hpwr]

/-- A wake from S2, with nothing held for it. -/
theorem moveArrives_woken {m : PowerMove} (hq : Quiet s) (hw : m.wake = true) (hd : m.dest = 0) (hst : s.pwr.state = 2) (hacc : s.pwr.heldAcc = [])
    (hin : s.cas.inbox = []) : ∃ i, moveArrives s m = { s with pwr := { s.pwr with state := 0, move := none, stayAwake := false, opTarget := i } } := by
  have hstores : storesMoved s m = s := by
    have hwake : wakeStores s = s := by
      rw [wakeStores, hst]
      rfl
    unfold storesMoved
    simp [hw, hwake]
  rw [moveArrives_quiet (by rw [hstores]; exact hq), hstores, afterMove, if_pos (by simp [moved, hd])]
  obtain ⟨i, hi⟩ := retarget_pwr { s with pwr := { s.pwr with state := m.dest, move := none, stayAwake := false } }
  refine ⟨i, ?_⟩
  unfold moved
  dsimp only
  generalize retarget _ = w at hi ⊢
  have hin' : w.cas.inbox = [] := by rw [hi]; exact hin
  have hacc' : w.pwr.heldAcc = [] := by rw [hi]; exact hacc
  rw [drainInbox_empty hin', answerHeld_none hacc', hi, hd]

/-- Settles O51, row by row. -/
theorem powerStatesFollowTheGap : Obligations.PowerStatesFollowTheGap := by
  unfold Obligations.PowerStatesFollowTheGap
  intro s
  refine ⟨fun _ _ hst hq => congrArg Host.Outcome.next (chooseRow_busy hst hq), fun hr hm hq => ⟨fun h => ?_, fun h h4 => ?_⟩,
    fun lt e hr hst he hm => ?_, fun lt hrst hne hlt => ?_, fun lt m hm => ?_⟩
  · refine congrArg Host.Outcome.next ((chooseRow_rest hr hm hq).trans ?_)
    rw [h, if_neg (Nat.lt_irrefl _), if_pos (beq_self_eq_true _)]
  · refine congrArg Host.Outcome.next ((chooseRow_rest hr hm hq).trans ?_)
    rw [if_pos h, enterState_shallow h4]
  · intro s0
    have hpwr := pwr_at s lt
    have hst0 : s0.pwr.state = s.pwr.state := by rw [hpwr]
    have hm0 : s0.pwr.move = none := by rw [hpwr]; exact hm
    have hr0 : s0.life.ready = true := by rw [life_at]; exact hr
    have hrow := timedWake_event (lt := lt) he
    change timedWake lt s = if s0.life.ready && decide (2 ≤ s0.pwr.state) && decide (e ≤ s0.life.lt + wakeTime s0.pwr.state) then
      startWake s0 0 else s0 at hrow
    rw [hr0, hst0, decide_eq_true hst] at hrow
    refine ⟨fun hlt => ?_, fun hlt => ?_⟩
    · rw [decide_eq_true hlt] at hrow
      refine ⟨_, congrArg Host.Outcome.next (hrow.trans (startWake_begins hm0 (by omega) 0)), ?_, rfl⟩
      rw [← hst0]
    · rw [decide_eq_false (by omega)] at hrow
      exact congrArg Host.Outcome.next hrow
  · have hwake : (At s lt).pwr.wakeAt = s.pwr.wakeAt := by rw [pwr_at]
    refine ⟨_, congrArg Host.Outcome.next ((wakeAtReached_eq lt s).trans (if_pos ?_)), rfl, rfl⟩
    rw [running_at hrst, hwake, decide_eq_true hlt]
    simpa using hne
  · intro s0
    have hpwr := pwr_at s lt
    have hm0 : s0.pwr.move = some m := by rw [hpwr]; exact hm
    have hvreq : s0.pwr.vreq = s.pwr.vreq := by rw [hpwr]
    have hwant : s0.pwr.want = s.pwr.want := by rw [hpwr]
    have hrow := moveDone_some (lt := lt) hm0
    change moveDone lt s = if decide (s0.life.lt < m.done) || s0.pwr.vreq || !s0.pwr.want.isEmpty then s0 else moveArrives s0 m at hrow
    rw [hvreq, hwant] at hrow
    refine ⟨fun h => ?_, fun hdone hv hw hq => ?_⟩
    · rw [if_pos (by obtain h | h | h := h <;> simp [h])] at hrow
      exact congrArg Host.Outcome.next hrow
    · rw [hv, hw, decide_eq_false (by omega)] at hrow
      have hq0 : Quiet s0 := by
        rw [Quiet, mon_at]
        exact hq
      refine ⟨fun hwake hd hstay => ?_, fun hwake hd hst hacc hin => ?_⟩
      · have harr := moveArrives_entered hq0 hwake hd (by rw [hpwr]; exact hstay)
        rw [t0_at] at harr
        exact congrArg Host.Outcome.next (hrow.trans harr)
      · have hin0 : s0.cas.inbox = [] := by
          rw [(at_link s lt).2.1]
          exact hin
        obtain ⟨i, hi⟩ := moveArrives_woken hq0 hwake hd (by rw [hpwr]; exact hst) (by rw [hpwr]; exact hacc) hin0
        exact ⟨_, congrArg Host.Outcome.next (hrow.trans hi), rfl, rfl, rfl, t0_at s lt, t1_at s lt, jobs_at s lt⟩

end Sys2Proof.Proofs
end

section
set_option Elab.async false
/-! The conditioned inputs and the reference clock (15 R495, R499-R503). -/
namespace Sys2Proof.Proofs
open Sys2Proof Sys2Proof.Machine Sys2Proof.Laws Sys2Proof.Safety

variable {s : State}

theorem pinsReach_at (h : PinsReach s) (lt : Dword) : PinsReach (At s lt) := by
  obtain ⟨hrst, htap⟩ := h
  refine ⟨by rw [life_at]; exact hrst, ?_⟩
  rw [tapHolds, At, advance_eq]
  exact htap

/-- Passing time changes nothing of the inputs but how long throttling lasts. -/
theorem inp_at (s : State) (lt : Dword) : (At s lt).inp = { s.inp with throttleLt := (At s lt).inp.throttleLt } := by
  unfold At advance
  split <;> rfl

/-- What the input `i` does once the engine sees it in the level `v`. -/
def inputActs (s : State) (i : Nat) (v : Bool) : State :=
  match i, v with
  | 0, true => seeHalt s
  | 0, false => dropHalt s
  | 1, true => seeWake s
  | 2, true => seeTrip s
  | 3, true => seeDroop s
  | 3, false => dropDroop s
  | _, _ => setLevel s i v

theorem seeInput_eq (s : State) (i : Nat) (v : Bool) : seeInput s i v = if s.inp.level.getLsbD i == v then s else inputActs s i v := rfl

/-- A pin reaches the engine, which has not seen it in its new level. -/
theorem pinChange_seen {i : Nat} {v : Bool} (h : PinsReach s) (hl : s.inp.level.getLsbD i = !v) : pinChange s i v = inputActs (setPin s i v) i v := by
  obtain ⟨hrst, htap⟩ := h
  have hseen : (!(setPin s i v).running || tapHolds (setPin s i v)) = false := by
    have hrun : (setPin s i v).running = true := by simp [State.running, setPin, hrst]
    have htap' : tapHolds (setPin s i v) = false := htap
    rw [hrun, htap']
    rfl
  unfold pinChange
  dsimp only
  rw [hseen, if_neg Bool.false_ne_true, seeInput_eq, if_neg]
  change ¬(s.inp.level.getLsbD i == v) = true
  rw [hl]
  cases v <;> decide

/-! ### HALT_REQ -/

theorem haltEngine_halts (s : State) : (haltEngine s).inp = { s.inp with halted := true } ∧
    haltEngine s = { s with inp := (haltEngine s).inp, evt := (haltEngine s).evt } := by
  unfold haltEngine
  dsimp only
  split <;> exact ⟨rfl, rfl⟩

theorem seeHalt_halts (hm : s.inp.masked.getLsbD 0 = false) : seeHalt s = haltEngine (setLevel s 0 true) := by
  rw [seeHalt, hm, if_neg Bool.false_ne_true]

/-! ### THERM_TRIP -/

/-- `s` with its units stopped by THERM_TRIP. -/
def tripped (s : State) : State :=
  if s.inp.thermHalt then setLevel s 2 true
  else levelRise { setLevel s 2 true with inp := { (setLevel s 2 true).inp with thermHalt := true } } 0x13

theorem tripped_frame (s : State) : (tripped s).inp.thermHalt = true ∧ tripped s = { s with inp := (tripped s).inp, evt := (tripped s).evt } := by
  unfold tripped
  split
  · next h => exact ⟨h, rfl⟩
  · exact ⟨rfl, rfl⟩

theorem seeTrip_eq (s : State) : seeTrip s = fault (tripped s) 6 1 0xFF false 0 (hottest s).1 (s.pwr.temp.get (hottest s).1 0) := rfl

/-- A fault of a class adds one to the class's count. -/
theorem fault_count_self (s : State) (cls code core : Nat) (inj : Bool) (cmd detail aux : Nat) :
    (fault s cls code core inj cmd detail aux).flt.count.get cls 0 = add64 (s.flt.count.get cls 0) 1 := by
  rw [(fault_counts ..).1]
  exact get_put_self ..

theorem seeTrip_stops (s : State) : (seeTrip s).inp.thermHalt = true ∧ (seeTrip s).flt.count.get 6 0 = add64 (s.flt.count.get 6 0) 1 ∧
    (seeTrip s).t0 = s.t0 ∧ (seeTrip s).jobs = s.jobs ∧ (seeTrip s).qs = s.qs := by
  obtain ⟨hhalt, hframe⟩ := tripped_frame s
  have hcount : (seeTrip s).flt.count.get 6 0 = add64 ((tripped s).flt.count.get 6 0) 1 := fault_count_self ..
  rw [seeTrip_eq] at hcount ⊢
  rw [fault_eq]
  refine ⟨hhalt, ?_, ?_, ?_, ?_⟩
  · rw [hcount, hframe]
  · have h := congrArg State.t0 hframe
    exact h
  · have h := congrArg State.jobs hframe
    exact h
  · have h := congrArg State.qs hframe
    exact h

/-! ### DROOP_WARN -/

theorem seeDroop_throttles (s : State) : (seeDroop s).inp.throttle = true ∧ seeDroop s = { s with inp := (seeDroop s).inp, evt := (seeDroop s).evt } := by
  unfold seeDroop
  dsimp only
  split <;> exact ⟨rfl, rfl⟩

theorem throttleEnd_eq (lt : Dword) (s : State) : throttleEnd lt s =
    if (At s lt).inp.throttle && !(At s lt).inp.level.getLsbD 3 && decide ((At s lt).inp.droopEnd ≤ (At s lt).life.lt) then
      { At s lt with inp := { (At s lt).inp with throttle := false } }
    else At s lt := rfl

/-! ### WAKE_REQ -/

/-- An edge of WAKE_REQ counts as a wake: the input was low, and no wake was taken, for 100 LT. -/
def wakeDue (s : State) : Prop := 100 ≤ s.life.lt - s.inp.changeLt.get 1 0 ∧ ∀ a, s.inp.wakeLt = some a → a + 100 ≤ s.life.lt

/-- The last wake was long enough ago. -/
def wakeFar (s : State) : Bool := match s.inp.wakeLt with | none => true | some t => decide (t + 100 ≤ s.life.lt)

theorem wakeFar_iff (s : State) : wakeFar s = true ↔ ∀ a, s.inp.wakeLt = some a → a + 100 ≤ s.life.lt := by
  unfold wakeFar
  split
  · next h => simp [h]
  · next t h => simp [h]

theorem seeWake_eq (s : State) : seeWake s =
    if s.inp.masked.getLsbD 1 then setLevel s 1 true
    else if decide (100 ≤ s.life.lt - s.inp.changeLt.get 1 0) && wakeFar s then
      wakeEvent { setLevel s 1 true with inp := { (setLevel s 1 true).inp with wakeLt := some s.life.lt } }
    else { setLevel s 1 true with inp := { (setLevel s 1 true).inp with coalesced := sat32 (setLevel s 1 true).inp.coalesced 1 } } := rfl

theorem wakeEvent_inp (s : State) : (wakeEvent s).inp = s.inp := by
  unfold wakeEvent
  split
  · rfl
  · unfold startWake
    split
    · rfl
    · split <;> rfl

theorem seeWake_acts (hm : s.inp.masked.getLsbD 1 = false) :
    (wakeDue s → (seeWake s).inp.wakeLt = some s.life.lt ∧ (seeWake s).inp.coalesced = s.inp.coalesced) ∧
      (¬wakeDue s → (seeWake s).inp.wakeLt = s.inp.wakeLt ∧ (seeWake s).inp.coalesced = sat32 s.inp.coalesced 1 ∧ (seeWake s).pwr = s.pwr) := by
  have hdue : (decide (100 ≤ s.life.lt - s.inp.changeLt.get 1 0) && wakeFar s) = true ↔ wakeDue s := by
    rw [Bool.and_eq_true, decide_eq_true_eq, wakeFar_iff, wakeDue]
  rw [seeWake_eq, hm, if_neg Bool.false_ne_true]
  refine ⟨fun h => ?_, fun h => ?_⟩
  · rw [if_pos (hdue.2 h), wakeEvent_inp]
    exact ⟨rfl, rfl⟩
  · rw [if_neg (mt hdue.1 h)]
    exact ⟨rfl, rfl, rfl⟩

/-! ### Inputs that are held -/

/-- What the fault registers hold of an input that is stuck. -/
def stuckNoted (s : State) (i : Nat) : State :=
  let f := freeNat s
  pulse (fault (viol f.2 0 0x0C (f.1 % 256 + 0x0A <<< 8) i) 7 1 0xFF false 0 i 0) 0x0B

theorem inputStuck_held {i : BitVec 2} {lt : Dword} {n : Nat} (hn : holdLimit i.toNat = some n) : inputStuck i lt s =
    if !(At s lt).running || !(At s lt).inp.level.getLsbD i.toNat || (At s lt).inp.stuck.getLsbD i.toNat ||
      decide ((At s lt).life.lt < (At s lt).inp.changeLt.get i.toNat 0 + n) then At s lt
    else { stuckNoted (At s lt) i.toNat with inp := { (stuckNoted (At s lt) i.toNat).inp with
      stuck := (stuckNoted (At s lt) i.toNat).inp.stuck ||| inBit i.toNat
      masked := if i.toNat == 1 then (stuckNoted (At s lt) i.toNat).inp.masked ||| 2 else (stuckNoted (At s lt) i.toNat).inp.masked } } := by
  unfold inputStuck
  dsimp only
  rw [hn]
  rfl

/-- A fault leaves the violation log's place. -/
theorem fault_vnext (s : State) (cls code core : Nat) (inj : Bool) (cmd detail aux : Nat) :
    (fault s cls code core inj cmd detail aux).flt.vnext = s.flt.vnext := by
  by_cases h : LikeFault s cls code core
  · rw [fault_of_like inj cmd detail aux h]
    rfl
  · rw [fault_flt_of_not_like inj cmd detail aux h]
    rfl

theorem stuckNoted_flt (s : State) (i : Nat) : (stuckNoted s i).flt.count.get 7 0 = add64 (s.flt.count.get 7 0) 1 ∧
    (stuckNoted s i).flt.vnext = (s.flt.vnext + 1) % 64 := by
  refine ⟨(fault_count_self ..).trans ?_, (fault_vnext ..).trans ?_⟩
  · rw [viol_flt]
    rfl
  · rw [viol_flt]
    rfl

theorem inBit_self {i : Nat} (h : i < 4) (l : BitVec 4) : (l ||| inBit i).getLsbD i = true ∧ (l &&& ~~~(inBit i)).getLsbD i = false := by
  have hbit : (inBit i).getLsbD i = true := by
    obtain rfl | rfl | rfl | rfl : i = 0 ∨ i = 1 ∨ i = 2 ∨ i = 3 := by omega
    all_goals rfl
  rw [BitVec.getLsbD_or, BitVec.getLsbD_and, BitVec.getLsbD_not, hbit]
  simp

/-- Settles O52, input by input. -/
theorem inputsActWhenSeen : Obligations.InputsActWhenSeen := by
  unfold Obligations.InputsActWhenSeen
  intro s lt hpins s0
  have hpins0 : PinsReach s0 := pinsReach_at hpins lt
  obtain ⟨r, hinp⟩ : ∃ r, s0.inp = { s.inp with throttleLt := r } := ⟨_, inp_at s lt⟩
  refine ⟨fun hl hm => ?_, fun hl => ?_, fun hl => ?_, fun hl => ?_, fun hl => ?_, fun hl => ?_, fun hth hl => ?_, fun hl hm => ?_, fun hl => ?_,
    fun i hi hl hst => ?_, fun href => ?_, rfl⟩
  · obtain ⟨hin, hframe⟩ := haltEngine_halts (setLevel (setPin s 0 true) 0 true)
    have hrow : pinChange s 0 true = haltEngine (setLevel (setPin s 0 true) 0 true) := (pinChange_seen hpins hl).trans (seeHalt_halts hm)
    refine ⟨_, congrArg Host.Outcome.next hrow, ?_, ?_, hframe⟩
    · rw [hin]
    · rw [hin]
      rfl
  · exact ⟨_, congrArg Host.Outcome.next (pinChange_seen hpins hl), rfl, rfl, rfl⟩
  · exact ⟨_, congrArg Host.Outcome.next (pinChange_seen hpins hl), seeTrip_stops (setPin s 2 true)⟩
  · exact ⟨_, congrArg Host.Outcome.next (pinChange_seen hpins hl), rfl, (inBit_self (by decide) _).2, rfl⟩
  · exact ⟨_, congrArg Host.Outcome.next (pinChange_seen hpins hl), seeDroop_throttles (setPin s 3 true)⟩
  · have hl0 : s0.inp.level.getLsbD 3 = true := by rw [hinp]; exact hl
    exact ⟨_, congrArg Host.Outcome.next (pinChange_seen hpins0 hl0), rfl, rfl, rfl⟩
  · refine congrArg Host.Outcome.next ((throttleEnd_eq lt s).trans ?_)
    have hcond : (s0.inp.throttle && !s0.inp.level.getLsbD 3 && decide (s0.inp.droopEnd ≤ s0.life.lt)) = decide (s.inp.droopEnd ≤ s0.life.lt) := by
      rw [hinp]
      dsimp only
      rw [hth, hl]
      rfl
    change (if (s0.inp.throttle && !s0.inp.level.getLsbD 3 && decide (s0.inp.droopEnd ≤ s0.life.lt)) = true then _ else s0) = _
    rw [hcond]
    simp only [decide_eq_true_eq]
    rfl
  · have hl0 : s0.inp.level.getLsbD 1 = false := by rw [hinp]; exact hl
    have hm0 : (setPin s0 1 true).inp.masked.getLsbD 1 = false := by
      change s0.inp.masked.getLsbD 1 = false
      rw [hinp]
      exact hm
    have hwake : (setPin s0 1 true).inp.wakeLt = s.inp.wakeLt ∧ (setPin s0 1 true).inp.coalesced = s.inp.coalesced ∧
        (setPin s0 1 true).inp.changeLt = s.inp.changeLt := by
      change s0.inp.wakeLt = _ ∧ s0.inp.coalesced = _ ∧ s0.inp.changeLt = _
      rw [hinp]
      exact ⟨rfl, rfl, rfl⟩
    obtain ⟨hw, hc, ht⟩ := hwake
    obtain ⟨hyes, hno⟩ := seeWake_acts hm0
    unfold wakeDue at hyes hno
    rw [hw, hc, ht] at hyes hno
    exact ⟨_, congrArg Host.Outcome.next (pinChange_seen hpins0 hl0), hyes, hno⟩
  · have hl0 : s0.inp.level.getLsbD 1 = true := by rw [hinp]; exact hl
    exact ⟨_, congrArg Host.Outcome.next (pinChange_seen hpins0 hl0), (inBit_self (by decide) _).2, get_put_self .., rfl⟩
  · obtain ⟨n, hn, hlt⟩ : ∃ n, holdLimit i.toNat = some n ∧ s.inp.changeLt.get i.toNat 0 + n ≤ s0.life.lt := by
      obtain ⟨rfl, h⟩ | ⟨rfl, h⟩ := hi
      · exact ⟨_, rfl, h⟩
      · exact ⟨_, rfl, h⟩
    have hcond : (!s0.running || !s0.inp.level.getLsbD i.toNat || s0.inp.stuck.getLsbD i.toNat ||
        decide (s0.life.lt < s0.inp.changeLt.get i.toNat 0 + n)) = false := by
      have hrun : s0.running = true := running_at hpins.1 lt
      rw [hrun, hinp]
      simp [hl, hst, hlt]
    obtain ⟨hcount, hvnext⟩ := stuckNoted_flt s0 i.toNat
    have hflt : s0.flt = s.flt := flt_at s lt
    rw [hflt] at hcount hvnext
    refine ⟨_, congrArg Host.Outcome.next ((inputStuck_held hn).trans (if_neg (Bool.eq_false_iff.1 hcond))), (inBit_self i.isLt _).1, ?_, hcount, hvnext⟩
    rintro rfl
    exact (inBit_self (i := 1) (by decide) _).1
  · have hrow : refLoss s = pulse (fault { s with life := { s.life with refLost := true } } 5 1 0xFF false 0 0 0) 0x0E :=
      if_neg (by simp [State.running, hpins.1, href])
    refine ⟨_, congrArg Host.Outcome.next hrow, ?_, fault_count_self ..⟩
    change (fault _ 5 1 0xFF false 0 0 0).life = _
    rw [fault_eq]

end Sys2Proof.Proofs
end

section
set_option Elab.async false
/-! Reset, the boot read and the end of the boot (15 R496, R497, R507; 16 R516-R523). -/
namespace Sys2Proof.Proofs
open Sys2Proof Sys2Proof.Machine Sys2Proof.Laws Sys2Proof.Safety

variable {s : State}

/-! ### RST_N -/

/-- `s` with RST_N high. -/
def released (s : State) : State := { s with life := { s.life with rstLow := false } }

/-- The inputs that stand asserted are seen anew. -/
def inputsSeen (s : State) : State :=
  [0, 2, 3].foldl (fun s i => seeInput s i (s.inp.pins.getLsbD i)) (if s.inp.pins.getLsbD 1 then setLevel s 1 true else s)

theorem rstRelease_eq (s : State) : rstRelease s =
    if !s.life.rstLow then s else if tapHolds (released s) then released s else inputsSeen (released s) := rfl

theorem inputsSeen_none (hp : s.inp.pins = 0) (hl : s.inp.level = 0) : inputsSeen s = s := by
  have hsee : ∀ i, seeInput s i (s.inp.pins.getLsbD i) = s := by
    intro i
    refine (seeInput_eq ..).trans (if_pos ?_)
    simp [hl, hp]
  have hwake : s.inp.pins.getLsbD 1 = false := by simp [hp]
  rw [inputsSeen, hwake, if_neg Bool.false_ne_true]
  simp only [List.foldl_cons, List.foldl_nil, hsee]

/-- With every input deasserted the release of RST_N changes nothing else. -/
theorem rstRelease_quiet (hrst : s.life.rstLow = true) (hp : s.inp.pins = 0) (hl : s.inp.level = 0) : rstRelease s = released s := by
  rw [rstRelease_eq, hrst, inputsSeen_none (s := released s) hp hl, ite_self]
  rfl

/-! ### The boot read -/

/-- `s` with the read command that the flash's parameter table gives. -/
def readChosen (s : State) (sfdp : List Byte) : State :=
  { s with boot := { s.boot with
    readCmd := (bootChoice sfdp).1
    sck := (bootChoice sfdp).2.1
    addr4 := (bootChoice sfdp).2.2
    sfdpOk := (sfdpTable sfdp).isSome
    error := if (sfdpTable sfdp).isSome then 0 else 1 } }

theorem bootRead_eq (sfdp image : List Byte) (lt : Dword) (s : State) : bootRead sfdp image lt s =
    if !(At s lt).running || (At s lt).life.refLost || (At s lt).boot.phase != 0 || decide ((At s lt).life.lt < 1000) then At s lt
    else readFlash (readChosen (At s lt) sfdp) image := rfl

theorem boot_at (s : State) (lt : Dword) : (At s lt).boot = s.boot := by
  rw [At, advance_eq]

theorem fuse_at (s : State) (lt : Dword) : (At s lt).fuse = s.fuse := by
  rw [At, advance_eq]

theorem refLost_at (s : State) (lt : Dword) : (At s lt).life.refLost = s.life.refLost := by
  rw [life_at]

theorem bootRead_early {sfdp image : List Byte} {lt : Dword} (h : (At s lt).life.lt < 1000) : bootRead sfdp image lt s = At s lt :=
  (bootRead_eq ..).trans (if_pos (by simp [h]))

theorem bootRead_reads {sfdp image : List Byte} {lt : Dword} (hrst : s.life.rstLow = false) (href : s.life.refLost = false)
    (hp : s.boot.phase = 0) (h : 1000 ≤ (At s lt).life.lt) : bootRead sfdp image lt s = readFlash (readChosen (At s lt) sfdp) image := by
  refine (bootRead_eq ..).trans (if_neg ?_)
  rw [running_at hrst, refLost_at, href, boot_at, hp, decide_eq_false (by omega)]
  decide

/-! ### The end of the boot -/

theorem railsUp_at (s : State) (lt : Dword) : railsUp (At s lt) = railsUp s := by
  unfold railsUp
  rw [pwr_at]

theorem digestOk_at (s : State) (lt : Dword) : digestOk (At s lt) = digestOk s := by
  unfold digestOk stagedBad
  rw [fuse_at, boot_at, t0_at]

theorem stagedImage_at (s : State) (lt : Dword) : stagedImage (At s lt) = stagedImage s := by
  unfold stagedImage
  rw [boot_at, t0_at]

/-- `s` with the staged image, whose form has been checked, applied and the engine tested. -/
def imageApplied (s : State) (test : Option SelfTestFail) : State :=
  let t := applyImage (stagedImage s) { s with
    boot := { s.boot with phase := 3 }
    life := { s.life with unfused := s.fuse.digest == 0 } }
  match test with
  | some f => selfTestFailed { t with flt := s.flt } f
  | none => goReady t

/-- The steps from the digest check on. -/
def bootChecked (s : State) (test : Option SelfTestFail) : State :=
  if s.boot.phase != 2 then s
  else if !digestOk s then { s with boot := { s.boot with phase := 4, error := 3 } }
  else if !imageOk (stagedImage s) then
    { s with
      boot := { s.boot with phase := 4, error := 4 }
      life := { s.life with unfused := s.fuse.digest == 0 } }
  else imageApplied s test

theorem bootComplete_eq (reread : List Byte) (test : Option SelfTestFail) (lt : Dword) (s : State) : bootComplete reread test lt s =
    if !(At s lt).running || (At s lt).life.refLost || (At s lt).boot.phase != 2 || !railsUp (At s lt) then At s lt
    else bootChecked (rereadImage (At s lt) reread) test := by
  cases test <;> rfl

theorem bootComplete_waits {reread : List Byte} {test : Option SelfTestFail} {lt : Dword} (h : railsUp s = false) :
    bootComplete reread test lt s = At s lt :=
  (bootComplete_eq ..).trans (if_pos (by simp [railsUp_at, h]))

/-- With the rails in force and nothing to be read again the checks run. -/
theorem bootComplete_checks {reread : List Byte} {test : Option SelfTestFail} {lt : Dword} (hrst : s.life.rstLow = false)
    (href : s.life.refLost = false) (hp : s.boot.phase = 2) (hrails : railsUp s = true)
    (h : digestOk s = true ∨ s.boot.readCmd ≠ 0x6B ∧ s.boot.readCmd ≠ 0xEB) : bootComplete reread test lt s = bootChecked (At s lt) test := by
  have hreread : rereadImage (At s lt) reread = At s lt := by
    refine if_pos ?_
    rw [digestOk_at, boot_at]
    obtain h | ⟨h1, h2⟩ := h
    · simp [h]
    · simp [h1, h2]
  refine (bootComplete_eq ..).trans ((if_neg ?_).trans ?_)
  · rw [running_at hrst, refLost_at, href, boot_at, hp, railsUp_at, hrails]
    decide
  · rw [hreread]

/-- What the checks make of the staged image. -/
theorem bootChecked_of (hp : s.boot.phase = 2) (test : Option SelfTestFail) : bootChecked s test =
    if !digestOk s then { s with boot := { s.boot with phase := 4, error := 3 } }
    else if !imageOk (stagedImage s) then
      { s with
        boot := { s.boot with phase := 4, error := 4 }
        life := { s.life with unfused := s.fuse.digest == 0 } }
    else imageApplied s test := if_neg (by simp [hp])

theorem goReady_ready (s : State) : (goReady s).life.ready = true ∧ (goReady s).life.selftestFail = false ∧ (goReady s).t0 = {} := by
  unfold goReady
  dsimp only
  split <;> exact ⟨rfl, rfl, rfl⟩

theorem selfTestFailed_fails (s : State) (f : SelfTestFail) : (selfTestFailed s f).life.ready = false ∧ (selfTestFailed s f).life.selftestFail = true ∧
    (selfTestFailed s f).flt.count.get 9 0 = add64 (s.flt.count.get 9 0) 1 := by
  refine ⟨?_, ?_, fault_count_self ..⟩
  · rw [selfTestFailed, fault_eq]
  · rw [selfTestFailed, fault_eq]

theorem imageApplied_ready (s : State) : (imageApplied s none).life.ready = true ∧ (imageApplied s none).life.selftestFail = false ∧
    (imageApplied s none).t0 = {} := goReady_ready _

theorem imageApplied_fails (s : State) (f : SelfTestFail) : (imageApplied s (some f)).life.ready = false ∧
    (imageApplied s (some f)).life.selftestFail = true ∧ (imageApplied s (some f)).flt.count.get 9 0 = add64 (s.flt.count.get 9 0) 1 := by
  unfold imageApplied
  exact selfTestFailed_fails _ f

/-- Settles O53, row by row. -/
theorem resetAndBootReachReady : Obligations.ResetAndBootReachReady := by
  unfold Obligations.ResetAndBootReachReady
  intro s
  refine ⟨⟨inReset s, rfl, rfl, rfl, rfl, rfl, rfl, rfl, rfl, rfl, rfl, rfl, rfl, rfl, rfl, rfl⟩,
    fun hrst hp hl => congrArg Host.Outcome.next (rstRelease_quiet hrst hp hl), fun sfdp image lt hrst href hp => ?_,
    fun reread test lt hrst href hp => ?_⟩
  · refine ⟨fun h => congrArg Host.Outcome.next (bootRead_early h), fun h hlong => ?_, fun h hfits => ?_⟩
    · refine ⟨_, congrArg Host.Outcome.next ((bootRead_reads hrst href hp h).trans (if_pos hlong)), rfl, rfl, ?_⟩
      exact t0_at s lt
    · refine ⟨_, congrArg Host.Outcome.next ((bootRead_reads hrst href hp h).trans (if_neg (Nat.not_lt.2 hfits))), rfl, rfl, rfl, rfl, ?_⟩
      change (At s lt).life.ready = _
      rw [life_at]
  · refine ⟨fun h => congrArg Host.Outcome.next (bootComplete_waits h), fun hr hd h6 he => ?_, fun hr hd hi => ?_, fun hr hd hi => ?_⟩
    · have hrow := bootComplete_checks (reread := reread) (test := test) (lt := lt) hrst href hp hr (.inr ⟨h6, he⟩)
      rw [bootChecked_of (by rw [boot_at]; exact hp), digestOk_at, hd, boot_at] at hrow
      exact congrArg Host.Outcome.next hrow
    · have hrow := bootComplete_checks (reread := reread) (test := test) (lt := lt) hrst href hp hr (.inl hd)
      rw [bootChecked_of (by rw [boot_at]; exact hp), digestOk_at, hd, stagedImage_at, hi] at hrow
      exact ⟨_, congrArg Host.Outcome.next hrow, rfl, rfl, t0_at s lt⟩
    · have hrow := bootComplete_checks (reread := reread) (test := test) (lt := lt) hrst href hp hr (.inl hd)
      rw [bootChecked_of (by rw [boot_at]; exact hp), digestOk_at, hd, stagedImage_at, hi] at hrow
      refine ⟨imageApplied (At s lt) test, congrArg Host.Outcome.next hrow, ?_, ?_⟩
      · rintro rfl
        exact imageApplied_ready _
      · rintro f rfl
        have h := imageApplied_fails (At s lt) f
        rw [flt_at] at h
        exact h

end Sys2Proof.Proofs
end

section
set_option Elab.async false
/-! The UART's counts and times (15 R510, R511; 17 R545-R547). -/
namespace Sys2Proof.Proofs
open Sys2Proof Sys2Proof.Machine Sys2Proof.Laws Sys2Proof.Safety

variable {s : State}

/-! ### Received frames -/

/-- What a frame that the UART receives does. -/
def frameSeen (s : State) (b : Byte) (stop : Bool) : State :=
  if !stop then { s with mon := { s.mon with frameErr := min (s.mon.frameErr + 1) 0xFFFF } }
  else if 64 ≤ s.mon.fifo.length then { s with mon := { s.mon with overrun := min (s.mon.overrun + 1) 0xFFFF } }
  else drainFifo 64 { s with mon := { s.mon with fifo := s.mon.fifo ++ [b] } }

theorem uartRx_reaches {b : Byte} {stop : Bool} {lt : Dword} (h : PinsReach s) (href : s.life.refLost = false) :
    uartRx b stop lt s = frameSeen (At s lt) b stop := by
  obtain ⟨-, htap⟩ := pinsReach_at h lt
  have hdead : (!(At s lt).running || (At s lt).life.refLost || tapHolds (At s lt)) = false := by
    rw [running_at h.1, refLost_at, href, htap]
    rfl
  exact if_neg (Bool.eq_false_iff.1 hdead)

theorem drainFifo_nil (h : s.mon.fifo = []) (k : Nat) : drainFifo k s = s := by
  cases k with
  | zero => rfl
  | succ k =>
    unfold drainFifo
    rw [h]
    exact ite_self _

/-- A byte other than the end of a line begins the line when none is being received. -/
theorem feedByte_first {b : Byte} (hl : s.mon.line = []) (hb : b ≠ 13) :
    feedByte s b = { s with mon := { s.mon with line := [b], lineLt := s.life.lt } } := by
  have hdrop : dropLine s = s := by
    refine if_neg ?_
    simp [lineLate, hl]
  unfold feedByte
  rw [hdrop]
  dsimp only
  rw [if_neg (by simpa using hb), hl]
  rfl

/-- `s` with the bytes `l` in the FIFO. -/
def buffered (s : State) (l : List Byte) : State := { s with mon := { s.mon with fifo := l } }

theorem drainFifo_cons {b : Byte} {l : List Byte} (hr : s.mon.req = none) (hf : s.mon.fifo = b :: l) (k : Nat) :
    drainFifo (k + 1) s = drainFifo k (feedByte (buffered s l) b) := by
  rw [drainFifo, hr, hf]
  rfl

theorem frameSeen_first {b : Byte} (hf : s.mon.fifo = []) (hr : s.mon.req = none) (hl : s.mon.line = []) (hb : b ≠ 13) :
    frameSeen s b true = { s with mon := { s.mon with line := [b], lineLt := s.life.lt } } := by
  have hrow : frameSeen s b true = drainFifo 64 (buffered s [b]) := by
    refine (if_neg (by decide)).trans ((if_neg (by simp [hf])).trans ?_)
    rw [hf]
    rfl
  have hempty : buffered (buffered s [b]) [] = s := by
    have hmon : ({ s.mon with fifo := [] } : Monitor) = s.mon := by rw [← hf]
    unfold buffered
    dsimp only
    rw [hmon]
  rw [hrow, drainFifo_cons (s := buffered s [b]) hr rfl, hempty, feedByte_first hl hb]
  exact drainFifo_nil (s := { s with mon := { s.mon with line := [b], lineLt := s.life.lt } }) hf 63

/-! ### Sent characters -/

theorem uartTx_ends {c : Byte} {rest : List Byte} (hrst : s.life.rstLow = false) (href : s.life.refLost = false)
    (htx : s.mon.tx = c :: rest) (hb : s.mon.baud = none) : uartTx s = { s with mon := { s.mon with
      tx := rest
      div := s.mon.divNext.getD s.mon.div
      divNext := none } } := by
  unfold uartTx State.running
  rw [htx, hrst, href]
  dsimp only
  rw [hb]
  rfl

/-! ### Lines and nonces -/

theorem nonceExpiry_some {lt : Dword} {k e : Nat} (h : s.mon.nonce = some (k, e)) : nonceExpiry lt s =
    if e ≤ (At s lt).life.lt then { At s lt with mon := { (At s lt).mon with nonce := none } } else At s lt := by
  have h0 : (At s lt).mon.nonce = some (k, e) := by
    rw [mon_at]
    exact h
  change (match (At s lt).mon.nonce with
    | none => At s lt
    | some (_, e) => if e ≤ (At s lt).life.lt then { At s lt with mon := { (At s lt).mon with nonce := none } } else At s lt) = _
  rw [h0]

/-- Settles O55, row by row. -/
theorem uartCountsAndTimes : Obligations.UartCountsAndTimes := by
  unfold Obligations.UartCountsAndTimes
  intro s b lt s0
  have hmon : s0.mon = s.mon := mon_at s lt
  refine ⟨fun hp href => ⟨?_, fun h => ?_, fun hf hr hl hb => ?_⟩, ?_, fun k e h => ?_, fun c rest hrst href htx hb => ?_⟩
  · refine congrArg Host.Outcome.next ((uartRx_reaches hp href).trans ?_)
    change { s0 with mon := { s0.mon with frameErr := min (s0.mon.frameErr + 1) 0xFFFF } } = _
    rw [hmon]
  · refine congrArg Host.Outcome.next ((uartRx_reaches hp href).trans ?_)
    have hfull : frameSeen s0 b true = { s0 with mon := { s0.mon with overrun := min (s0.mon.overrun + 1) 0xFFFF } } := by
      rw [frameSeen, hmon]
      exact if_pos h
    rw [hfull, hmon]
  · refine congrArg Host.Outcome.next ((uartRx_reaches hp href).trans ?_)
    exact frameSeen_first (by rw [mon_at]; exact hf) (by rw [mon_at]; exact hr) (by rw [mon_at]; exact hl) hb
  · refine congrArg Host.Outcome.next ?_
    have hlate : lineLate s0 = true ↔ s.mon.line ≠ [] ∧ s.mon.lineLt + 100000000 ≤ s0.life.lt := by
      rw [lineLate, hmon]
      simp
    change (if lineLate s0 = true then { s0 with mon := { s0.mon with line := [] } } else s0) = _
    simp only [hlate]
  · exact congrArg Host.Outcome.next (nonceExpiry_some h)
  · exact congrArg Host.Outcome.next (uartTx_ends hrst href htx hb)

end Sys2Proof.Proofs
end

section
set_option Elab.async false
/-! The monitor's session (17 R544-R547). -/
namespace Sys2Proof.Proofs
open Sys2Proof Sys2Proof.Machine Sys2Proof.Laws Sys2Proof.Safety

variable {s t : State}

/-! ### The row of a request -/

/-- What a request comes to once its command has run: its answer goes out and the monitor goes on with the FIFO, or it waits. -/
def told (seq : Nat) : MonRes → State
  | .ok text s => drainFifo 64 (answer s seq '!' text)
  | .err text s => drainFifo 64 (answer s seq '?' (txt text))
  | .wait s => s

theorem begins_self (head : List String) (args : List (List Byte)) : begins (head.map txt ++ args) head = true := by
  have htake : (head.map txt ++ args).take head.length = head.map txt := by
    rw [← List.length_map (f := txt) (as := head), List.take_left]
  rw [begins, htake, beq_self_eq_true]

theorem drop_head (head : List String) (args : List (List Byte)) : (head.map txt ++ args).drop head.length = args := by
  rw [← List.length_map (f := txt) (as := head), List.drop_left]

/-- A request whose gate is closed is answered with why. -/
theorem monRow_gated {seq level : Nat} {ws : List (List Byte)} {head : List String} {run : State → List (List Byte) → MonRes} {why : String}
    (hreq : s.mon.req = some (seq, ws)) (hrst : s.life.rstLow = false) (hb : begins ws head = true) (hf : s.mon.fifo = [])
    (hg : gate s level = some why) : monRow head level run s = answer s seq '?' (txt why) := by
  unfold monRow State.running
  rw [hreq, hrst]
  dsimp only
  rw [hb, hg]
  exact drainFifo_nil (s := answer s seq '?' (txt why)) hf 64

/-- A request that waits for its row runs on its arguments. -/
theorem monRow_asked {seq level : Nat} {head : List String} {args : List (List Byte)} (h : Asked s seq head level args)
    (run : State → List (List Byte) → MonRes) : monRow head level run s = told seq (run s args) := by
  obtain ⟨hreq, hrst, -, hgate⟩ := h
  unfold monRow State.running
  rw [hreq, hrst]
  dsimp only
  rw [begins_self, hgate, drop_head]
  cases run s args <;> rfl

theorem told_ok (seq : Nat) (text : List Byte) (h : t.mon.fifo = []) : told seq (.ok text t) = answer t seq '!' text :=
  drainFifo_nil (s := answer t seq '!' text) h 64

theorem told_err (seq : Nat) (text : String) (h : t.mon.fifo = []) : told seq (.err text t) = answer t seq '?' (txt text) :=
  drainFifo_nil (s := answer t seq '?' (txt text)) h 64

/-- A request that is answered. -/
theorem monRow_ok {seq level : Nat} {head : List String} {args : List (List Byte)} {run : State → List (List Byte) → MonRes} {text : List Byte}
    (h : Asked s seq head level args) (hrun : run s args = .ok text t) (hf : t.mon.fifo = s.mon.fifo) :
    monRow head level run s = answer t seq '!' text := by
  rw [monRow_asked h, hrun]
  exact told_ok seq text (hf.trans h.2.2.1)

/-- A request that is answered with an error. -/
theorem monRow_err {seq level : Nat} {head : List String} {args : List (List Byte)} {run : State → List (List Byte) → MonRes} {text : String}
    (h : Asked s seq head level args) (hrun : run s args = .err text t) (hf : t.mon.fifo = s.mon.fifo) :
    monRow head level run s = answer t seq '?' (txt text) := by
  rw [monRow_asked h, hrun]
  exact told_err seq text (hf.trans h.2.2.1)

/-! ### The commands of a session -/

/-- Tracing changes nothing of the monitor but where it traces and whether it goes on. -/
theorem trace_mon (s : State) (code cls core q n op arg : Nat) : (trace s code cls core q n op arg).mon =
    { s.mon with
      trNext := (trace s code cls core q n op arg).mon.trNext
      trOn := (trace s code cls core q n op arg).mon.trOn
      trFull := (trace s code cls core q n op arg).mon.trFull } := by
  unfold trace
  dsimp only
  split <;> rfl

theorem fault_mon (s : State) (cls code core : Nat) (inj : Bool) (cmd detail aux : Nat) : (fault s cls code core inj cmd detail aux).mon =
    { s.mon with
      trNext := (fault s cls code core inj cmd detail aux).mon.trNext
      trOn := (fault s cls code core inj cmd detail aux).mon.trOn
      trFull := (fault s cls code core inj cmd detail aux).mon.trFull } := by
  by_cases h : LikeFault s cls code core
  · rw [fault_of_like inj cmd detail aux h]
  · rw [fault_of_not_like inj cmd detail aux h]
    refine (trace_mon ..).trans ?_
    rw [faultPulses_mon]

/-- `s` after a wrong response. -/
def wronged (s : State) : State :=
  fault { s with mon := { s.mon with nonce := none, wrong := s.mon.wrong + 1 } } 10 1 0xFF false 0 (s.mon.wrong + 1) 0

/-- A response in form, in time. -/
theorem monUnlk_timely {w : List Byte} {r n e : Nat} (hw : hexOf w = some r) (hlen : w.length = 16) (hn : s.mon.nonce = some (n, e))
    (he : s.life.lt < e) : monUnlk s [w] =
      if r == response s n then .ok okText { s with mon := { s.mon with nonce := none, unlocked := true } } else .err "LOCKED" (wronged s) := by
  unfold monUnlk
  dsimp only
  rw [hw, hn]
  dsimp only
  rw [if_neg (by simp [hlen]), if_neg (by omega)]
  rfl

theorem wronged_counts (s : State) : (wronged s).mon.unlocked = s.mon.unlocked ∧ (wronged s).mon.nonce = none ∧
    (wronged s).mon.wrong = s.mon.wrong + 1 ∧ (wronged s).mon.fifo = s.mon.fifo ∧
    (wronged s).flt.count.get 10 0 = add64 (s.flt.count.get 10 0) 1 := by
  have hmon := fault_mon { s with mon := { s.mon with nonce := none, wrong := s.mon.wrong + 1 } } 10 1 0xFF false 0 (s.mon.wrong + 1) 0
  have hunlocked := congrArg Monitor.unlocked hmon
  have hnonce := congrArg Monitor.nonce hmon
  have hwrong := congrArg Monitor.wrong hmon
  have hfifo := congrArg Monitor.fifo hmon
  exact ⟨hunlocked, hnonce, hwrong, hfifo, fault_count_self ..⟩

/-- Settles O56, command by command. -/
theorem monitorSessionUnlocks : Obligations.MonitorSessionUnlocks := by
  unfold Obligations.MonitorSessionUnlocks
  intro s seq
  refine ⟨fun c ws why hc hreq hrst hf hg => ?_, fun h => ?_, fun e h => ?_, fun w r n e h hw hlen hn he => ⟨fun hr => ?_, fun hr => ?_⟩,
    fun h => ?_, fun h => ?_⟩
  · obtain ⟨rfl, rfl⟩ | ⟨rfl, rfl⟩ := hc
    · exact congrArg Host.Outcome.next (monRow_gated hreq hrst (begins_self ["LOCK"] []) hf hg)
    · exact congrArg Host.Outcome.next (monRow_gated hreq hrst (begins_self ["ST"] []) hf hg)
  · exact congrArg Host.Outcome.next (monRow_ok h rfl rfl)
  · refine congrArg Host.Outcome.next ?_
    by_cases hw : 3 ≤ s.mon.wrong
    · rw [if_pos hw]
      exact monRow_err h (if_pos hw) rfl
    · rw [if_neg hw]
      exact monRow_ok (t := { s with mon := { s.mon with nonce := some (e.toNat, s.life.lt + 6000000000) } }) h (if_neg hw) rfl
  · have hrun := monUnlk_timely hw hlen hn he
    rw [if_pos (beq_iff_eq.2 hr)] at hrun
    exact congrArg Host.Outcome.next (monRow_ok h hrun rfl)
  · have hrun := monUnlk_timely hw hlen hn he
    rw [if_neg (by simpa using hr)] at hrun
    obtain ⟨h1, h2, h3, h4, h5⟩ := wronged_counts s
    exact ⟨_, congrArg Host.Outcome.next (monRow_err h hrun h4), h1, h2, h3, h5⟩
  · exact congrArg Host.Outcome.next (monRow_ok (t := { s with mon := { s.mon with unlocked := false } }) h rfl rfl)
  · exact congrArg Host.Outcome.next (monRow_ok h rfl rfl)

end Sys2Proof.Proofs
end

section
set_option Elab.async false
/-! The monitor's reads and writes (17 R547). -/
namespace Sys2Proof.Proofs
open Sys2Proof Sys2Proof.Machine Sys2Proof.Laws Sys2Proof.Safety

variable {s t : State}

theorem fault_fifo (s : State) (cls code core : Nat) (inj : Bool) (cmd detail aux : Nat) :
    (fault s cls code core inj cmd detail aux).mon.fifo = s.mon.fifo := by
  rw [fault_mon]

theorem ueFault_fifo (s : State) (c w aux : Nat) : (ueFault s c w aux).mon.fifo = s.mon.fifo := by
  unfold ueFault
  dsimp only
  rw [fault_fifo]

/-- A read of an aligned word leaves the monitor's FIFO. -/
theorem ctrlRead_fifo {a : Nat} (h : a % 4 = 0) : (ctrlRead s a).2.mon.fifo = s.mon.fifo := by
  unfold ctrlRead
  rw [if_neg (by simp [h])]
  split
  · rfl
  split
  · rfl
  split
  · unfold readCwData
    dsimp only
    split
    · exact ueFault_fifo ..
    · rfl
  split
  · rfl
  split <;> rfl

theorem numArgs_one {w : List Byte} {a : Nat} (h : hexOf w = some a) : numArgs [w] = some [a] := by
  simp [numArgs, h]

theorem numArgs_two {w x : List Byte} {a v : Nat} (h : hexOf w = some a) (hx : hexOf x = some v) : numArgs [w, x] = some [a, v] := by
  simp [numArgs, h, hx]

/-- In an engine that is awake a command runs at once. -/
theorem whenAwake_reachable (h : reachable s = true) (f : MonRes) : whenAwake s f = f := if_pos h

theorem monRd_word {w : List Byte} {a : Nat} (hw : hexOf w = some a) (h4 : a % 4 = 0) (ha : a < 2 ^ 24)
    (hon : alwaysOn a = true ∨ reachable s = true) : monRd s [w] = .ok (hexN 8 (ctrlRead s a).1) (ctrlRead s a).2 := by
  unfold monRd
  rw [numArgs_one hw]
  dsimp only
  rw [if_neg (by simp [h4]; omega)]
  have hres : (if (alwaysOn a && alwaysOn (a + 4 * (1 - 1))) = true then
      MonRes.ok (fields ((readWords 1 s a).1.map (hexN 8))) (readWords 1 s a).2
    else whenAwake s (.ok (fields ((readWords 1 s a).1.map (hexN 8))) (readWords 1 s a).2)) =
      .ok (hexN 8 (ctrlRead s a).1) (ctrlRead s a).2 := by
    obtain hon | hon := hon
    · rw [if_pos (by simp [hon])]
      rfl
    · rw [whenAwake_reachable hon, ite_self]
      rfl
  exact hres

theorem monWr_word {w x : List Byte} {a v : Nat} (hw : hexOf w = some a) (hx : hexOf x = some v) (h4 : a % 4 = 0) (ha : a < 2 ^ 24)
    (hv : v < 2 ^ 32) (hon : alwaysOn a = true ∨ reachable s = true) : monWr s [w, x] = .ok okText (ctrlWrite s a v) := by
  unfold monWr
  rw [numArgs_two hw hx]
  dsimp only
  rw [if_neg (by simp [h4]; omega)]
  obtain hon | hon := hon
  · rw [if_pos hon]
  · rw [whenAwake_reachable hon, ite_self]

theorem monMd_bytes {w x : List Byte} {a n : Nat} (hw : hexOf w = some a) (hx : hexOf x = some n) (h0 : 0 < n) (hn : n ≤ 256)
    (ha : a + n ≤ 2 ^ 47) (hr : reachable s = true) :
    monMd s [w, x] = .ok (fields ((s.t1.fetch a n).1.map fun b => hexN 2 b.toNat)) s := by
  unfold monMd
  rw [numArgs_two hw hx]
  dsimp only
  rw [if_neg (by simp; omega), whenAwake_reachable hr]

theorem monCnt_core {w : List Byte} {c : Nat} (hw : hexOf w = some c) (hc : c < 256) (hr : reachable s = true) :
    monCnt s [w] = .ok (fields (tab 9 fun i => hexN 16 (s.counter c (i + 1)))) s := by
  unfold monCnt
  rw [numArgs_one hw]
  dsimp only
  rw [if_neg (show ¬Config.cores ≤ c from Nat.not_le.2 hc), whenAwake_reachable hr]

/-- Settles O57, command by command. -/
theorem monitorReadsAndWrites : Obligations.MonitorReadsAndWrites := by
  unfold Obligations.MonitorReadsAndWrites
  intro s seq a w hw
  refine ⟨fun h h4 ha hon => ?_, fun x v h hx h4 ha hv hmon hon => ?_, fun x n h hx h0 hn ha hr => ?_, fun h hc hr => ?_⟩
  · exact congrArg Host.Outcome.next (monRow_ok h (monRd_word hw h4 ha hon) (ctrlRead_fifo h4))
  · exact congrArg Host.Outcome.next (monRow_ok h (monWr_word hw hx h4 ha hv hon) (by rw [hmon]))
  · exact congrArg Host.Outcome.next (monRow_ok h (monMd_bytes hw hx h0 hn ha hr) rfl)
  · exact congrArg Host.Outcome.next (monRow_ok h (monCnt_core hw hc hr) rfl)

end Sys2Proof.Proofs
end

section
set_option Elab.async false
/-! The monitor's controls and injections (16 R524; 17 R547-R551). -/
namespace Sys2Proof.Proofs
open Sys2Proof Sys2Proof.Machine Sys2Proof.Laws Sys2Proof.Safety

variable {s t : State} {seq : Nat}

theorem numArgs_three {w x y : List Byte} {a b c : Nat} (h : hexOf w = some a) (hx : hexOf x = some b) (hy : hexOf y = some c) :
    numArgs [w, x, y] = some [a, b, c] := by
  simp [numArgs, h, hx, hy]

theorem numArgs_four {w x y z : List Byte} {a b c d : Nat} (h : hexOf w = some a) (hx : hexOf x = some b) (hy : hexOf y = some c)
    (hz : hexOf z = some d) : numArgs [w, x, y, z] = some [a, b, c, d] := by
  simp [numArgs, h, hx, hy, hz]

/-! ### HALT and RES -/

theorem monHalt_core {w : List Byte} {c : Nat} (hw : hexOf w = some c) (hc : c < 256) :
    monHaltCmd s [w] = .ok okText { s with inp := { s.inp with monHalt := insNat c s.inp.monHalt } } := by
  unfold monHaltCmd
  rw [numArgs_one hw]
  exact if_neg (show ¬Config.cores ≤ c from Nat.not_le.2 hc)

theorem monRes_core {w : List Byte} {c : Nat} (hw : hexOf w = some c) (hc : c < 256) :
    monRes s [w] = .ok okText { s with inp := { s.inp with monHalt := s.inp.monHalt.erase c } } := by
  unfold monRes
  rw [numArgs_one hw]
  exact if_neg (show ¬Config.cores ≤ c from Nat.not_le.2 hc)

/-- `s` with the halts of the monitor released. -/
def unhalted (s : State) : State := { s with inp := { s.inp with monHalt := [] }, mon := { s.mon with bpHit := false } }

theorem monRes_all (s : State) : monRes s [] = .ok okText (unhalted (haltRelease s)) := rfl

/-! ### Breakpoints and traces -/

theorem monBp_set {a b c k : List Byte} {n q t : Nat} (ha : hexOf a = some n) (hb : hexOf b = some q) (hc : hexOf c = some t) (hn : n < 4)
    (hq : q < 64) (ht : t < 65536) (hk : k = txt "T" ∨ k = txt "C") : monBp s [a, b, c, k] = .ok okText { s with mon := { s.mon with
      bp := s.mon.bp.put n (t + q <<< 16 + (b2n (k == txt "C")) <<< 22 + 2 ^ 31) } } := by
  unfold monBp
  dsimp only
  rw [ha, hb, hc]
  dsimp only
  have hkind : (k != txt "T" && k != txt "C") = false := by
    obtain rfl | rfl := hk <;> simp
  rw [hkind, if_neg Bool.false_ne_true, if_neg (by simp; omega)]

theorem monBp_off {a : List Byte} {n : Nat} (ha : hexOf a = some n) (hn : n < 4) :
    monBp s [a, txt "OFF"] = .ok okText { s with mon := { s.mon with bp := s.mon.bp.put n 0 } } := by
  unfold monBp
  dsimp only
  rw [ha]
  dsimp only
  rw [if_neg (by simp), if_neg (by omega)]

theorem monTrOn_begins {a b c d : List Byte} {base size mask mode : Nat} (ha : hexOf a = some base) (hb : hexOf b = some size)
    (hc : hexOf c = some mask) (hd : hexOf d = some mode) (h1 : base % 4096 = 0) (h2 : base + size ≤ 2 ^ 47) (h3 : size % 4096 = 0)
    (h4 : 0 < size) (h5 : size ≤ 2 ^ 30) (h6 : mask < 0x80) (h7 : mode < 2) : monTrOn s [a, b, c, d] = .ok okText { s with mon := { s.mon with
      trBase := base
      trSize := size
      trNext := 0
      trMask := mask
      trWrap := mode == 1
      trOn := true
      trFull := false } } := by
  unfold monTrOn
  rw [numArgs_four ha hb hc hd]
  dsimp only
  rw [if_neg (by simp [h1, h3]; omega)]

/-! ### STEST and BAUD -/

theorem reachable_at (h : reachable s = true) (lt : Dword) : reachable (At s lt) = true := by
  unfold reachable
  rw [life_at, pwr_at]
  exact h

theorem asked_at {level : Nat} {head : List String} {args : List (List Byte)} (h : Asked s seq head level args) (lt : Dword) :
    Asked (At s lt) seq head level args := by
  obtain ⟨hreq, hrst, hf, hg⟩ := h
  refine ⟨by rw [mon_at]; exact hreq, by rw [life_at]; exact hrst, by rw [mon_at]; exact hf, ?_⟩
  unfold gate
  rw [fuse_at, mon_at]
  exact hg

theorem rerunTest_runs (hp : s.boot.phase = 3) (hj : s.jobs = []) (hs : s.slots.sids = []) (test : Option SelfTestFail) :
    rerunTest s test = some (match test with
      | some f => selfTestFailed { s with tbl := equalBanks s.tbl } f
      | none => goReady s) := if_neg (by simp [hp, hj, hs])

theorem monStest_passes (hr : reachable s = true) (hp : s.boot.phase = 3) (hj : s.jobs = []) (hs : s.slots.sids = []) :
    monStest none s = .ok okText (goReady s) := by
  rw [monStest, whenAwake_reachable hr, rerunTest_runs hp hj hs]

theorem monStest_fails (hr : reachable s = true) (hp : s.boot.phase = 3) (hj : s.jobs = []) (hs : s.slots.sids = []) (f : SelfTestFail) :
    monStest (some f) s = .ok okText (selfTestFailed { s with tbl := equalBanks s.tbl } f) := by
  rw [monStest, whenAwake_reachable hr, rerunTest_runs hp hj hs]

theorem monStest_refused (hr : reachable s = true) (h : s.jobs ≠ [] ∨ s.slots.sids ≠ []) (test : Option SelfTestFail) :
    monStest test s = .err "STATE" s := by
  have hnone : rerunTest s test = none := if_pos (by
    obtain h | h := h
    · simp [h]
    · simp [h])
  rw [monStest, whenAwake_reachable hr, hnone]

theorem sids_at (s : State) (lt : Dword) : (At s lt).slots.sids = s.slots.sids := by
  unfold At advance
  split <;> rfl

theorem goReady_told (s : State) (hr : s.life.ready = true) : (goReady s).flt = s.flt ∧ (goReady s).mon = s.mon := by
  unfold goReady
  rw [hr]
  exact ⟨rfl, rfl⟩

theorem selfTestFailed_fifo (s : State) (f : SelfTestFail) : (selfTestFailed s f).mon.fifo = s.mon.fifo := fault_fifo ..

theorem monBaud_waits {w : List Byte} {d : Nat} (hw : hexOf w = some d) (hd : d < 65536) :
    monBaud s [w] = .ok okText { s with mon := { s.mon with baud := some (0, d) } } := by
  unfold monBaud
  rw [numArgs_one hw]
  exact if_neg (Nat.not_le.2 hd)

/-! ### Injections -/

/-- `s` with the injection `i` armed. -/
def injected (s : State) (i : Inject) : State := { s with mon := { s.mon with inj := s.mon.inj ++ [i] } }

theorem armArgs_within {kind : Nat} {limits l : List Nat} {ws : List (List Byte)} (hl : numArgs ws = some l) (hlen : l.length = limits.length)
    (hlim : ∀ p ∈ l.zip limits, p.1 < p.2) : armArgs kind limits s ws = arm s ⟨kind, l.getD 0 0, l.getD 1 0, l.getD 2 0⟩ := by
  unfold armArgs
  rw [hl]
  dsimp only
  rw [if_neg (by simp [hlen]), if_neg]
  simp only [List.any_eq_true, decide_eq_true_eq, not_exists, not_and, Nat.not_le]
  exact hlim

theorem armArgs_none (kind : Nat) (s : State) : armArgs kind [] s [] = arm s ⟨kind, 0, 0, 0⟩ := rfl

theorem armArgs_one {kind x c : Nat} {w : List Byte} (hw : hexOf w = some c) (hc : c < x) : armArgs kind [x] s [w] = arm s ⟨kind, c, 0, 0⟩ :=
  armArgs_within (l := [c]) (numArgs_one hw) rfl (by simpa using hc)

theorem armArgs_two {kind x y c o : Nat} {w v : List Byte} (hw : hexOf w = some c) (hv : hexOf v = some o) (hc : c < x) (ho : o < y) :
    armArgs kind [x, y] s [w, v] = arm s ⟨kind, c, o, 0⟩ :=
  armArgs_within (l := [c, o]) (numArgs_two hw hv) rfl (by simpa using ⟨hc, ho⟩)

theorem armArgs_three {kind x y z c o i : Nat} {w v u : List Byte} (hw : hexOf w = some c) (hv : hexOf v = some o) (hu : hexOf u = some i)
    (hc : c < x) (ho : o < y) (hi : i < z) : armArgs kind [x, y, z] s [w, v, u] = arm s ⟨kind, c, o, i⟩ :=
  armArgs_within (l := [c, o, i]) (numArgs_three hw hv hu) rfl (by simpa using ⟨hc, ho, hi⟩)

/-- The row of an injection that waits for what it injects into. -/
theorem injection_arms {head : List String} {args : List (List Byte)} {run : State → List (List Byte) → MonRes} {i : Inject}
    (h : Asked s seq head 2 args) (hrun : run s args = arm s i) (hi : i.kind ≠ 1 ∧ i.kind ≠ 2 ∨ 3 ≤ s.pwr.state) : monRow head 2 run s =
      if s.mon.inj.length < 8 then answer (injected s i) seq '!' (txt "OK") else answer s seq '?' (txt "STATE") := by
  have hwait : ((i.kind == 1 || i.kind == 2) && decide (s.pwr.state < 3)) = false := by
    obtain ⟨h1, h2⟩ | h3 := hi
    · simp [h1, h2]
    · simp [h3]
  by_cases hlen : s.mon.inj.length < 8
  · rw [if_pos hlen]
    refine monRow_ok (t := injected s i) h (hrun.trans ((if_neg (by omega)).trans ?_)) rfl
    rw [hwait]
    rfl
  · rw [if_neg hlen]
    exact monRow_err h (hrun.trans (if_pos (by omega))) rfl

/-- The row of an injection into T0. -/
theorem injection_flips {head : List String} {args : List (List Byte)} {run : State → List (List Byte) → MonRes} {i : Inject}
    (h : Asked s seq head 2 args) (hrun : run s args = arm s i) (hi : i.kind = 1 ∨ i.kind = 2) : monRow head 2 run s =
      if s.mon.inj.length < 8 ∧ s.pwr.state < 3 then answer (flipT0 s i) seq '!' (txt "OK")
      else if s.mon.inj.length < 8 then answer (injected s i) seq '!' (txt "OK") else answer s seq '?' (txt "STATE") := by
  by_cases hst : s.pwr.state < 3
  · by_cases hlen : s.mon.inj.length < 8
    · rw [if_pos ⟨hlen, hst⟩]
      refine monRow_ok (t := flipT0 s i) h (hrun.trans ((if_neg (by omega)).trans (if_pos ?_))) rfl
      obtain hi | hi := hi <;> simp [hi, hst]
    · rw [if_neg fun h => hlen h.1, if_neg hlen]
      exact monRow_err h (hrun.trans (if_pos (by omega))) rfl
  · rw [if_neg fun h => hst h.2]
    exact injection_arms h hrun (.inr (by omega))

/-- Settles O58, command by command. -/
theorem monitorControlsAndInjects : Obligations.MonitorControlsAndInjects := by
  unfold Obligations.MonitorControlsAndInjects
  refine ⟨fun s seq => ?_, fun s seq => ?_⟩
  · intro ok
    refine ⟨fun h => ?_, fun w c h hw hc => ?_, fun h => ⟨fun hh => ?_, fun hh => ?_⟩, fun w c h hw hc => ?_,
      fun a n b q c t k h ha hb hc hn hq ht hk => ?_, fun a n h ha hn => ?_,
      fun a base b size c mask d mode h ha hb hc hd h1 h2 h3 h4 h5 h6 h7 => ?_, fun h => ?_, fun h => ?_, rfl,
      fun lt h hready hr hp hj hs => ⟨?_, fun f => ?_⟩, fun f lt h hr hbusy => ?_, fun w d h hw hd => ?_⟩
    · obtain ⟨hin, hframe⟩ := haltEngine_halts s
      refine ⟨(haltEngine s).evt, congrArg Host.Outcome.next ?_⟩
      rw [← hin, ← hframe]
      exact monRow_ok h rfl (by rw [hframe])
    · exact congrArg Host.Outcome.next (monRow_ok h (monHalt_core hw hc) rfl)
    · refine congrArg Host.Outcome.next ((monRow_ok h (monRes_all s) (by rw [haltRelease_halted hh]; rfl)).trans ?_)
      rw [haltRelease_halted hh]
      rfl
    · have hrel : haltRelease s = s := if_neg (by simp [hh])
      refine congrArg Host.Outcome.next ((monRow_ok h (monRes_all s) (by rw [hrel]; rfl)).trans ?_)
      rw [hrel]
      rfl
    · exact congrArg Host.Outcome.next (monRow_ok h (monRes_core hw hc) rfl)
    · exact congrArg Host.Outcome.next (monRow_ok h (monBp_set ha hb hc hn hq ht hk) rfl)
    · exact congrArg Host.Outcome.next (monRow_ok h (monBp_off ha hn) rfl)
    · exact congrArg Host.Outcome.next (monRow_ok h (monTrOn_begins ha hb hc hd h1 h2 h3 h4 h5 h6 h7) rfl)
    · exact congrArg Host.Outcome.next (monRow_ok (t := { s with mon := { s.mon with trOn := false } }) h rfl rfl)
    · exact congrArg Host.Outcome.next (monRow_ok h rfl rfl)
    · have hrun := monStest_passes (reachable_at hr lt) (by rw [boot_at]; exact hp) ((jobs_at s lt).trans hj) ((sids_at s lt).trans hs)
      obtain ⟨hflt, hmon⟩ := goReady_told (At s lt) (by rw [life_at]; exact hready)
      obtain ⟨h1, h2, h3⟩ := goReady_ready (At s lt)
      refine ⟨_, congrArg Host.Outcome.next (monRow_ok (run := noArgs (monStest none)) (asked_at h lt) hrun (congrArg Monitor.fifo hmon)), h1, h2, h3,
        hflt.trans (flt_at s lt), ?_⟩
      change (goReady (At s lt)).mon.tx ++ _ = _
      rw [hmon, mon_at]
      rfl
    · have hrun := monStest_fails (reachable_at hr lt) (by rw [boot_at]; exact hp) ((jobs_at s lt).trans hj) ((sids_at s lt).trans hs) f
      obtain ⟨h1, h2, h3⟩ := selfTestFailed_fails { At s lt with tbl := equalBanks (At s lt).tbl } f
      refine ⟨_, congrArg Host.Outcome.next (monRow_ok (run := noArgs (monStest (some f))) (asked_at h lt) hrun (selfTestFailed_fifo ..)), h1, h2, ?_⟩
      refine h3.trans ?_
      change add64 ((At s lt).flt.count.get 9 0) 1 = _
      rw [flt_at]
    · have hrun := monStest_refused (reachable_at hr lt) (by rw [jobs_at, sids_at]; exact hbusy) f
      exact congrArg Host.Outcome.next (monRow_err (run := noArgs (monStest f)) (asked_at h lt) hrun rfl)
    · exact congrArg Host.Outcome.next (monRow_ok h (monBaud_waits hw hd) rfl)
  · intro ok armed
    refine ⟨fun w c hw hc => ⟨fun h => ?_, fun h => ?_, fun h hq => ?_⟩, fun h => ?_, fun h => ?_, fun a c b o ha hb hc ho => ?_, fun h => ?_, fun h => ?_⟩
    · exact congrArg Host.Outcome.next (injection_arms h (armArgs_one hw hc) (.inl ⟨by simp, by simp⟩))
    · exact congrArg Host.Outcome.next (injection_arms h (armArgs_one hw hc) (.inl ⟨by simp, by simp⟩))
    · exact congrArg Host.Outcome.next (injection_arms h (armArgs_one hw hq) (.inl ⟨by simp, by simp⟩))
    · exact congrArg Host.Outcome.next (injection_arms h (armArgs_none _ s) (.inl (by decide)))
    · exact congrArg Host.Outcome.next (injection_arms h (armArgs_none _ s) (.inl (by decide)))
    · intro act
      refine ⟨fun h => ?_, fun d i h hd hi => ?_⟩
      · exact congrArg Host.Outcome.next (injection_flips h (armArgs_two ha hb hc ho) (.inr rfl))
      · exact congrArg Host.Outcome.next (injection_flips h (armArgs_three ha hb hd hc ho hi) (.inl rfl))
    · exact congrArg Host.Outcome.next (monRow_ok (t := { s with mon := { s.mon with inj := [] } }) h rfl rfl)
    · exact congrArg Host.Outcome.next (monRow_ok h rfl rfl)

end Sys2Proof.Proofs
end

section
set_option Elab.async false
/-! ATTN (10 R327, R334-R339; 13 R419, R425). -/
namespace Sys2Proof.Proofs
open Sys2Proof Sys2Proof.Machine Sys2Proof.Laws Sys2Proof.Safety

variable {s : State} {j : Job} {o : AttnOp} {ms : List Member}

/-! ### The members -/

theorem memberOf_served (s : State) (j : Job) : memberOf (s.served j) = memberOf s := by
  rw [served_eq]
  rfl

theorem attnMembers_cons {m : Member} {i : Nat} {l : List (Member × Nat)} (hm : m.phase ≠ .ended) : attnMembers s j o ((m, i) :: l) =
    (writeRuns true j.q j.n m.core o.kvCode s (kvWrites s j.ctx o i m.sid m.pos)).bind fun s1 =>
      let reads := o.pages m.pos
      let s2 := countNeaps (logUnmapped s1 j.loc (reads.map fun v => (m.sid, v))) j.q j.n
        (neapPages (logUnmapped s1 j.loc (reads.map fun v => (m.sid, v))) j m.sid reads).length
      let t := attnTiles s2 j.ctx o j i m.sid m.pos m.core
      match t.2 with
      | some f => some (s2, t.1, some f)
      | none => (attnMembers s2 j o l).map fun r => (r.1, t.1 ++ r.2.1, r.2.2) := by
  have hphase : (m.phase == .ended) = false := by simpa using hm
  rw [attnMembers, hphase, if_neg Bool.false_ne_true]
  cases writeRuns true j.q j.n m.core o.kvCode s (kvWrites s j.ctx o i m.sid m.pos) <;> rfl

/-- The members as their slots stand. -/
def refreshed (s : State) (ms : List Member) : List Member :=
  ms.map fun m => if m.phase == .ended then m else { memberOf s m.sid with missed := m.missed }

theorem refreshed_fresh {t : State} (ht : memberOf t = memberOf s) (sids : List Nat) :
    refreshed t (sids.map (memberOf s)) = sids.map (memberOf s) := by
  unfold refreshed
  rw [List.map_map]
  refine List.map_congr_left fun a _ => ?_
  obtain ⟨hsid, hphase⟩ := memberOf_fresh s a
  have hmiss : (memberOf s a).missed = false := by
    unfold memberOf
    split <;> rfl
  rw [Function.comp_apply, hphase, hsid, ht, hmiss, if_neg (by decide), ← hmiss]

/-- The members once their rows have been computed. -/
def issuedIn (s : State) (j : Job) (o : AttnOp) (ms : List Member) : List Member :=
  ms.map fun m =>
    if m.phase == .ended then m
    else { m with
      phase := .issued
      neap := !(neapPages s j m.sid (o.pages m.pos)).isEmpty }

theorem issuedIn_live {j : Job} (h : ∀ m ∈ ms, m.phase ≠ .ended) : issuedIn s j o ms =
    ms.map fun m => { m with phase := .issued, neap := !(neapPages s j m.sid (o.pages m.pos)).isEmpty } :=
  List.map_congr_left fun m hm => if_neg (by simpa using h m hm)

/-! ### The row -/

/-- The rows of the members are computed, or their command keeps the pages that it took. -/
def attnRuns (s : State) (j : Job) (o : AttnOp) (ms : List Member) : State :=
  match takePages s j fun s => (attnMembers s j o ms.zipIdx).map fun r => (r.1, r.2) with
  | (none, s) => s
  | (some (s, ts, f), _) => s.withJob j.q j.n fun s j =>
    pumpWrites (settle (endRows (runTiles s { j with members := issuedIn s j o ms } ts f) j.q j.n) j.q j.n)

theorem attnGo_eq (s : State) (j : Job) (o : AttnOp) : attnGo s j o =
    if o.compat && (refreshed s j.members).any fun m => m.phase != .ended && decide (2 ^ 20 < o.longest m.pos) then reject s j 1 1 0
    else
      let p := attnReach s j o (refreshed s j.members)
      if !p.1 then p.2
      else p.2.withJob j.q j.n fun t k => withOperands t k k.ctx [o.qkv] (o.allParts t k (refreshed s j.members)) fun t k =>
        attnRuns t k o (refreshed s j.members) := rfl

theorem runAttn_eq (s : State) (j : Job) (o : AttnOp) : runAttn s j o =
    (withMembers s j o.sids).withJob j.q j.n fun t k =>
      if !(bringIn t k k.liveSids).1 then (bringIn t k k.liveSids).2
      else (bringIn t k k.liveSids).2.withJob k.q k.n fun t k => attnGo t k o := rfl

/-- A command with its members in slots, its pages reached and its operands at hand goes on to its rows. -/
theorem attnGo_runs (hc : o.compat = false) (hms : refreshed s j.members = ms) (hj : s.job j.q j.n = some j)
    (hreach : attnReach s j o ms = (true, s)) (hat : AtHand s j j.ctx (o.allParts s j ms)) : attnGo s j o = attnRuns s j o ms := by
  rw [attnGo_eq, hms, hc, hreach]
  simp only [Bool.false_and, Bool.false_eq_true, if_false, Bool.not_true]
  rw [withJob_of_job hj, withOperands_atHand _ _ _ _ _ _ hj hat]

theorem runAttn_runs {sids : List Nat} (hm : j.members = []) (hj : s.job j.q j.n = some j) (hs : o.sids = sids)
    (hb : bringIn (s.setJob (withSet s j sids)) (withSet s j sids) sids = (true, s.setJob (withSet s j sids))) :
    runAttn s j o = attnGo (s.setJob (withSet s j sids)) (withSet s j sids) o := by
  have hwith : withMembers s j o.sids = s.setJob (withSet s j sids) := by
    rw [withMembers, hm, hs]
    rfl
  have hset : (s.setJob (withSet s j sids)).job j.q j.n = some (withSet s j sids) := job_setJob _ _ _ j _ hj rfl rfl rfl
  rw [runAttn_eq, hwith, withJob_of_job hset, liveSids_withSet, hb, Bool.not_true, if_neg Bool.false_ne_true]
  exact withJob_of_job hset _

/-! ### The rows -/

theorem attnRuns_computed {s2 : State} {ts : List Tile} {f : Option (Nat × Nat × Nat)} {j2 : Job} (hh : j.hold = ([], []))
    (hr : attnMembers s j o ms.zipIdx = some (s2, ts, f)) (hj : s2.job j.q j.n = some j2) : attnRuns s j o ms =
      pumpWrites (settle (endRows (runTiles s2 { j2 with members := issuedIn s2 j2 o ms } ts f) j2.q j2.n) j2.q j2.n) := by
  unfold attnRuns
  rw [takePages_at_once hh (congrArg (Option.map _) hr)]
  exact withJob_of_job hj _

/-- With too few pages to be had a command keeps those that it took and stalls. -/
theorem takePages_dry {α : Type} {act : State → Option (State × α)} {h : List Nat × List Nat} {s2 : State} {j2 : Job}
    (hh : j.hold = ([], [])) (ha : act s = none) (hg : growHold act s.pg.free s ([], []) = (none, h, s2)) (hj : s2.job j.q j.n = some j2) :
    takePages s j act = (none, s2.setJob { j2 with hold := h, dry := true }) := by
  unfold takePages
  rw [hh]
  simp [ha, hg, withJob_of_job hj]

theorem attnRuns_dry {h : List Nat × List Nat} {s2 : State} {j2 : Job} (hh : j.hold = ([], [])) (hr : attnMembers s j o ms.zipIdx = none)
    (hg : growHold (fun s => (attnMembers s j o ms.zipIdx).map fun r => (r.1, r.2)) s.pg.free s ([], []) = (none, h, s2))
    (hj : s2.job j.q j.n = some j2) : attnRuns s j o ms = s2.setJob { j2 with hold := h, dry := true } := by
  unfold attnRuns
  rw [takePages_dry hh (congrArg (Option.map _) hr) hg hj]

/-- A command whose state job `k` is takes its tiles up. -/
theorem runTiles_places {k : Job} {ts : List Tile} (hoff : s.mon.trOn = false) (hk : s.job j.q j.n = some k) (ht : k.take = j.take) (hts : ts ≠ [])
    (f : Option (Nat × Nat × Nat)) : runTiles s j ts f = placeTiles (s.setJob (running j ts f)) j.q j.n ts := by
  have hjob : (placeTiles (s.setJob (running j ts f)) j.q j.n ts).job j.q j.n = some (running j ts f) := by
    rw [(placeTiles_places ..).frame]
    exact job_setJob s _ _ k _ hk ht.symm rfl rfl
  have hlen : ts.length ≠ 0 := by simpa using hts
  rw [runTiles, trace_off]
  · exact settle_unfinished hjob (by simp only [running, Job.run]; omega)
  · exact hoff

/-- While each member has a row to come, no member ends. -/
theorem endRows_none {q n : Nat} (hj : s.job q n = some j) (h : ∀ i, i < j.members.length → ∃ t ∈ j.tiles, t.num / j.memberRows = i) :
    endRows s q n = s := by
  have hstep : ∀ l : List Nat, (∀ i ∈ l, i < j.members.length) → l.foldl (fun s i =>
      s.withJob q n fun s j => match j.members[i]? with
        | some m => if m.phase == .issued && !(j.tiles.any fun t => t.num / j.memberRows == i) then
            endMember s q n i (if m.missed then 2 else 0) else s
        | none => s) s = s := by
    intro l hl
    induction l with
    | nil => rfl
    | cons i l ih =>
      have hrow : (j.tiles.any fun t => t.num / j.memberRows == i) = true := by
        obtain ⟨t, ht, hti⟩ := h i (hl i (List.mem_cons_self ..))
        exact List.any_eq_true.2 ⟨t, ht, beq_iff_eq.2 hti⟩
      rw [List.foldl_cons, withJob_of_job hj]
      split
      · rw [hrow, Bool.not_true, Bool.and_false, if_neg Bool.false_ne_true]
        exact ih fun i hi => hl i (List.mem_cons_of_mem _ hi)
      · exact ih fun i hi => hl i (List.mem_cons_of_mem _ hi)
  rw [endRows, withJob_of_job hj]
  split
  · rfl
  · exact hstep _ fun i hi => List.mem_range.1 hi

/-- A command that runs with a row of each member to come goes on. -/
theorem settle_endRows_none {q n : Nat} (hj : s.job q n = some j) (h : ∀ i, i < j.members.length → ∃ t ∈ j.tiles, t.num / j.memberRows = i)
    (hf : j.finished ≠ j.total) : settle (endRows s q n) q n = s := by
  rw [endRows_none hj h, settle_unfinished hj hf]

theorem exec_attn (q : BitVec 6) (n : BitVec 16) (s : State) : exec (.attn q n) s = .next (attnCmd q n s) := rfl

/-- Settles O48, from the way of an ATTN to its rows and from what its rows leave. -/
theorem attentionRunsItsMembers : Obligations.AttentionRunsItsMembers := by
  unfold Obligations.AttentionRunsItsMembers
  refine ⟨fun q n s j hquiet hs ht => ⟨fun b hb => ?_, fun o ho hc hm hh => ?_⟩, fun s j o m i l hm => attnMembers_cons hm⟩
  · rw [exec_attn, attnCmd, startRow_error _ _ _ _ j b _ _ ht.1 ht.2 hs hb]
  · intro ms j1 s1 hbring hreach hat
    have hj : (s.served j).job j.q j.n = some j := by
      rw [served_job]
      exact job_taken ht
    obtain ⟨hq, hn⟩ := job_names _ _ _ _ ht.1
    have hset : withSet (s.served j) j o.sids = j1 := by
      rw [withSet, memberOf_served]
      simp only [j1, ms, List.length_map]
    have hjob : s1.job j1.q j1.n = some j1 := job_setJob _ _ _ j _ hj rfl rfl rfl
    have hms : refreshed s1 j1.members = ms := refreshed_fresh (s := s) (t := s1) (by
      change memberOf (s.served j) = memberOf s
      exact memberOf_served s j) o.sids
    have hrow : exec (.attn q n) s = .next (attnRuns s1 j1 o ms) := by
      rw [exec_attn, attnCmd, startRow_ok _ _ _ _ j o _ _ ht.1 ht.2 hs ho]
      rw [runAttn_runs hm hj rfl (by rw [hset]; exact hbring), hset, attnGo_runs hc hms hjob hreach hat]
    refine ⟨fun s2 ts f j2 hr hj2 hmon hts => ?_, fun h s2 j2 hr hg hj2 => ?_⟩
    · intro issued j3 s3
      obtain ⟨hq2, hn2⟩ := job_names _ _ _ _ hj2
      have hj2' : s2.job j1.q j1.n = some j2 := by
        change s2.job j.q j.n = some j2
        rw [hq, hn]
        exact hj2
      have hissued : issuedIn s2 j2 o ms = issued := issuedIn_live fun m hmem => by
        obtain ⟨a, -, rfl⟩ := List.mem_map.1 hmem
        rw [(memberOf_fresh s a).2]
        decide
      have hruns : runTiles s2 { j2 with members := issued } ts f = s3 := by
        have hplaced := runTiles_places (j := { j2 with members := issued }) (k := j2) (by rw [hmon]; exact hquiet.1)
          (by rw [hq2, hn2]; exact hj2) rfl hts f
        refine hplaced.trans ?_
        change placeTiles (s2.setJob j3) j2.q j2.n ts = placeTiles (s2.setJob j3) j.q j.n ts
        rw [hq2, hn2, hq, hn]
      have hjob3 : s3.job q.toNat n.toNat = some j3 := by
        change (placeTiles (s2.setJob j3) j.q j.n ts).job q.toNat n.toNat = some j3
        rw [(placeTiles_places ..).frame]
        exact job_setJob s2 _ _ j2 _ hj2 rfl hq2 hn2
      refine ⟨?_, hjob3, rfl, rfl, rfl, fun hall => ?_⟩
      · rw [hrow, attnRuns_computed (j := j1) hh hr hj2', hissued, hruns, hq2, hn2, hq, hn]
      · rw [hq, hn]
        have hlen : ts.length ≠ 0 := by simpa using hts
        refine settle_endRows_none hjob3 (fun i hi => hall i ?_) hlen.symm
        have hi' : i < issued.length := hi
        simpa [issued] using hi'
    · have hj2' : s2.job j1.q j1.n = some j2 := by
        change s2.job j.q j.n = some j2
        rw [hq, hn]
        exact hj2
      rw [hrow, attnRuns_dry (j := j1) hh hr hg hj2']

end Sys2Proof.Proofs
end
